-- ==== Sys2Proof/Word.lean ====
section
/-!
DEFINITION. The word types of the block and the names of its numbered parts.
-/

namespace Sys2Proof

/-- One byte. -/
abbrev Byte := BitVec 8
/-- A 32-bit register or an FP32 pattern. -/
abbrev Word := BitVec 32
/-- A 64-bit register. -/
abbrev DWord := BitVec 64

/-- A partition identifier, 0 to 1023 (Table 6 of the scope chapter). -/
abbrev Part := Fin 1024
/-- One of the four dies of a kind of which there are four (P-, L- and S-dies, stacks). -/
abbrev Die := Fin 4
/-- An F-die. -/
abbrev FDie := Fin 8
/-- A physical C-die (16 active and 2 spare on grade F). -/
abbrev Cdie := Fin 18
/-- A logical course. -/
abbrev Course := Fin 16
/-- A physical brick: C-die times 16 plus the brick's number in its course. -/
abbrev Brick := Fin 288
/-- A device feed number. -/
abbrev Feed := Fin 256
/-- A device port number: L-die times 16 plus port (R397). -/
abbrev LPort := Fin 64
/-- A port-local feed number, or a wall peer (R398). -/
abbrev Local := Fin 16
/-- A scalar register s0 to s31. -/
abbrev SReg := Fin 32
/-- A vector register v0 to v15. -/
abbrev VReg := Fin 16
/-- A placement group of a partition's position. -/
abbrev Target := Fin 16

end Sys2Proof
end

