-- ==== Sys2Proof/Syntax.lean ====
section
/-!
DEFINITION. The commands the block takes, one constructor of `Instr` for each row of the opcode table, with the operands of
each and the contents of the images that two of them bring.
-/

namespace Sys2Proof

/-! ### Operands of the tiers -/

/-- What an ECC-checked read finds: no error, a corrected single-bit error, an error cleared by the second read, an error
that persists (R116, R243). -/
inductive EccOutcome where
  | good | corrected | retried | failed
  deriving DecidableEq, Repr

/-- How a failed pallet goes on: rolled back and run again, or answered with source 4 (R454, R455). -/
inductive PalletFailure where
  | rerun | answer
  deriving DecidableEq, Repr

/-! ### Native bundles -/

/-- The six slots of a bundle, top first, with the numbers of BRK_STATE.halt_slot (R247, R250). -/
inductive SlotPos where
  | sync | scalar | vector | matrix | load | store
  deriving DecidableEq, Repr

/-- What every slot of a bundle carries (R214, R250): the brick that fetches it, the wait and the signal identifier, whether
a reserved bit of the slot is set (R252), and whether further slots of the same bundle follow in the queue. -/
structure BCtl where
  brick : Brick
  wait : BitVec 6 := 0
  sig : BitVec 6 := 0
  rsv : Bool := false
  more : Bool := false
  deriving DecidableEq, Repr

/-- The operands of MATMUL (Table 8 of the bundle chapter). -/
structure MatmulArgs where
  da : Fin 16
  db : Fin 16
  src : Fin 8
  dst : Fin 4
  swap : Bool
  kdbl : Bool
  g : Fin 4
  nWidth : BitVec 8
  nb : Fin 16
  deriving DecidableEq, Repr

/-- The operands of MATMUL_Q (Table 8 of the bundle chapter). -/
structure MatmulQArgs where
  da : Fin 16
  quadrant : Fin 4
  src : Fin 16
  dst : Fin 8
  swap : Bool
  g : Fin 4
  nWidth : BitVec 7
  deriving DecidableEq, Repr

/-! ### Ensembles and verdict maps (R106, R113) -/

/-- A 128-bit word of an image. -/
abbrev QWord := BitVec 128

/-- An ensemble section with its verdict map (R106). -/
structure Ensemble where
  nClasses : Nat
  passes : Nat
  trees1 : Nat
  trees2 : Nat
  escLimit : Nat
  levels : List (List DWord)
  scales : List Word
  leaves : List DWord
  bitmaps : List DWord
  vmap : List QWord
  deriving DecidableEq, Repr

/-! ### Hykai code (R271, R272, R278, R280) -/

/-- A tensor descriptor (R272). -/
structure TensorDesc where
  kind : Nat
  format : Nat
  nanMode : Bool := false
  multEn : Bool := false
  outliers : Bool := false
  reservedBits : Bool := false
  g : Nat := 3
  rank : Nat := 2
  dim0 : Nat := 128
  dim1 : Nat := 0
  dataOff : Nat := 0
  scaleOff : Nat := 0
  auxOff : Nat := 0
  bytes : Nat := 0
  deriving DecidableEq, Repr

/-- A stage-table entry (R278). -/
structure StageDesc where
  kind : Nat
  lockstep : Bool := false
  spread : Nat := 1
  order : Nat := 0
  first : Nat := 0
  count : Nat := 0
  carry : Nat := 0xFFFF
  reservedBits : Bool := false
  deriving DecidableEq, Repr

/-- A parameter-table entry (R280). -/
structure ParamDesc where
  number : Nat
  source : Nat
  default : BitVec 40
  deriving DecidableEq, Repr

/-- A Hykai code section (R271): the header's fields that name a form or a version, the tables and the words. `layoutBroken` says that
an offset, a count or a reserved field of the header breaks Table 1, or that tables overlap. -/
structure HykaiCode where
  magic : Word := 0x31594B48
  major : Nat := 1
  minor : Nat := 0
  layout : Nat := 0
  layoutBroken : Bool := false
  tensors : List TensorDesc := []
  params : List ParamDesc := []
  paramCount : Nat := 0
  stages : List StageDesc := []
  words : List DWord := []
  deriving DecidableEq, Repr

/-! ### The structure image (R374 to R377) -/

/-- The PARSE section: parse graph, transition table, key templates and their map, feature program (R40 to R43, R49, R64). -/
structure ParseSec where
  states : List (Nat × QWord) := []
  trans : List Word := []
  templates : List QWord := []
  accMap : List (Nat × Nat) := []
  features : List Word := []
  fragTimeoutNs : Nat := 2000000000
  fragMissAction : BitVec 4 := 0
  deriving DecidableEq, Repr

/-- The FLOW_GEOM section: keys, warm-tier enable, steering table (R46, R66, R79). -/
structure FlowGeom where
  kd : QWord := 0
  kb : QWord := 0
  warmEn : Bool := false
  steer : List Byte := []
  enc : Bool := true
  deriving DecidableEq, Repr

/-- Where the advisories of a partition, or the verdicts of a mirror feed, go (R411, R414, R429): a feed, a host ring (0 to 3 for verdicts;
advisories take ring 4 whatever the number), or frames. -/
inductive OutDest where
  | feed (f : Feed)
  | ring (r : Fin 4)
  | frames
  deriving DecidableEq, Repr

/-- One feed of the FEEDS section (R398, R404, R408, R413). -/
structure FeedCfg where
  feed : Feed
  port : LPort
  loc : Nat
  reclen : Nat := 128
  part : Part := 0
  credits : Nat := 0
  spillUs : Nat := 10
  deadline : BitVec 12 := 0
  mirrorDest : OutDest := .ring 0
  crcRanges : List (Nat × Nat) := []
  deriving DecidableEq, Repr

/-- The FEEDS section. -/
structure FeedsSec where
  feeds : List FeedCfg := []
  advDest : List (Nat × OutDest) := []
  wallCredits : List Nat := []
  etherType : BitVec 16 := 0
  macs : List Byte := []
  deriving DecidableEq, Repr

/-- The PRT_ values of one partition in the PARTITIONS section (R37, R92, R93, R117, R174, R318, R346). -/
structure PartCfg where
  part : Part
  fn : Nat
  cascade : Word := 0
  flow : Word := 0
  flowQuota : Word := 0
  tree : Word := 0
  driftCtl : Word := 0x00320064
  scratchMib : Nat := 0
  seqCtl : Word := 0
  seqAdv : Word := 0
  seqThresh : Word := 0x7F800000
  seqQuota : Word := 0
  deriving DecidableEq, Repr

/-- The PARTITIONS section. -/
structure PartsSec where
  parts : List PartCfg := []
  unassigned : BitVec 4 := 0
  deriving DecidableEq, Repr

/-- A placement group (R356): the bricks by identifier, lock-step or not, or one window of a quartered brick. -/
structure Group where
  bricks : List Nat
  lockstep : Bool := false
  window : Fin 4 := 0
  deriving DecidableEq, Repr

/-- The placement of one partition (R356, R358). -/
structure PartBond where
  part : Part
  mirror : Bool := false
  pallet : List (List Group) := []
  seqGroups : List Group := []
  deriving DecidableEq, Repr

/-- The BOND section. -/
structure BondSec where
  parts : List PartBond := []
  slowPool : List Nat := []
  seqPool : List Nat := []
  standby : List Nat := []
  deriving DecidableEq, Repr

/-- One port of the PORTS section (R397, R406). -/
structure PortCfg where
  port : LPort
  mode : Fin 3
  lanes : List Nat
  laneErrLimit : Nat := 16
  badItem : Bool := false
  deriving DecidableEq, Repr

/-- One installer bound (R390): loop index, partition (ignored for device loops), lo, hi. -/
structure BoundCfg where
  index : Nat
  part : Nat := 0
  lo : Nat
  hi : Nat
  deriving DecidableEq, Repr

/-- The QOS section: class and weight of each partition, the gap of each class in ns (R436, R437, R442). -/
structure QosSec where
  parts : List (Nat × Nat × Nat) := []
  gaps : List Nat := []
  deriving DecidableEq, Repr

/-- The WALL section (R415, R416, R419). -/
structure WallSec where
  ownId : Fin 16 := 0
  routes : List (Nat × List Nat) := []
  timeoutUs : Nat := 10
  deriving DecidableEq, Repr

/-- The DEVICE section (R303, R377). -/
structure DeviceSec where
  pinnedMib : Nat := 0
  wdogUs : Nat := 8
  traceOn : Bool := false
  deriving DecidableEq, Repr

/-- The plaintext of the thirteen sections (R377). -/
structure StructSections where
  ports : List PortCfg := []
  feeds : FeedsSec := {}
  parse : ParseSec := {}
  flowGeom : FlowGeom := {}
  treeGeom : List Nat := []
  layout : List Nat := []
  bond : BondSec := {}
  parts : PartsSec := {}
  qos : QosSec := {}
  bounds : List BoundCfg := []
  slowpath : Option HykaiCode := none
  device : DeviceSec := {}
  wall : Option WallSec := none
  deriving DecidableEq, Repr

/-- A structure image as the warden reads it: the container's fields, whether a form rule of R374 to R377 is broken, the
signature over its digest, the devices its envelopes name, whether every tag verifies, and the sections. -/
structure StructImage where
  magic : Word := 0x54534D47
  version : Nat := 1
  grades : BitVec 3 := 7
  sectionCount : Nat := 13
  envelopes : List DWord := []
  imageId : Word := 0
  length : Nat := 0
  keyId : DWord := 0
  formBroken : Bool := false
  digest : BitVec 384 := 0
  signature : BitVec 768 := 0
  tagsOk : Bool := true
  secs : StructSections := {}
  deriving DecidableEq, Repr

/-! ### The model image (R348 to R352) -/

/-- A variant entry (R352). -/
structure VariantDesc where
  grades : BitVec 3
  needs : BitVec 3
  layout : Nat
  minWidth : Nat
  deriving DecidableEq, Repr

/-- A statistics-set descriptor (R154). -/
structure StatDesc where
  watch : Bool := false
  outlier : Bool := false
  temper : Bool := false
  tensor : Nat := 0
  gFirst : Nat := 0
  gLast : Nat := 0
  threshold : Word := 0
  minCount : Nat := 0
  reservedBits : Bool := false
  deriving DecidableEq, Repr

/-- What a section of a model image holds (Table 4 of the model chapter). -/
inductive SectionBody where
  | tier2Code (c : HykaiCode)
  | seqCode (c : HykaiCode)
  | data (bytes : List Byte)
  | ensemble (e : Ensemble)
  | t2Map (m : List QWord)
  | seqMap (m : List QWord)
  | stats (ds : List StatDesc)
  | seqCfg (stateKeep : Bool)
  | native
  | span (peers : List (Nat × Nat))
  | reserved
  deriving DecidableEq, Repr

/-- A directory entry with its contents: the variants it belongs to, whether its tag verifies. -/
structure SectionEntry where
  variants : BitVec 8
  tagOk : Bool := true
  body : SectionBody
  deriving DecidableEq, Repr

/-- A model image as the loader reads it (R348). -/
structure ModelImage where
  magic : Word := 0x4D49444D
  version : Nat := 1
  flags : Byte := 0
  imageId : Word := 0
  length : Nat := 0
  keyId : DWord := 0
  formBroken : Bool := false
  envelopes : List DWord := []
  digest : BitVec 384 := 0
  signature : BitVec 768 := 0
  variants : List VariantDesc := []
  sections : List SectionEntry := []
  deriving DecidableEq, Repr


/-! ### Operands of the device's commands -/

/-- What the fragment-table lookup of a slow-path slice is for (R56, R57): the 40-byte fragment key, and whether the slice is the
first fragment. -/
structure FragRef where
  first : Bool
  key : List Byte
  deriving DecidableEq, Repr

/-- What the slow-path program gives its row (R55, R57): the verdict it chooses, the flow-entry update of its FSTORE (no key: no
update), and the fragment it looks up. -/
structure SlowAnswer where
  action : BitVec 4
  cls : BitVec 8
  score : BitVec 16
  spState : BitVec 128 := 0
  flags : Byte := 0
  key : List Byte := []
  frag : Option FragRef := none
  deriving DecidableEq, Repr

/-- What the checkers of a pass find (R200, R201, R202): nothing, or an error of kind
`kind` in one or more column groups (BRK_ARRAY_STATUS). -/
inductive PassCheck where
  | clean
  | error (groups : List (Fin 16)) (kind : Fin 8)
  deriving DecidableEq, Repr

/-- A VC4 request (R305): the next line of a brick's running stream, or a line that the loader reads or writes. -/
inductive MemRequest where
  | stream (brick : Brick) (d : Fin 16)
  | loaderRead (addr : Nat)
  | loaderWrite (addr : Nat) (data : List Byte)
  deriving DecidableEq, Repr

/-- What the translator and the placement report for a load (R281, R290, R309, R312, R355 to R362): a refusal with its code and
place, or the figures. -/
structure TranslationPlan where
  refusal : Byte := 0
  xlCode : Byte := 0
  xlStage : Fin 16 := 0
  xlWord : BitVec 18 := 0
  section_ : BitVec 6 := 0
  offset : BitVec 26 := 0
  predictedNs : Nat := 0
  bundles : Nat := 0
  excessPages : Nat := 0
  pinnedFits : Bool := true
  streamedBytes : Nat := 0
  dramBw : Nat := 0
  sramBw : Nat := 0
  deriving DecidableEq, Repr

/-- A parameter and offset block (R370): the parameters it names with their values, and the record-group offsets. -/
structure ParamBlock where
  vals : List (Nat × DWord) := []
  count : Nat := 0
  offsets : List Word := []
  deriving DecidableEq, Repr

/-- The path of a command (R504, R506, R426): the registers of the PF, MCTP, or a VF's own window. -/
inductive Path where
  | pf
  | mctp
  | vf (part : Part)
  deriving DecidableEq, Repr

/-- What starts a hold-up (R493, R553): SAG_N low for some nanoseconds, or VPRI below 10.0 V for some microseconds; and VHOLD at
that instant in millivolts. -/
inductive SagCause where
  | sagN (lowNs vholdMv : Nat)
  | vpri (belowUs vholdMv : Nat)
  deriving DecidableEq, Repr

/-- What a kiln phase finds (Table 2 of the kiln chapter): which W-dies boot, which firmware banks and which stored image verify,
the hold-up measurement, VPRI in range, and the units that fail their test or calibration (R478's kind and unit field). -/
structure KilnOutcome where
  wdies : BitVec 2 := 3
  currentFw : Bool := true
  previousFw : Bool := true
  structOk : Bool := true
  cap10uf : Nat := 0x14A
  esrMohm : Nat := 10
  vholdMv : Nat := 12000
  vpriInRange : Bool := true
  failed : List (Nat × Word) := []
  workingPdies : BitVec 4 := 0xF
  workingLdies : BitVec 4 := 0xF
  workingSdies : BitVec 4 := 0xF
  slowRefusal : Byte := 0
  deviceId : DWord := 0
  deriving DecidableEq, Repr

/-- A key block (R502, R514): the slot, the 97-byte point, the claim certificate and the padding bytes. -/
structure KeyBlock where
  slot : Nat
  point : List Byte
  cert : BitVec 768 := 0
  padding : List Byte := []
  deriving DecidableEq, Repr

/-- The width of a register access (R536). -/
inductive AccessSize where
  | b1 | b2 | b4 | b8
  deriving DecidableEq, Repr

/-- The function through which a register is reached: the PF's BAR0, its BAR2 (partition 0's window), or a VF's BAR0 (R427). -/
inductive Fn where
  | pf
  | pfWindow
  | vf (part : Part)
  deriving DecidableEq, Repr

/-- An error that a detector reports (R448, R449): the unit's kind and unit field (R478), the detector, whether the second attempt
succeeds, and the detail of the record. -/
structure DetectedError where
  kind : Fin 14
  unit : Word
  detector : Fin 12
  retryOk : Bool
  detail : Word := 0
  deriving DecidableEq, Repr

/-- The commands the block takes: one constructor per row of the opcode table, in its order. -/
inductive Instr where
  /-- SLICE_IN (R14). A slice record taken whole from a SLICE flit stream is accepted into the L-die elastic buffer, where its descriptor is checked. -/
  | sliceIn (port : LPort) (feed : Local)
  /-- SLICE_RELEASE (R17). A slice leaves the elastic buffer once no pause holds it and a ledger entry is free, and is stamped with the current structure and model epochs. -/
  | sliceRelease (l : Die)
  /-- SLICE_AT_P_DIE (R14). A stamped slice reaches its P-die and passes through parsing, flow lookup, features, tier 1 and the verdict map. -/
  | sliceAtPDie (p : Die) (ecc : EccOutcome)
  /-- PALLET_FILL_TIMEOUT (R26). The fill timeout of an open pallet expires, and the pallet leaves padded with grout. -/
  | palletFillTimeout (p : Die) (part : Part) (target : Target)
  /-- PALLET_DISPATCH (R230). The dispatcher writes a pallet's records and pending parameter set to a window once the previous pending set has been taken. -/
  | palletDispatch (p : Die) (pallet : Nat)
  /-- PALLET_RETIRE (R27). Pallet results reach the P-die, the pallet retires, tier-2 flow state commits and the final verdicts are produced. -/
  | palletRetire (p : Die) (pallet : Nat)
  /-- PALLET_FAIL (R455). A failed pallet is rolled back, and is either re-run or has its valid rows answered with source 4. -/
  | palletFail (p : Die) (pallet : Nat) (how : PalletFailure)
  /-- DEADLINE_EXPIRY (R32). An escalated or SEQUENCE slice still awaiting its verdict at expiry is answered with source 6. -/
  | deadlineExpiry (p : Die) (slot : Fin 65536)
  /-- SLOW_PATH_VERDICT (R55). The slow-path program produces a source-3 verdict, and the owning P-die commits its one flow-entry update. -/
  | slowPathVerdict (p : Die) (answer : SlowAnswer)
  /-- FRAG_ENTRY_EXPIRE (R57). A fragment-table entry expires after frag_timeout. -/
  | fragEntryExpire (sdie : Die) (set : Fin 16384) (way : Fin 16)
  /-- WARM_PROBE_REPLY (R83). A warm-tier reply arrives, and is merged or discarded as late. -/
  | warmProbeReply (p : Die) (probe : Nat)
  /-- WARM_PROBE_TIMEOUT (R83). No warm reply has come 2 µs after insertion, so the entry becomes ESTABLISHED. -/
  | warmProbeTimeout (p : Die) (probe : Nat)
  /-- DEMOTION (R82). A demoted entry arrives at its home S-die and is merged, stored or made to replace the oldest warm entry. -/
  | demotion (sdie : Die)
  /-- SWEEPER_VISIT (R81). The hot-tier sweeper visits the next bucket and drops aged or stale entries. -/
  | sweeperVisit (p : Die)
  /-- WARM_SWEEPER_VISIT (R82). The S-die warm sweeper visits the next warm bucket. -/
  | warmSweeperVisit (sdie : Die)
  /-- VERDICT_EGRESS (R411). A produced verdict reaches its L-die egress, its ledger entry closes, and it is appended to the feed's VERDICT stream or host ring. -/
  | verdictEgress (l : Die)
  /-- VERDICT_FLIT_TIMEOUT (R411). A VERDICT flit is sent 16 ns after its first byte entered. -/
  | verdictFlitTimeout (port : LPort) (feed : Local)
  /-- SPILL_TIMEOUT (R404). A verdict has waited spill_us for partner credits, and the feed's queued verdicts are discarded. -/
  | spillTimeout (feed : Feed)
  /-- RING_SPILL (R431). The oldest record waiting for a full ring reaches spill_us, and the waiting records are discarded. -/
  | ringSpill (part : Part) (ring : Fin 8)
  /-- IDLE (R403). An IDLE flit is received, and its acks and credit returns are processed. -/
  | idleFlit (port : LPort) (flit : List Byte)
  /-- INIT (R402). An INIT flit is received, exchanging port parameters and credits, or taking an UP port DOWN. -/
  | initFlit (port : LPort) (flit : List Byte)
  /-- SLICE (R403). A SLICE flit is received, checked and credited, and its body is appended to the feed's record stream. -/
  | sliceFlit (port : LPort) (flit : List Byte)
  /-- WALL_DATA (R418). A WALL_DATA flit brings a carry, and the peer runs it on the matching epoch or returns EPOCH_MISSING. -/
  | wallData (port : LPort) (flit : List Byte)
  /-- WALL_RESULT (R416). A WALL_RESULT flit brings a peer's results back to the origin. -/
  | wallResult (port : LPort) (flit : List Byte)
  /-- WALL_CTL (R415). A WALL_CTL flit is received, refreshing reachability or carrying an abort. -/
  | wallCtl (port : LPort) (flit : List Byte)
  /-- WALL_CTL_SEND (R415). The periodic WALL_CTL is sent to every peer. -/
  | wallCtlSend (peer : Fin 16)
  /-- WALL_PEER_UNREACHABLE (R415). No WALL_CTL has come from a peer for 10 µs, so the peer is unreachable and its pallets roll back. -/
  | wallPeerUnreachable (peer : Fin 16)
  /-- WALL_TIMEOUT (R419). wall_timeout expires before the result, so the pallet rolls back with source 4 and an abort is sent. -/
  | wallTimeout (pallet : Nat)
  /-- MIRROR_FRAME (R413). A mirrored Ethernet frame is received and the L-die builds its slice descriptor. -/
  | mirrorFrame (port : LPort) (frame : List Byte) (damaged : Bool)
  /-- MIRROR_BATCH_TIMEOUT (R414). A verdict frame is sent 500 ns after its first record. -/
  | mirrorBatchTimeout (port : LPort)
  /-- LANE_ERROR_WINDOW (R406). A 1 ms FEC window closes, and the lane may be adapted or removed. -/
  | laneErrorWindow (l : Die) (lane : Fin 104) (errors : Nat)
  /-- LANE_LOCK_LOSS (R406). A lane loses lock and is removed from service. -/
  | laneLockLoss (l : Die) (lane : Fin 104)
  /-- SPARE_LANE_READY (R407). A spare lane has trained and joins the rotation, and the port returns to UP. -/
  | spareLaneReady (l : Die) (lane : Fin 104)
  /-- PORT_TRAINING_START (R399). A partner signal on every lane of an enabled port starts TRAINING. -/
  | portTrainingStart (port : LPort)
  /-- PORT_UP (R399). Lanes lock and INIT flits are exchanged, so the port goes UP. -/
  | portUp (port : LPort) (lanes : Fin 17)
  /-- PORT_TRAINING_TIMEOUT (R399). 100 ms of training without UP takes the port DOWN. -/
  | portTrainingTimeout (port : LPort)
  /-- PORT_TRAINING_RESTART (R399). Training restarts 100 ms after a training timeout. -/
  | portTrainingRestart (port : LPort)
  /-- PARTNER_SIGNAL_LOSS (R399). The partner loses signal on every lane, so the port goes DOWN. -/
  | partnerSignalLoss (port : LPort)
  /-- NOP (R251). NOP in any slot waits and signals as its fields name and does nothing else. -/
  | nop (c : BCtl) (slot : SlotPos)
  /-- REPLAY (R230). REPLAY takes the full pending sets, checks the stamps and restarts at the entry, or stalls. -/
  | replay (c : BCtl)
  /-- BARRIER (R253). BARRIER sends this brick's arrival at a barrier. -/
  | barrier (c : BCtl) (rel : BitVec 6) (b : Fin 4)
  /-- BARRIER_RELEASE (R289). When every member has arrived, the release is raised in every member 24 cycles after the last arrival. -/
  | barrierRelease (course : Course) (b : Fin 4)
  /-- CLEAR (R254). CLEAR sets a named flag or counter to 0. -/
  | clear (c : BCtl) (id : BitVec 6)
  /-- ADD (R255). Scalar add modulo 2^32. -/
  | add (c : BCtl) (rd rs1 rs2 : SReg)
  /-- SUB (R255). Scalar subtract modulo 2^32. -/
  | sub (c : BCtl) (rd rs1 rs2 : SReg)
  /-- AND (R255). Scalar bitwise AND. -/
  | and (c : BCtl) (rd rs1 rs2 : SReg)
  /-- OR (R255). Scalar bitwise OR. -/
  | or (c : BCtl) (rd rs1 rs2 : SReg)
  /-- XOR (R255). Scalar bitwise XOR. -/
  | xor (c : BCtl) (rd rs1 rs2 : SReg)
  /-- SLL (R255). Scalar shift left by rs2[4:0]. -/
  | sll (c : BCtl) (rd rs1 rs2 : SReg)
  /-- SRL (R255). Scalar logical shift right. -/
  | srl (c : BCtl) (rd rs1 rs2 : SReg)
  /-- SRA (R255). Scalar arithmetic shift right. -/
  | sra (c : BCtl) (rd rs1 rs2 : SReg)
  /-- SLT (R255). Scalar signed set-less-than. -/
  | slt (c : BCtl) (rd rs1 rs2 : SReg)
  /-- SLTU (R255). Scalar unsigned set-less-than. -/
  | sltu (c : BCtl) (rd rs1 rs2 : SReg)
  /-- MUL (R255). Low 32 bits of a scalar product. -/
  | mul (c : BCtl) (rd rs1 rs2 : SReg)
  /-- RDCYC (R259). Reads the low 32 bits of the brick's cycle count. -/
  | rdcyc (c : BCtl) (rd : SReg)
  /-- AFR (R225). Copies 32 absent flags of a bank into a scalar register. -/
  | afr (c : BCtl) (rd : SReg) (bank : Fin 8) (w : Fin 4)
  /-- ADDI (R255). Scalar add immediate. -/
  | addi (c : BCtl) (rd rs1 : SReg) (imm : BitVec 12)
  /-- ANDI (R255). Scalar AND with a zero-extended immediate. -/
  | andi (c : BCtl) (rd rs1 : SReg) (imm : BitVec 12)
  /-- ORI (R255). Scalar OR with a zero-extended immediate. -/
  | ori (c : BCtl) (rd rs1 : SReg) (imm : BitVec 12)
  /-- XORI (R255). Scalar XOR with a zero-extended immediate. -/
  | xori (c : BCtl) (rd rs1 : SReg) (imm : BitVec 12)
  /-- SLLI (R255). Scalar shift left immediate. -/
  | slli (c : BCtl) (rd rs1 : SReg) (imm : BitVec 12)
  /-- SRLI (R255). Scalar logical shift right immediate. -/
  | srli (c : BCtl) (rd rs1 : SReg) (imm : BitVec 12)
  /-- SRAI (R255). Scalar arithmetic shift right immediate. -/
  | srai (c : BCtl) (rd rs1 : SReg) (imm : BitVec 12)
  /-- SLTI (R255). Scalar signed set-less-than immediate. -/
  | slti (c : BCtl) (rd rs1 : SReg) (imm : BitVec 12)
  /-- LHI (R255). Loads imm17 << 15 into rd. -/
  | lhi (c : BCtl) (rd : SReg) (imm : BitVec 17)
  /-- LLO (R255). Sets rd[14:0] to imm15. -/
  | llo (c : BCtl) (rd : SReg) (imm : BitVec 15)
  /-- LDB (R256). Loads a sign-extended DMEM byte. -/
  | ldb (c : BCtl) (rd rs1 : SReg) (win : Fin 4) (imm : BitVec 10)
  /-- LDBU (R256). Loads a zero-extended DMEM byte. -/
  | ldbu (c : BCtl) (rd rs1 : SReg) (win : Fin 4) (imm : BitVec 10)
  /-- LDH (R256). Loads a sign-extended DMEM halfword. -/
  | ldh (c : BCtl) (rd rs1 : SReg) (win : Fin 4) (imm : BitVec 10)
  /-- LDHU (R256). Loads a zero-extended DMEM halfword. -/
  | ldhu (c : BCtl) (rd rs1 : SReg) (win : Fin 4) (imm : BitVec 10)
  /-- LDW (R256). Loads a DMEM word. -/
  | ldw (c : BCtl) (rd rs1 : SReg) (win : Fin 4) (imm : BitVec 10)
  /-- SCALAR_LOAD_RESULT (R256). A scalar DMEM load writes rd at issue + 3 and raises its signal. -/
  | scalarLoadResult (brick : Brick)
  /-- STB (R256). Stores a byte to DMEM. -/
  | stb (c : BCtl) (rs2 rs1 : SReg) (win : Fin 4) (imm : BitVec 10)
  /-- STH (R256). Stores a halfword to DMEM. -/
  | sth (c : BCtl) (rs2 rs1 : SReg) (win : Fin 4) (imm : BitVec 10)
  /-- STW (R256). Stores a word to DMEM. -/
  | stw (c : BCtl) (rs2 rs1 : SReg) (win : Fin 4) (imm : BitVec 10)
  /-- BEQ (R257). Branches if equal. -/
  | beq (c : BCtl) (rs1 rs2 : SReg) (off : BitVec 12)
  /-- BNE (R257). Branches if not equal. -/
  | bne (c : BCtl) (rs1 rs2 : SReg) (off : BitVec 12)
  /-- BLT (R257). Branches if less than, signed. -/
  | blt (c : BCtl) (rs1 rs2 : SReg) (off : BitVec 12)
  /-- BGE (R257). Branches if greater or equal, signed. -/
  | bge (c : BCtl) (rs1 rs2 : SReg) (off : BitVec 12)
  /-- BLTU (R257). Branches if less than, unsigned. -/
  | bltu (c : BCtl) (rs1 rs2 : SReg) (off : BitVec 12)
  /-- BGEU (R257). Branches if greater or equal, unsigned. -/
  | bgeu (c : BCtl) (rs1 rs2 : SReg) (off : BitVec 12)
  /-- JAL (R257). Jumps to a target and links pc + 1 into rd. -/
  | jal (c : BCtl) (rd : SReg) (target : BitVec 13)
  /-- JR (R255). Jumps to rs1[12:0]. -/
  | jr (c : BCtl) (rs1 : SReg)
  /-- PRD (R258). Reads half of a patched parameter register into rd. -/
  | prd (c : BCtl) (rd : SReg) (win : Fin 4) (n : Fin 16) (half : Bool)
  /-- DWR (R258). Writes half of a stream descriptor word. -/
  | dwr (c : BCtl) (rs : SReg) (d : Fin 16) (word : Fin 4) (half : Bool)
  /-- DRD (R258). Reads half of a descriptor word as last written. -/
  | drd (c : BCtl) (rd : SReg) (d : Fin 16) (word : Fin 4) (half : Bool)
  /-- RFE (R238). Returns from an exception by restoring the frame at sp. -/
  | rfe (c : BCtl)
  /-- TMR (R259). Sets the scalar timer. -/
  | tmr (c : BCtl) (rs1 : SReg)
  /-- IE (R255). Sets the exception enable. -/
  | ie (c : BCtl) (value : Bool)
  /-- TRAP (R235). Takes a synchronous TRAP exception. -/
  | trap (c : BCtl) (imm : BitVec 12)
  /-- HALT (R240). Halts the brick with reason 0x0F. -/
  | halt (c : BCtl) (imm : BitVec 12)
  /-- TIMER (R259). The scalar timer passes from 1 to 0, raising the TIMER cause. -/
  | timerExpire (brick : Brick)
  /-- DOORBELL (R234). A warden or loader message for the brick arrives over VC0, raising the DOORBELL cause. -/
  | doorbell (brick : Brick) (message : BitVec 32)
  /-- VADD (R260). Lane-wise FP32 add. -/
  | vadd (c : BCtl) (vd va vb : VReg)
  /-- VSUB (R260). Lane-wise FP32 subtract. -/
  | vsub (c : BCtl) (vd va vb : VReg)
  /-- VMUL (R260). Lane-wise FP32 multiply. -/
  | vmul (c : BCtl) (vd va vb : VReg)
  /-- VMIN (R260). Lane-wise minimum. -/
  | vmin (c : BCtl) (vd va vb : VReg)
  /-- VMAX (R260). Lane-wise maximum. -/
  | vmax (c : BCtl) (vd va vb : VReg)
  /-- VABS (R260). Lane-wise absolute value, as a move. -/
  | vabs (c : BCtl) (vd va : VReg)
  /-- VNEG (R260). Lane-wise negation, as a move. -/
  | vneg (c : BCtl) (vd va : VReg)
  /-- VMOV (R260). Bit-for-bit vector copy. -/
  | vmov (c : BCtl) (vd va : VReg)
  /-- VBCS (R260). Broadcasts a scalar register's bits to every lane. -/
  | vbcs (c : BCtl) (vd : VReg) (rs : SReg)
  /-- VLUT (R224). Applies an activation lookup table lane by lane. -/
  | vlut (c : BCtl) (vd va : VReg) (table : Fin 4) (win : Fin 4)
  /-- VACC (R225). Copies one accumulator row into a vector register. -/
  | vacc (c : BCtl) (vd : VReg) (bank : Fin 8) (row : Fin 128)
  /-- VLD (R262). Loads 512 bytes of BMEM into a vector register. -/
  | vld (c : BCtl) (vd : VReg) (win : Fin 4) (rs : SReg)
  /-- VPUT (R262). Writes a vector register to the staging area. -/
  | vput (c : BCtl) (va : VReg) (unit : BitVec 11)
  /-- VRSUM (R261). Sums 128 lanes in ascending order into lane 0. -/
  | vrsum (c : BCtl) (vd va : VReg)
  /-- VRMAX (R261). Takes the maximum of 128 lanes into lane 0. -/
  | vrmax (c : BCtl) (vd va : VReg)
  /-- VECTOR_RESULT_WRITE (R223). A vector result lands in its destination at issue + 4 and its signal is raised. -/
  | vectorResultWrite (brick : Brick)
  /-- QNT (R264). Quantises one pallet row into codes, with outlier codes and statistics. -/
  | qnt (c : BCtl) (va : VReg) (qd : Fin 32) (unit : BitVec 11) (row : Fin 128) (nanMode : Bool) (win : Fin 4)
  /-- QUANTISE_DONE (R226). Quantised codes and the statistics update land at issue + 6 and the signal is raised. -/
  | quantiseDone (brick : Brick)
  /-- QSCAN (R265). Updates the outlier maxima from a row and, when final, writes the exponents. -/
  | qscan (c : BCtl) (va : VReg) (qd : Fin 32) (unit : BitVec 11) (row : Fin 128) (final : Bool) (win : Fin 4)
  /-- MATMUL (R183). Issues a whole-layout pass of a pallet through the array, after the shape and scale checks. -/
  | matmul (c : BCtl) (m : MatmulArgs)
  /-- MATMUL_Q (R193). Issues a quartered pass through one quadrant. -/
  | matmulQ (c : BCtl) (m : MatmulQArgs)
  /-- WFILL (R180). Starts a shadow fill of weights and scales behind the swap wavefront. -/
  | wfill (c : BCtl) (dw ds : Fin 16) (quartered : Bool) (quadrant : Fin 4) (kdbl : Bool)
  /-- PASS_COMPLETE (R219). A pass's last results are written to its bank and its signal is raised. -/
  | passComplete (brick : Brick) (check : PassCheck)
  /-- WFILL_COMPLETE (R219). A shadow fill completes its last cell write and raises its signal. -/
  | wfillComplete (brick : Brick)
  /-- LOAD_START (R228). A load-slot START copies a descriptor and runs or arms a load stream. -/
  | loadStart (c : BCtl) (d : Fin 16) (rsSrc rsDst : SReg)
  /-- STORE_START (R228). A store-slot START copies a descriptor and runs a store stream. -/
  | storeStart (c : BCtl) (d : Fin 16) (rsSrc rsDst : SReg)
  /-- STREAM_CHUNK_DONE (R219). A stream chunk is written or acknowledged at its destination, its signal is raised, and a freeze may end. -/
  | streamChunkDone (brick : Brick) (d : Fin 16)
  /-- RING_CHUNK_ARRIVE (R287). A ring chunk arrives at a brick and is written to a running receive, or is discarded and sets lost. -/
  | ringChunkArrive (brick : Brick)
  /-- WATCHDOG (R244). A brick issues nothing for limit_us, and the rubble snapshot is taken before the brick halts with 0x0A. -/
  | watchdog (brick : Brick)
  /-- DUMP_WRITTEN (R527). The rubble dump is written to its slot and the shadows are released. -/
  | dumpWritten (slot : Fin 4)
  /-- BRICK_RESET (R246). The warden resets a fenced brick to its reset state. -/
  | brickReset (brick : Brick)
  /-- HALT_REQUEST (R240). The warden requests a brick halt with reason 0x0E. -/
  | haltRequest (brick : Brick) (code : BitVec 32)
  /-- MEMORY_REQUEST (R305). A VC4 request reaches its home S-die, is checked against the grants, and is served in line order. -/
  | memoryRequest (sdie : Die) (req : MemRequest) (ecc : EccOutcome)
  /-- MEMORY_RESPONSE (R307). A VC5 response returns to the requesting engine. -/
  | memoryResponse (sdie : Die)
  /-- LINE_REWRITE (R315). The loader rewrites a failed model-store line from the encrypted image. -/
  | lineRewrite (sdie : Die) (addr : Nat)
  /-- TOKEN_ARRIVE (R330). A token reaches its home S-die, is checked, and is queued, advanced into a pallet or discarded. -/
  | tokenArrive (sdie : Die) (damaged : Bool)
  /-- CONTEXT_FETCHED (R329). A context fetched from the cold tier lands in the hot tier, with an eviction write-back. -/
  | contextFetched (sdie : Die) (ctx : Nat) (ecc : EccOutcome)
  /-- SEQ_FILL_TIMEOUT (R331). A sequence pallet's fill timeout expires, and the pallet is sent padded with grout. -/
  | seqFillTimeout (sdie : Die) (part : Part)
  /-- SEQ_PALLET_RESULT (R334). Sequence pallet results return, producing verdicts, advisories, state write-backs and rollout rows. -/
  | seqPalletResult (sdie : Die) (pallet : Nat)
  /-- CONTEXT_WRITEBACK (R328). A state write-back is acknowledged and the context returns to IDLE, or is freed if it is marked lost. -/
  | contextWriteback (sdie : Die) (ctx : Nat)
  /-- CONTEXT_SWEEP (R329). The context sweeper visits a context, frees it by age, and applies SILENT. -/
  | contextSweep (sdie : Die)
  /-- PREPARE (R355). A PREPARE command starts a model load, after the role, busy and partition checks. -/
  | loadPrepare (path : Path) (part : Part)
  /-- IMAGE_FETCHED (R355). The model image arrives in staging and verification begins. -/
  | imageFetched (part : Part) (image : ModelImage)
  /-- VERIFY_COMPLETE (R355). Header, key, signature, envelope, variant, tags and contents pass or fail. -/
  | verifyComplete (part : Part)
  /-- TRANSLATION_COMPLETE (R281). Translation and placement complete, the report is written, and the load becomes PREPARED. -/
  | translationComplete (part : Part) (plan : TranslationPlan)
  /-- COMMIT (R364). A COMMIT command starts the commit sequence of a PREPARED load. -/
  | loadCommit (path : Path) (part : Part)
  /-- LOAD_ABORT (R355). An ABORT command discards a PREPARED load. -/
  | loadAbort (path : Path) (part : Part)
  /-- UNLOAD (R367). An UNLOAD command commits model epoch 0. -/
  | loadUnload (path : Path) (part : Part)
  /-- PARAM (R370). A PARAM command fetches and checks a parameter and offset block for the ACTIVE epoch. -/
  | paramCommit (path : Path) (part : Part) (block : ParamBlock)
  /-- PARAM_TP (R370). At T_p open pallets close and the new parameters and offsets take effect. -/
  | paramTp (part : Part)
  /-- MODEL_TC (R364). At T_c the new model epoch becomes ACTIVE and the previous one DRAINING. -/
  | modelTc (part : Part)
  /-- FORCED_RETIREMENT (R366). An epoch still DRAINING 2 ms after T_c is retired and its pinned slices are answered. -/
  | forcedRetirement (part : Part)
  /-- EPOCH_FREED (R364). A retired epoch's pages are zeroed, its words freed and its grants withdrawn. -/
  | epochFreed (part : Part)
  /-- GAP_PAGES_WRITTEN (R361). The remaining pages of a gap_ok epoch are written after retirement and its target becomes available. -/
  | gapPagesWritten (part : Part)
  /-- DRIFT_WINDOW_END (R158). A drift-watch window ends, the sets are evaluated and the hold count and state are updated. -/
  | driftWindowEnd (part : Part)
  /-- DRIFT_CTL_WRITE (R160). A write of PRT_DRIFT_CTL changes the drift-watch state. -/
  | driftCtlWrite (path : Path) (part : Part) (value : Word)
  /-- RETEMPER_START (R162). The operator's start command requests a re-tempering attempt. -/
  | retemperStart (path : Path) (part : Part)
  /-- REVERT (R168). The revert command commits the parent codes and sets hold. -/
  | retemperRevert (path : Path) (part : Part)
  /-- RELEASE (R168). The release command clears the hold bit. -/
  | retemperRelease (path : Path) (part : Part)
  /-- CAPTURE_TIMEOUT (R160). capture_time expires, ending the capture with OPTIMISING or CAPTURE_SHORT. -/
  | captureTimeout (part : Part)
  /-- OPTIMISATION_START (R165). A standby brick becomes free and the optimisation runs. -/
  | optimisationStart (part : Part) (brick : Brick)
  /-- OPTIMISATION_COMPLETE (R166). Optimisation ends and acceptance commits a new epoch or gives NO_GAIN. -/
  | optimisationComplete (part : Part)
  /-- RETEMPER_TIMEOUT (R160). time_limit expires and the attempt ends with TIMEOUT. -/
  | retemperTimeout (part : Part)
  /-- RETEMPER_LOOP_PINNED (R163). A clamped code's epoch is still active 1 ms after its commit, so LOOP_PINNED is raised. -/
  | retemperLoopPinned (part : Part)
  /-- QSTAT_SNAP (R172). A write of snap requests a statistics snapshot. -/
  | qstatSnap (brick : Brick)
  /-- QSTAT_SNAPSHOT_TAKEN (R172). The statistics slots are copied at the next pallet boundary. -/
  | qstatSnapshotTaken (brick : Brick)
  /-- PERF_SNAP (R532). A write of snap copies the brick's cycle counters. -/
  | perfSnap (brick : Brick)
  /-- STAGE (R378). The STAGE command reads a structure image and starts its checks. -/
  | structStage (path : Path) (image : StructImage)
  /-- STRUCT_CHECK_COMPLETE (R378). Structure image checks complete, giving STAGED or a refusal. -/
  | structCheckComplete 
  /-- APPLY (R379). The APPLY command compares sections and starts the D steps. -/
  | structApply (path : Path)
  /-- STRUCT_ABORT (R378). The ABORT command discards a STAGED structure image. -/
  | structAbort (path : Path)
  /-- D_STEP_COMPLETE (R381). One unit finishes its D reconfiguration, and the next starts or T_c is chosen. -/
  | dStepComplete 
  /-- STRUCT_TC (R382). At T_c a new structure epoch begins and the A sections become current. -/
  | structTc 
  /-- PAUSE_START (R58). At the pause T0 the L-dies stop releasing slices and returning credits. -/
  | pauseStart 
  /-- BANK_FLIP (R59). The drain completes and the graph or flow banks flip on every P-die. -/
  | bankFlip 
  /-- PAUSE_ABANDONED (R59). The drain is not complete by T0 + 800 ns, so release resumes without a flip. -/
  | pauseAbandoned 
  /-- PAUSE_RELEASE (R58). Release and credit return resume, and this is T_c. -/
  | pauseRelease 
  /-- STRUCT_FORCED_RETIREMENT (R384). A structure epoch still DRAINING 2 ms after T_c is retired. -/
  | structForcedRetirement 
  /-- BOUND_COMMIT (R391). A write of WDN_BOUND_HI commits the operator bounds, or sets bad_write. -/
  | boundCommit (path : Path) (lo hi : Word)
  /-- LOOP_PINNED (R392). A loop has been clamped at a bound for 1 ms. -/
  | loopPinned (loop : Fin 64) (part : Part)
  /-- LOOP_FREE (R392). A pinned loop has gone 1 ms without clamping. -/
  | loopFree (loop : Fin 64) (part : Part)
  /-- SAFETY_OVERRIDE (R393). A safety condition starts its override action. -/
  | safetyOverride (kind : Fin 8) (unit : Nat)
  /-- SAFETY_CLEAR (R393). A safety condition clears past its hysteresis, and the loops return within their bounds. -/
  | safetyClear (kind : Fin 8) (unit : Nat)
  /-- ISLAND_CLOCK_SAMPLE (R491). The island clock loop samples its droops and moves the clock. -/
  | islandClockSample (course : Course)
  /-- DROOP_DETECT (R491). A detected droop stretches the island's next clock period. -/
  | droopDetect (course : Course)
  /-- GOVERNOR_SAMPLE (R492). The power governor measures VPRI and moves the clock ceiling. -/
  | governorSample (vpriMv : Nat) (ipri10ma : Nat)
  /-- RESET_REQUEST (R438). A write of PRT_RESET.request starts a partition reset. -/
  | resetRequest (path : Path) (part : Part)
  /-- FLR (R438). An FLR of a function starts its partition's reset. -/
  | flr (fn : Nat)
  /-- VF_DISABLE (R438). VF Enable cleared or NumVFs lowered resets the affected partitions. -/
  | vfDisable (num : Nat)
  /-- RESET_DRAIN_COMPLETE (R439). In-flight pallets finish or are aborted, then interrupts are cleared and step 4 starts. -/
  | resetDrainComplete (part : Part)
  /-- RESET_RELEASE (R439). Step 4 completes and step 5 lifts the fence and writes RESET_DONE. -/
  | resetRelease (part : Part)
  /-- RING_DOORBELL (R432). A doorbell write gives a new cons, or is ignored and sets bad_doorbell. -/
  | ringDoorbell (part : Part) (ring : Fin 8) (cons : Word)
  /-- RING_ENABLE (R432). A write of enable = 1 resets prod and cons of the ring. -/
  | ringEnable (part : Part) (ring : Fin 8) (value : Word)
  /-- MODERATION_DELAY (R435). A ring's oldest unsignalled entry reaches d_r, so the ring asks. -/
  | moderationDelay (part : Part) (ring : Fin 8)
  /-- VECTOR_GAP_EXPIRE (R435). The vector's min_gap elapses and a held message is sent. -/
  | vectorGapExpire (part : Part) (vec : Fin 8)
  /-- MSIX_UNMASK (R435). Unmasking a vector with its pending bit set sends the message, subject to the gap. -/
  | msixUnmask (part : Part) (vec : Fin 8)
  /-- FUNCTION_POWER_STATE (R426). D3hot or a Bus Master Enable change stops or resumes requests for the function. -/
  | functionPowerState (fn : Nat) (d3hot : Bool) (busMaster : Bool)
  /-- PERST (R551). PERST_N acts as an FLR of the PF and resets every partition. -/
  | perstAssert 
  /-- PORST (R550). PORST_N stops the kiln or starts the hold-up sequence. -/
  | porstPulse (lowNs : Nat) (makerEn : Bool) (smbAddr : Fin 4)
  /-- SAG (R493). SAG_N or VPRI below 10.0 V for 2 µs starts the hold-up sequence. -/
  | sagPin (cause : SagCause)
  /-- SHUTDOWN (R493). The shutdown command starts the hold-up sequence. -/
  | shutdown (path : Path)
  /-- CRITICAL_RECORD_WRITTEN (R494). The critical record is written, verified and marked newest, and the W-dies power off. -/
  | criticalRecordWritten (ok : Bool)
  /-- KILN_START (R482). VPRI in range and PORST_N released start kiln phase K0. -/
  | kilnStart 
  /-- KILN_PHASE_COMPLETE (R482). A kiln phase completes, and the next starts or READY is raised. -/
  | kilnPhaseComplete (outcome : KilnOutcome)
  /-- KILN_RESTART (R496). After a hold-up VPRI has been in range for 100 ms and the kiln starts again. -/
  | kilnRestart 
  /-- HOLDUP_MEASURE (R499). The periodic capacitance and ESR measurement may clear armed. -/
  | holdupMeasure (cap10uf esrMohm vholdMv : Nat)
  /-- FW_UPDATE (R507). A maker-signed firmware image is written through PLDM. -/
  | fwUpdate (path : Path) (sizeOk signedOk : Bool) (version : Nat)
  /-- FW_ACTIVATE (R488). Activation runs K1 and K6 on the running device. -/
  | fwActivate (path : Path)
  /-- OPEN (R504). OPEN on a slot returns a fresh nonce. -/
  | openSession (path : Path) (slot : BitVec 8) (nonce : BitVec 384)
  /-- VERIFY (R504). VERIFY checks the signature and opens the session, or counts a failure. -/
  | verifySession (path : Path) (sig : BitVec 768)
  /-- CLOSE (R505). CLOSE ends the path's session. -/
  | closeSession (path : Path)
  /-- SESSION_TIMEOUT (R505). A session ends after 600 s without a command. -/
  | sessionTimeout (path : Path)
  /-- SLOT_UNLOCK (R505). A locked slot unlocks after 60 s. -/
  | slotUnlock (slot : Fin 11)
  /-- ENROL (R502). A key block is enrolled in a slot. -/
  | enrol (path : Path) (block : KeyBlock)
  /-- REMOVE (R503). A key is removed from a slot, ending its sessions. -/
  | remove (path : Path) (block : KeyBlock)
  /-- CLAIM (R502). An unclaimed device accepts an installer key with a claim certificate. -/
  | claim (path : Path) (block : KeyBlock)
  /-- AUDIT_CHECKPOINT (R513). Returns the head seq and chain value signed with the attestation key. -/
  | auditCheckpoint (path : Path)
  /-- AUDIT_FLUSH (R513). Audit tail records move to the MRAM ring. -/
  | auditFlush 
  /-- COUNTER_CLEAR (R507). Counter clear and histogram reset over MCTP. -/
  | counterClear (path : Path) (which : Nat)
  /-- REPAIR_REQUEST (R507). The installer requests a retest or retirement of a unit. -/
  | repairRequest (path : Path) (unit : Nat) (retire : Bool)
  /-- REPAIR_OVERRIDE (R203). The maker overrides the repair map. -/
  | repairOverride (path : Path) (unit : Nat) (retire : Bool)
  /-- CALIB_WRITE (R507). The maker writes calibration tables. -/
  | calibWrite (path : Path) (index : Nat) (value : Word)
  /-- GET_VERSION (R510). SPDM GET_VERSION request. -/
  | spdmGetVersion (path : Path)
  /-- GET_CAPABILITIES (R510). SPDM GET_CAPABILITIES request. -/
  | spdmGetCapabilities (path : Path)
  /-- NEGOTIATE_ALGORITHMS (R510). SPDM NEGOTIATE_ALGORITHMS request. -/
  | spdmNegotiateAlgorithms (path : Path)
  /-- GET_DIGESTS (R510). SPDM GET_DIGESTS request. -/
  | spdmGetDigests (path : Path)
  /-- GET_CERTIFICATE (R510). SPDM GET_CERTIFICATE request. -/
  | spdmGetCertificate (path : Path)
  /-- CHALLENGE (R510). SPDM CHALLENGE request. -/
  | spdmChallenge (path : Path)
  /-- GET_MEASUREMENTS (R510). SPDM GET_MEASUREMENTS returns the measurement blocks. -/
  | spdmGetMeasurements (path : Path)
  /-- BYPASS (R509). IEEE 1149.1 BYPASS instruction. -/
  | jtagBypass 
  /-- IDCODE (R509). IEEE 1149.1 IDCODE instruction. -/
  | jtagIdcode 
  /-- SAMPLE_PRELOAD (R509). IEEE 1149.1 SAMPLE/PRELOAD instruction. -/
  | jtagSamplePreload 
  /-- EXTEST (R509). EXTEST drives the balls and stops the data path until PORST_N. -/
  | jtagExtest 
  /-- JTAG_PRIVATE (R509). A private JTAG instruction reaches the debug windows under MAKER_EN and a maker session. -/
  | jtagPrivate (code : Nat)
  /-- TSYNC_EDGE (R516). A TSYNC_IN edge measures the error, slews the counter and applies a pending step. -/
  | tsyncEdge 
  /-- TSYNC_TIMEOUT (R516). 2 s without an edge unlocks the counter. -/
  | tsyncTimeout 
  /-- TSYNC_OUT_PULSE (R516). A pulse is emitted at each whole second of the counter. -/
  | tsyncOutPulse 
  /-- WALL_STEP (R517). Setting step arms a counter step at the next TSYNC_IN edge. -/
  | wallStep (path : Path)
  /-- HIST_CLEAR (R522). A write of clear clears the selected histogram. -/
  | histClear (path : Path) (part : Part)
  /-- OCCUPANCY_SAMPLE (R523). The queues are sampled every 1,024 ns into the occupancy histograms. -/
  | occupancySample 
  /-- TRACE_DROP (R524). A trace record that waits more than 1 µs on VC6 is discarded. -/
  | traceDrop (unit : Nat)
  /-- RUBBLE_RELEASE (R529). A write of release frees a rubble slot. -/
  | rubbleRelease (path : Path) (slot : Fin 4)
  /-- RUBBLE_EXPORT (R531). A read of the staging window exports a dump, and the first read is audited. -/
  | rubbleExport (path : Path) (slot : Fin 4)
  /-- RCLR_READ (R538). A read of an RCLR field returns it and clears it. -/
  | rclrRead (fn : Fn) (offset : Nat) (size : AccessSize)
  /-- REGISTER_WRITE (R10). A write to a register without a row of its own applies its access codes, split-write and bad_access rules. -/
  | registerWrite (fn : Fn) (offset : Nat) (size : AccessSize) (value : DWord)
  /-- ERROR_DETECT (R449). A detector reports an error, which is retried and classed as transient or lasting. -/
  | errorDetect (e : DetectedError)
  /-- HALT_REPORT (R450). A brick halt reaches the warden and is classified, leading to reset or pointing. -/
  | haltReport (brick : Brick)
  /-- LEASE_EXPIRE (R472). An unrenewed lease expires, returns its credit or lock, and is reported as detector 7. -/
  | leaseExpire (id : Nat)
  /-- HEARTBEAT_EXPIRE (R471). A die misses its heartbeat lease. -/
  | heartbeatExpire (die : Nat)
  /-- WARDEN_TAKEOVER (R469). The standby warden takes over after missed heartbeats or a fault report. -/
  | wardenTakeover 
  /-- RETEST_COMPLETE (R476). A retest after a disagreement returns the unit to service or makes the fault lasting. -/
  | retestComplete (unit : Nat) (pass : Bool)
  /-- REPLACEMENT_COMPLETE (R460). A stage is re-placed on a standby group and returns to service. -/
  | replacementComplete (part : Part) (ok : Bool)
  /-- RETRANSLATION_COMPLETE (R291). The course is translated again after narrowing and switched at a common REPLAY. -/
  | retranslationComplete (course : Course)
  /-- REHOME_COMPLETE (R462). A spare C-die takes the logical course and returns it to service. -/
  | rehomeComplete (cdie : Cdie) (ok : Bool)
  /-- MACRO_SPARE_READY (R464). A spare tree-store macro is written and swapped in. -/
  | macroSpareReady (p : Die)
  /-- BANK_SPARE_READY (R465). A zeroed spare F-die bank replaces a faulty bank. -/
  | bankSpareReady (f : FDie)
  /-- ROW_SPARED (R467). An HBM row is repaired from the repair reserve. -/
  | rowSpared (sdie : Die) (addr : Nat)
  /-- MORTAR_LANE_REPAIR (R468). A mortar module repairs a lane and resumes its credits. -/
  | mortarLaneRepair (link : Nat)
  /-- RING_WRITE_FAIL (R425). A ring write DMA that completes with an error is reported through AER and clears the ring's enable bit. -/
  | ringWriteFail (part : Part) (ring : Fin 8)
  /-- TREE_WORD_REWRITE (R116). The warden finishes rewriting a tree-store word that failed both reads, taking it from the loader's copy within 1 ms. -/
  | treeWordRewrite (p : Die)
  /-- VHOLD_LOW (R499). VHOLD stays below 10.0 V for 1 ms while VPRI is in range, so the warden clears armed and asserts INT_N. -/
  | vholdLow (mv : Nat)
  /-- VF_ENABLE (R423). VF Enable set or NumVFs raised brings a defined partition's function into existence and so enables the partition. -/
  | vfEnable (num : Nat)
  /-- PERST_RELEASE (R551). Release of PERST_N makes the PCIe link train again. -/
  | perstRelease 
  /-- VAUX_OUT_OF_RANGE (R549). VAUX leaves its range and the device holds itself in reset, whatever PORST_N does. -/
  | vauxOutOfRange
  deriving DecidableEq, Repr

end Sys2Proof
end

