-- ==== Sys2Proof/WellFormed.lean ====
section
/-!
DEFINITION. The commands that a sender can form: the operands whose type is wider than the specification allows are in range.
-/

namespace Sys2Proof

/-- A flit is 256 bytes (R400). -/
def wfFlit (flit : List Byte) : Bool := flit.length == 256

/-- A unit is a kind of 0 to 13 and a 32-bit unit field (R478). -/
def wfUnit (unit : Nat) : Bool := decide (unit < 14 * 2 ^ 32)

/-- A key block names a slot and holds a 97-byte point and at most 63 bytes of padding (R501, R514). -/
def wfKeyBlock (b : KeyBlock) : Bool :=
  decide (b.slot < 16 + 4 * 1024) && b.point.length == 97 && decide (b.padding.length ≤ 63)

/-- A function number (R423). -/
def wfFn (fn : Nat) : Bool := decide (fn < 1024)

/-- A command whose operands a sender can form. -/
def Instr.wf (i : Instr) : Bool :=
  match i with
  | .idleFlit _ f => wfFlit f
  | .initFlit _ f => wfFlit f
  | .sliceFlit _ f => wfFlit f
  | .wallData _ f => wfFlit f
  | .wallResult _ f => wfFlit f
  | .wallCtl _ f => wfFlit f
  | .repairRequest _ unit _ => wfUnit unit
  | .repairOverride _ unit _ => wfUnit unit
  | .retestComplete unit _ => wfUnit unit
  | .enrol _ b => wfKeyBlock b
  | .remove _ b => wfKeyBlock b
  | .claim _ b => wfKeyBlock b
  | .flr fn => wfFn fn
  | .functionPowerState fn _ _ => wfFn fn
  | .vfEnable num => wfFn num
  | .paramCommit _ _ b => decide (b.offsets.length ≤ 32) && decide (b.vals.length ≤ 8)
  | .laneErrorWindow _ _ errors => decide (errors < 2 ^ 32)
  | _ => true

end Sys2Proof
end

