-- ==== Sys2Proof/Config.lean ====
section
/-!
DEFINITION. What the specification leaves open: opaque constants, of which no proof can know a value.
-/

namespace Sys2Proof.Config

open Sys2Proof

/-- The 64-bit value that the machine leaves open at its n-th use of a free value (log 3). -/
opaque freeWord : Nat → DWord

/-- Whether an ECDSA P-384 signature verifies: public key, message digest, signature (log 12). -/
opaque ecdsaVerifies : BitVec 776 → BitVec 384 → BitVec 768 → Bool

/-- The HBM channel of a local DRAM address: the specification does not give the interleave (log 29). -/
opaque channelOf : Nat → Fin 32

/-- The JTAG identification code: fused, and not given by the specification (log 43). -/
opaque idcode : Word

end Sys2Proof.Config
end

