-- ==== Sys2Proof/Machine/Maps.lean ====
section
/-!
DEFINITION. Sparse tables (lists of key and value in rising order of the keys) and byte memories in canonical form.
-/

namespace Sys2Proof.Machine

open Sys2Proof

/-- A sparse table: pairs of key and value. -/
abbrev Map (α : Type) := List (Nat × α)

/-- The value of a key, if the table lists it. -/
def mapFind {α : Type} (k : Nat) : Map α → Option α
  | [] => none
  | (k', v) :: t => if k' = k then some v else mapFind k t

/-- The value of a key, or a default. -/
def mapGet {α : Type} (d : α) (m : Map α) (k : Nat) : α := (mapFind k m).getD d

/-- The table with a key set: the entry is replaced, or put before the first greater key. -/
def mapSet {α : Type} (k : Nat) (v : α) : Map α → Map α
  | [] => [(k, v)]
  | (k', v') :: t =>
    if k' = k then (k, v) :: t else if k < k' then (k, v) :: (k', v') :: t else (k', v') :: mapSet k v t

/-- The table without a key. -/
def mapDel {α : Type} (k : Nat) (m : Map α) : Map α := m.filter (fun p => p.1 != k)

/-- Apply a function to one entry, taking a default where the table lists none. -/
def mapMod {α : Type} (d : α) (k : Nat) (f : α → α) (m : Map α) : Map α := mapSet k (f (mapGet d m k)) m

/-- Apply a function to every value of a table. -/
def mapAll {α : Type} (f : α → α) (m : Map α) : Map α := m.map (fun p => (p.1, f p.2))

/-- One byte of a memory: an unlisted address reads 0 (kiln phase K3 leaves every memory zero, R485). -/
def memByte (m : List Host.Cell) (a : Nat) : Byte := mapGet 0 m a

/-- A memory with one byte written; writing 0 removes the entry, so that equal memories are equal lists. -/
def memPut (a : Nat) (v : Byte) (m : List Host.Cell) : List Host.Cell :=
  if v = 0 then mapDel a m else mapSet a v m

/-- A memory with consecutive bytes written, the first at the lowest address. -/
def memPutBytes (a : Nat) (bs : List Byte) (m : List Host.Cell) : List Host.Cell :=
  match bs with
  | [] => m
  | b :: t => memPutBytes (a + 1) t (memPut a b m)

/-- Consecutive bytes of a memory, from an address upwards. -/
def memBytes (m : List Host.Cell) (a n : Nat) : List Byte :=
  (List.range n).map (fun i => memByte m (a + i))

/-- A memory with a range of addresses read as zero. -/
def memZero (a n : Nat) (m : List Host.Cell) : List Host.Cell :=
  m.filter (fun p => !(decide (a ≤ p.1) && decide (p.1 < a + n)))

/-- The canonical form of a byte memory: addresses strictly rising, and no entry equal to what an unlisted address reads
as. -/
abbrev memWf (m : List Host.Cell) : Prop := m.Pairwise (fun a b => a.1 < b.1) ∧ ∀ p ∈ m, p.2 ≠ 0

/-- A little-endian number of some bytes. -/
def leNat : List Byte → Nat
  | [] => 0
  | b :: t => b.toNat + 256 * leNat t

/-- The lowest n bytes of a number, least significant first. -/
def leBytes (n v : Nat) : List Byte :=
  match n with
  | 0 => []
  | k + 1 => BitVec.ofNat 8 v :: leBytes k (v / 256)

/-- A big-endian number of some bytes. -/
def beNat (bs : List Byte) : Nat := leNat bs.reverse

/-- The lowest n bytes of a number, most significant first. -/
def beBytes (n v : Nat) : List Byte := (leBytes n v).reverse

/-- Bits [hi:lo] of a number. -/
def bits (hi lo v : Nat) : Nat := (v / 2 ^ lo) % 2 ^ (hi + 1 - lo)

/-- Bit i of a number. -/
def bit (i v : Nat) : Bool := v.testBit i

/-- A number saturated at a maximum. -/
def sat (mx v : Nat) : Nat := min mx v

/-- A truth value as a number. -/
def b2n (b : Bool) : Nat := if b then 1 else 0

/-- The number of a truth value's bit at a position. -/
def bitAt (i : Nat) (b : Bool) : Nat := b2n b * 2 ^ i

end Sys2Proof.Machine
end

