-- ==== Sys2Proof/Machine/Num.lean ====
section
/-!
DEFINITION. Exact arithmetic on dyadic numbers and the one rounding of the device, to nearest with ties away from zero
(R126, R127), with the element codes of R120 to R128.
-/

namespace Sys2Proof.Machine

open Sys2Proof

/-- A dyadic number m times 2 to the e. -/
structure Dyadic2 where
  m : Int
  e : Int
  deriving DecidableEq, Repr

/-- The number of bits of a natural number. -/
def bitLen (n : Nat) : Nat := if n = 0 then 0 else Nat.log2 n + 1

/-- An integer times a power of two, exact when the power is not negative. -/
def shl (m : Int) (k : Nat) : Int := m * (2 ^ k : Nat)

/-- The exact sum of two dyadic numbers. -/
def dyAdd (a b : Dyadic2) : Dyadic2 :=
  if a.e ≤ b.e then ⟨a.m + shl b.m (b.e - a.e).toNat, a.e⟩ else ⟨shl a.m (a.e - b.e).toNat + b.m, b.e⟩

/-- The exact product of two dyadic numbers. -/
def dyMul (a b : Dyadic2) : Dyadic2 := ⟨a.m * b.m, a.e + b.e⟩

/-- The exact negation of a dyadic number. -/
def dyNeg (a : Dyadic2) : Dyadic2 := ⟨-a.m, a.e⟩

/-- Whether a dyadic number is less than another. -/
def dyLt (a b : Dyadic2) : Bool := (dyAdd a (dyNeg b)).m < 0

/-- Whether a dyadic number is at most another. -/
def dyLe (a b : Dyadic2) : Bool := (dyAdd a (dyNeg b)).m ≤ 0

/-- An integer as a dyadic number. -/
def dyInt (i : Int) : Dyadic2 := ⟨i, 0⟩

/-- RNA of an exact quotient of integers: nearest integer, ties away from zero (R126). -/
def rnaDiv (n : Int) (d : Nat) : Int :=
  let q : Nat := (2 * n.natAbs + d) / (2 * d)
  if n < 0 then -(q : Int) else (q : Int)

/-- RNA of a dyadic number to an integer. -/
def rnaInt (a : Dyadic2) : Int :=
  if a.e ≥ 0 then shl a.m a.e.toNat else rnaDiv a.m (2 ^ (-a.e).toNat)

/-- RNA of the quotient of two dyadic numbers, the second positive. -/
def rnaQuot (a b : Dyadic2) : Int :=
  let k := a.e - b.e
  if k ≥ 0 then rnaDiv (shl a.m k.toNat) b.m.natAbs else rnaDiv a.m (b.m.natAbs * 2 ^ (-k).toNat)

/-- An integer clamped to a range. -/
def clampInt (lo hi v : Int) : Int := max lo (min hi v)

/-- A natural number clamped to a range (the lower bound first). -/
def clampNat (lo hi v : Nat) : Nat := max lo (min hi v)

/-- The ceiling of a quotient of natural numbers. -/
def ceilDiv (a b : Nat) : Nat := (a + b - 1) / b

/-! ### Floating point (R126, R127) -/

/-- The sticky conditions of BRK_NUM_STATUS that an FP operation raises (R126, R144). -/
structure NumFlags where
  flush : Bool := false
  overflow : Bool := false
  invalid : Bool := false
  deriving DecidableEq, Repr

/-- The union of two sets of conditions. -/
def NumFlags.or (a b : NumFlags) : NumFlags :=
  ⟨a.flush || b.flush, a.overflow || b.overflow, a.invalid || b.invalid⟩

/-- A floating-point format: significand bits, exponent bits. -/
structure FpFmt where
  p : Nat
  w : Nat
  deriving DecidableEq, Repr

/-- IEEE 754 binary32. -/
def fp32 : FpFmt := ⟨24, 8⟩
/-- IEEE 754 binary64. -/
def fp64 : FpFmt := ⟨53, 11⟩

/-- The exponent bias of a format. -/
def FpFmt.bias (f : FpFmt) : Nat := 2 ^ (f.w - 1) - 1

/-- A floating-point operand as read. -/
inductive FpVal where
  | nan
  | inf (neg : Bool)
  | zero (neg : Bool)
  | fin (v : Dyadic2)
  deriving DecidableEq, Repr

/-- The canonical NaN of a format. -/
def FpFmt.canonNan (f : FpFmt) : Nat := (2 ^ f.w - 1) * 2 ^ (f.p - 1) + 2 ^ (f.p - 2)

/-- Infinity of a sign. -/
def FpFmt.infBits (f : FpFmt) (neg : Bool) : Nat := b2n neg * 2 ^ (f.p + f.w - 1) + (2 ^ f.w - 1) * 2 ^ (f.p - 1)

/-- Zero of a sign. -/
def FpFmt.zeroBits (f : FpFmt) (neg : Bool) : Nat := b2n neg * 2 ^ (f.p + f.w - 1)

/-- Read an operand: a subnormal is read as zero of the same sign and flush is flagged (R126). -/
def fpRead (f : FpFmt) (x : Nat) : FpVal × NumFlags :=
  let frac := x % 2 ^ (f.p - 1)
  let ex := (x / 2 ^ (f.p - 1)) % 2 ^ f.w
  let neg := bit (f.p + f.w - 1) x
  if ex = 2 ^ f.w - 1 then (if frac = 0 then (.inf neg, {}) else (.nan, {}))
  else if ex = 0 then (.zero neg, { flush := frac != 0 })
  else
    let m : Nat := 2 ^ (f.p - 1) + frac
    (.fin ⟨if neg then -(m : Int) else (m : Int), (ex : Int) - (f.bias : Int) - ((f.p : Int) - 1)⟩, {})

/-- Round a magnitude to p significant bits, ties to the larger magnitude. -/
def roundSig (p m : Nat) (e : Int) : Nat × Int :=
  let l := bitLen m
  if l ≤ p then (m, e) else ((m + 2 ^ (l - p - 1)) / 2 ^ (l - p), e + ((l - p : Nat) : Int))

/-- Round an exact dyadic result: RNA, infinity with overflow, zero with flush (R126). A zero takes the sign given. -/
def fpRound (f : FpFmt) (zneg : Bool) (v : Dyadic2) : Nat × NumFlags :=
  if v.m = 0 then (f.zeroBits zneg, {})
  else
    let neg := decide (v.m < 0)
    let (r, x) := roundSig f.p v.m.natAbs v.e
    let l := bitLen r
    let ex : Int := (l : Int) - 1 + x
    if ex > (f.bias : Int) then (f.infBits neg, { overflow := true })
    else if ex < 1 - (f.bias : Int) then (f.zeroBits neg, { flush := true })
    else
      let sig := if l ≤ f.p then r * 2 ^ (f.p - l) else r / 2 ^ (l - f.p)
      (f.zeroBits neg + (ex + (f.bias : Int)).toNat * 2 ^ (f.p - 1) + sig % 2 ^ (f.p - 1), {})

/-- The canonical NaN with invalid flagged (R126). -/
def fpInvalid (f : FpFmt) : Nat × NumFlags := (f.canonNan, { invalid := true })

/-- Whether an operand as read is negative. -/
def FpVal.neg : FpVal → Bool
  | .nan => false
  | .inf n => n
  | .zero n => n
  | .fin v => decide (v.m < 0)

/-- Sum of two operands as read: an exact zero sum is +0 unless both operands are -0 (R127). -/
def fpAddVal (f : FpFmt) (a b : FpVal) : Nat × NumFlags :=
  match a, b with
  | .nan, _ => fpInvalid f
  | _, .nan => fpInvalid f
  | .inf x, .inf y => if x = y then (f.infBits x, {}) else fpInvalid f
  | .inf x, _ => (f.infBits x, {})
  | _, .inf y => (f.infBits y, {})
  | .zero x, .zero y => (f.zeroBits (x && y), {})
  | .zero _, .fin v => fpRound f false v
  | .fin v, .zero _ => fpRound f false v
  | .fin v, .fin w => fpRound f false (dyAdd v w)

/-- Product of two operands as read: an exact zero product is -0 when exactly one operand is negative (R127; neither is an
integer code here). -/
def fpMulVal (f : FpFmt) (a b : FpVal) : Nat × NumFlags :=
  let s := a.neg != b.neg
  match a, b with
  | .nan, _ => fpInvalid f
  | _, .nan => fpInvalid f
  | .inf _, .zero _ => fpInvalid f
  | .zero _, .inf _ => fpInvalid f
  | .inf _, _ => (f.infBits s, {})
  | _, .inf _ => (f.infBits s, {})
  | .zero _, _ => (f.zeroBits s, {})
  | _, .zero _ => (f.zeroBits s, {})
  | .fin v, .fin w => fpRound f s (dyMul v w)

/-- A two-operand operation on patterns: the operands' and the result's conditions together. -/
def fpOp2 (f : FpFmt) (op : FpFmt → FpVal → FpVal → Nat × NumFlags) (a b : Nat) : Nat × NumFlags :=
  let (x, fa) := fpRead f a
  let (y, fb) := fpRead f b
  let (r, fr) := op f x y
  (r, (fa.or fb).or fr)

/-- A pattern with its sign reversed exactly (R127). -/
def fpNegBits (f : FpFmt) (a : Nat) : Nat := a ^^^ 2 ^ (f.p + f.w - 1)

/-- FP32 addition. -/
def fadd (a b : Word) : Word × NumFlags :=
  let r := fpOp2 fp32 fpAddVal a.toNat b.toNat
  (BitVec.ofNat 32 r.1, r.2)

/-- FP32 subtraction: the sum with the second operand's sign reversed (R127). -/
def fsub (a b : Word) : Word × NumFlags := fadd a (b ^^^ 0x80000000#32)

/-- FP32 multiplication. -/
def fmul (a b : Word) : Word × NumFlags :=
  let r := fpOp2 fp32 fpMulVal a.toNat b.toNat
  (BitVec.ofNat 32 r.1, r.2)

/-- The rna32 rounding of an exact dyadic value: an exact zero is +0. -/
def rna32 (v : Dyadic2) : Word × NumFlags :=
  let r := fpRound fp32 false v
  (BitVec.ofNat 32 r.1, r.2)

/-- An FP32 pattern plus an exact finite term, rounded once (the tap step of R133, R136 and R140): an exact zero sum is +0,
since every product in the array has an integer code as a factor (R127). -/
def faddExact (acc : Word) (t : Dyadic2) : Word × NumFlags :=
  let (x, fa) := fpRead fp32 acc.toNat
  match x with
  | .nan => ((0x7FC00000 : Word), fa.or { invalid := true })
  | .inf n => (BitVec.ofNat 32 (fp32.infBits n), fa)
  | .zero _ => let r := rna32 t; (r.1, fa.or r.2)
  | .fin v => let r := rna32 (dyAdd v t); (r.1, fa.or r.2)

/-- The order of two operands as read, with -0 below +0: whether the first is less (R260). -/
def fpLess (a b : FpVal) : Bool :=
  match a, b with
  | .nan, _ => false
  | _, .nan => false
  | .inf x, .inf y => x && !y
  | .inf x, _ => x
  | _, .inf y => !y
  | .zero x, .zero y => x && !y
  | .zero _, .fin v => decide (0 < v.m)
  | .fin v, .zero _ => decide (v.m < 0)
  | .fin v, .fin w => dyLt v w

/-- The pattern of an operand as read (a subnormal has become zero). -/
def fpBits (f : FpFmt) (a : FpVal) : Nat :=
  match a with
  | .nan => f.canonNan
  | .inf n => f.infBits n
  | .zero n => f.zeroBits n
  | .fin v => (fpRound f false v).1

/-- FP32 minimum or maximum: a NaN operand gives the canonical NaN and flags invalid (R126, R260). -/
def fpick (mx : Bool) (a b : Word) : Word × NumFlags :=
  let (x, fa) := fpRead fp32 a.toNat
  let (y, fb) := fpRead fp32 b.toNat
  if x = .nan ∨ y = .nan then ((0x7FC00000 : Word), (fa.or fb).or { invalid := true })
  else
    let less := fpLess x y
    let r := if mx then (if less then y else x) else (if less then x else y)
    (BitVec.ofNat 32 (fpBits fp32 r), fa.or fb)

/-- Whether a pattern is a NaN. -/
def isNan32 (a : Word) : Bool := (fpRead fp32 a.toNat).1 == .nan

/-- Whether a pattern is finite. -/
def isFinite32 (a : Word) : Bool :=
  match (fpRead fp32 a.toNat).1 with
  | .nan => false
  | .inf _ => false
  | _ => true

/-- The exact value of a finite pattern (zero for the others). -/
def val32 (a : Word) : Dyadic2 :=
  match (fpRead fp32 a.toNat).1 with
  | .fin v => v
  | _ => ⟨0, 0⟩

/-- binary64 addition with RNA (R155). -/
def dadd (a b : DWord) : DWord := BitVec.ofNat 64 (fpOp2 fp64 fpAddVal a.toNat b.toNat).1

/-- binary64 multiplication with RNA. -/
def dmul (a b : DWord) : DWord := BitVec.ofNat 64 (fpOp2 fp64 fpMulVal a.toNat b.toNat).1

/-- The rna64 rounding of an exact dyadic value. -/
def rna64 (v : Dyadic2) : DWord := BitVec.ofNat 64 (fpRound fp64 false v).1

/-- The exact value of a finite binary64 pattern. -/
def val64 (a : DWord) : Dyadic2 :=
  match (fpRead fp64 a.toNat).1 with
  | .fin v => v
  | _ => ⟨0, 0⟩

/-- A quotient of integers rounded to p significant bits by RNA, as a dyadic number (enough bits are kept to round once). -/
def rnaRatio (p : Nat) (n : Int) (d : Nat) : Dyadic2 :=
  let l := bitLen n.natAbs
  let k := p + 2 + bitLen d - l
  let num := n.natAbs * 2 ^ k
  let q := num / d
  let sticky := if num % d = 0 then 2 * q else 2 * q + 1
  let (r, x) := roundSig p sticky (-((k : Int) + 1))
  ⟨if n < 0 then -(r : Int) else (r : Int), x⟩

/-! ### Element codes (R120 to R124, R128) -/

/-- An element format of a tensor (R120, R272). -/
inductive Elem where
  | i4 | t2 | i8
  deriving DecidableEq, Repr

/-- Bits of one element. -/
def Elem.bits : Elem → Nat
  | .i4 => 4
  | .t2 => 2
  | .i8 => 8

/-- The code that means ABSENT in an activation (R120). -/
def Elem.absent : Elem → Nat
  | .i4 => 8
  | .t2 => 2
  | .i8 => 0x80

/-- The clamp limit of a quantiser target (R148). -/
def Elem.limit : Elem → Nat
  | .i4 => 7
  | .t2 => 1
  | .i8 => 127

/-- The signed value of a code's two's complement. -/
def codeInt (nb c : Nat) : Int := if c < 2 ^ (nb - 1) then (c : Int) else (c : Int) - (2 ^ nb : Nat)

/-- The value of a weight code: a T2 code 0b10 is taken as 0 (R122). -/
def weightVal (f : Elem) (c : Nat) : Int := if f = .t2 ∧ c = 2 then 0 else codeInt f.bits c

/-- The value of an activation code: ABSENT contributes 0 (R121). -/
def actVal (f : Elem) (c : Nat) : Int := if c = f.absent then 0 else codeInt f.bits c

/-- The code of an integer in a format. -/
def elemCode (f : Elem) (v : Int) : Nat := (v % (2 ^ f.bits : Nat)).toNat

/-- Element k of a row of packed codes (R123). -/
def unpack (f : Elem) (bs : List Byte) (k : Nat) : Nat :=
  match f with
  | .i4 => ((bs.getD (k / 2) 0).toNat / 16 ^ (k % 2)) % 16
  | .t2 => ((bs.getD (k / 4) 0).toNat / 4 ^ (k % 4)) % 4
  | .i8 => (bs.getD k 0).toNat

/-- Pack codes little-endian along their index (R123). -/
def packCodes (f : Elem) (cs : List Nat) : List Byte :=
  let per := 8 / f.bits
  (List.range (ceilDiv cs.length per)).map (fun i =>
    BitVec.ofNat 8 ((List.range per).foldl (fun a j => a + cs.getD (i * per + j) 0 * 2 ^ (f.bits * j)) 0))

/-- Whether an S8 code is reserved (R124). -/
def s8Reserved (c : Nat) : Bool := decide (0xF8 ≤ c)

/-- The value of an S8 code: 0x00 is zero, the others (8 + m) times 2^(e - 18) (Table 2 of the arithmetic chapter). -/
def s8Val (c : Nat) : Dyadic2 := if c = 0 then ⟨0, 0⟩ else ⟨8 + ((c % 8 : Nat) : Int), ((c / 8 : Nat) : Int) - 18⟩

/-- The E6M7 word of a code under a scale (R128): sign, exponent with bias 31, 7-bit mantissa; zero is 0. -/
def e6m7Expand (c : Int) (scale : Nat) : BitVec 14 :=
  let v := dyMul (dyInt c) (s8Val scale)
  if v.m = 0 then 0
  else
    let l := bitLen v.m.natAbs
    let x : Int := (l : Int) - 1 + v.e + 31
    let f := (if l ≤ 8 then v.m.natAbs * 2 ^ (8 - l) else v.m.natAbs / 2 ^ (l - 8)) % 128
    BitVec.ofNat 14 (b2n (decide (v.m < 0)) * 2 ^ 13 + x.toNat * 2 ^ 7 + f)

/-- The value of an E6M7 word (R128). -/
def e6m7Val (w : BitVec 14) : Dyadic2 :=
  let n := w.toNat
  let x := bits 12 7 n
  if x = 0 then ⟨0, 0⟩
  else
    let m : Int := ((128 + n % 128 : Nat) : Int)
    ⟨if bit 13 n then -m else m, (x : Int) - 31 - 7⟩

/-! ### Sums of one column -/

/-- A running FP32 value with the conditions raised so far. -/
abbrev Acc := Word × NumFlags

/-- One whole-layout group term (R133): nothing where a scale is 0x00. -/
def groupStep (acc : Acc) (s : Int) (sw sa : Nat) : Acc :=
  if sw = 0 ∨ sa = 0 then acc
  else
    let r := faddExact acc.1 (dyMul (dyMul (dyInt s) (s8Val sw)) (s8Val sa))
    (r.1, acc.2.or r.2)

/-- The buttress term of one column (R136): rows of (activation value, weight, exponent) under one weight scale. -/
def buttressStep (acc : Acc) (rows : List (Int × Int × Int)) (swb : Nat) : Acc :=
  match rows with
  | [] => acc
  | (_, _, x0) :: _ =>
    if swb = 0 then acc
    else
      let xmin := rows.foldl (fun m r => min m r.2.2) x0
      let sb := rows.foldl (fun a r => a + shl (r.1 * r.2.1) (r.2.2 - xmin).toNat) 0
      let r := faddExact acc.1 (dyMul (dyMul (dyInt sb) (s8Val swb)) ⟨1, xmin⟩)
      (r.1, acc.2.or r.2)

/-- One quartered-layout element step (R140): the product of two E6M7 operands, one rounding. -/
def quarteredStep (acc : Acc) (a w : Int) (sa sw : Nat) : Acc :=
  let r := faddExact acc.1 (dyMul (e6m7Val (e6m7Expand a sa)) (e6m7Val (e6m7Expand w sw)))
  (r.1, acc.2.or r.2)

/-- A reduction index range [lo, hi). -/
def rangeFrom (lo n : Nat) : List Nat := (List.range n).map (· + lo)

/-! ### The quantiser's conversions (R147, R151, R152) -/

/-- What one conversion gives: the code, and whether it was non-finite, absent or clamped. -/
structure QCode where
  code : Nat
  u : Word
  nonfinite : Bool := false
  absent : Bool := false
  clamped : Bool := false
  flags : NumFlags := {}
  deriving DecidableEq, Repr

/-- The scaled lane value u (R147). -/
def quantU (y : Word) (m : Option Word) : Acc :=
  match m with
  | some k => fmul y k
  | none => (y, {})

/-- The code of a lane under a group scale (R147, R148). -/
def quantLane (f : Elem) (nanMode : Bool) (sa : Nat) (y : Word) (m : Option Word) : QCode :=
  let (u, fl) := quantU y m
  let (x, fr) := fpRead fp32 u.toNat
  let fl := fl.or fr
  match x with
  | .nan => { code := if nanMode then f.absent else 0, u, nonfinite := true, absent := nanMode, flags := fl }
  | .inf neg =>
    if sa = 0 then { code := 0, u, nonfinite := true, flags := fl }
    else { code := elemCode f (if neg then -(f.limit : Int) else f.limit), u, nonfinite := true, flags := fl }
  | .zero _ => { code := 0, u, flags := fl }
  | .fin v =>
    if sa = 0 then { code := 0, u, flags := fl }
    else
      let r := rnaQuot v (s8Val sa)
      let c := clampInt (-(f.limit : Int)) f.limit r
      { code := elemCode f c, u, clamped := decide (c ≠ r), flags := fl }

/-- The I8 code of an outlier lane under its exponent (R152). -/
def quantOutlier (nanMode : Bool) (x : Int) (y : Word) (m : Option Word) : QCode :=
  let (u, fl) := quantU y m
  match (fpRead fp32 u.toNat).1 with
  | .nan => { code := if nanMode then 0x80 else 0, u, nonfinite := true, absent := nanMode, flags := fl }
  | .inf neg => { code := elemCode .i8 (if neg then -127 else 127), u, nonfinite := true, flags := fl }
  | .zero _ => { code := 0, u, flags := fl }
  | .fin v =>
    let r := rnaInt (dyMul v ⟨1, -x⟩)
    let c := clampInt (-127) 127 r
    { code := elemCode .i8 c, u, clamped := decide (c ≠ r), flags := fl }

/-- The magnitude of a lane, as the maxima of R151 keep it: infinity is the value 2 to the 200. -/
def magnitude (u : Word) : Dyadic2 :=
  match (fpRead fp32 u.toNat).1 with
  | .inf _ => ⟨1, 200⟩
  | .fin v => ⟨v.m.natAbs, v.e⟩
  | _ => ⟨0, 0⟩

/-- The greater of two magnitudes. -/
def dyMax (a b : Dyadic2) : Dyadic2 := if dyLt a b then b else a

/-- The least x of a range with 127 times 2^x at least m, or the last. -/
def leastExp (m : Dyadic2) : Int :=
  let c := ((List.range 128).find? (fun i => dyLe m ⟨127, (i : Int) - 64⟩))
  match c with
  | some i => (i : Int) - 64
  | none => 63

/-- The exponents of the outlier channels of one K-tile (R151): each the least that reaches its maximum, clamped to
-64 to +63, and raised to within 15 of the greatest. -/
def outlierExps (ms : List Dyadic2) : List Int :=
  let xs := ms.map leastExp
  let mx := xs.foldl max (-64)
  xs.map (fun x => max x (mx - 15))

end Sys2Proof.Machine
end

