-- ==== Sys2Proof/Machine/State.lean ====
section
/-!
DEFINITION. The state of the block: every register, queue, buffer, counter, mode and pin the specification gives it, as
plain data, with the reasons a step can stop and the state after power-on.
-/

namespace Sys2Proof.Machine

open Sys2Proof

/-- The faults of the block: none. Every condition the specification detects is an effect on the state (a halted brick, a
counter, a fault record); no command stops the machine. The constructor below is never raised; it is safe. -/
inductive Fault where
  | none
  deriving DecidableEq, Repr

/-- The refusals: a command whose meaning is not written (raised by the dispatch alone; safe: the machine stops). -/
inductive Refusal where
  | notModelled (mnemonic : String)
  deriving DecidableEq, Repr

/-! ### The brick (chapters 7, 8, 9) -/

/-- The states of a brick (R245), with the codes of BRK_STATE.state (R247). -/
inductive BrickPhase where
  | off | reset | idle | running | frozen | halted | fenced | retired
  deriving DecidableEq, Repr

/-- A window BRK_WIN_w (R211, R249). -/
structure Win where
  valid : Bool := false
  part : Part := 0
  bmemPages : Nat := 0
  bmemBase : Nat := 0
  dmemLen : Nat := 0
  dmemBase : Nat := 0
  deriving DecidableEq, Repr

/-- A code region BRK_REGION_n (R208, R248). -/
structure Region where
  stamp : Word := 0
  valid : Bool := false
  length : Nat := 0
  base : BitVec 13 := 0
  deriving DecidableEq, Repr

/-- A window's parameter file with its patched bits, and whether it has ever been patched (R229, R230). -/
structure ParamFile where
  vals : Vector DWord 16 := Vector.replicate 16 0
  patched : BitVec 16 := 0
  pending : Option (Map DWord) := none
  deriving DecidableEq, Repr

/-- A binary32 row of 128 lanes. -/
abbrev VecVal := Vector Word 128

/-- One row of the accumulator store with its absent flag (R183). -/
structure AccRow where
  lanes : VecVal := Vector.replicate 128 0
  absent : Bool := false
  deriving DecidableEq, Repr

/-- One set of stationary weights (R179): the fill row of each array row as the weight bus delivered it (packed along N),
the group-scale codes of each group (one byte a column), the buttress weights of each buttress row and the buttress scales.
What has never been filled reads as 0. -/
structure WeightSet where
  rows : Map (List Byte) := []
  scales : Map (List Byte) := []
  bweights : Map (List Byte) := []
  bscales : List Byte := []
  deriving DecidableEq, Repr

/-- A statistics slot (R155, R156, R173). -/
structure StatSlot where
  sumX2 : DWord := 0
  sumE2 : DWord := 0
  epoch : BitVec 16 := 0
  count : BitVec 48 := 0
  part : Part := 0
  valid : Bool := false
  set : Fin 8 := 0
  clamped : BitVec 24 := 0
  nonfinite : BitVec 24 := 0
  deriving DecidableEq, Repr

/-- One element's contribution to a statistics slot (R155). -/
structure StatElem where
  slot : Nat
  x2 : DWord
  e2 : DWord
  counted : Bool
  clamped : Bool
  nonfinite : Bool
  deriving DecidableEq, Repr

/-- A scalar load waiting to land (R219). -/
structure LoadDue where
  due : Nat
  rd : SReg
  value : Word
  sig : BitVec 6
  deriving DecidableEq, Repr

/-- A vector result waiting to land (R219, R223). -/
structure VecDue where
  due : Nat
  vd : VReg
  value : VecVal
  sig : BitVec 6
  deriving DecidableEq, Repr

/-- A quantise result waiting to land: bytes of the staging area, statistics, signal (R226, R264, R265). -/
structure QuantDue where
  due : Nat
  writes : List (Nat × List Byte)
  stats : List StatElem
  sig : BitVec 6
  deriving DecidableEq, Repr

/-- A matrix pass in flight (R177, R184, R193): its issue cycle, destination rows and results. -/
structure PassDue where
  t0 : Nat
  quartered : Bool
  quadrant : Fin 4
  dst : Nat
  rows : List (VecVal × Bool)
  sig : BitVec 6
  pc : BitVec 13
  win : Fin 4
  deriving DecidableEq, Repr

/-- A weight fill in flight (R180, R195). -/
structure FillDue where
  l0 : Nat
  quartered : Bool
  quadrant : Fin 4
  sig : BitVec 6
  deriving DecidableEq, Repr

/-- A running stream: the private copy of its descriptor, the bytes moved so far; of a stream over mortar the bytes that may be moved
(`arrived`, waiting in `buf`), those requested, those that have come in order (`got`; not yet turned in `raw`), the responses that have
come out of order, the lowest refused or poisoned place; the bundle that started it, its signal, and
for an armed operand stream whether a matrix instruction has consumed it and the cycle of its last byte (R227, R228, R267). -/
structure Stream where
  desc : Vector DWord 4
  moved : Nat := 0
  arrived : Nat := 0
  requested : Nat := 0
  got : Nat := 0
  parts : Map (Nat × List Byte) := []
  raw : List Byte := []
  buf : List Byte := []
  bad : Option (Nat × Byte × Word) := none
  pc : BitVec 13
  sig : BitVec 6
  armedAt : Nat := 0
  endsAt : Nat := 0
  consumed : Bool := false
  inStoreSlot : Bool := false
  deriving DecidableEq, Repr

/-- The native operations of a slot (Tables 2 to 9 of the bundle chapter). -/
inductive SlotOp where
  | nop
  | replay
  | barrier (rel : BitVec 6) (b : Fin 4)
  | clear (id : BitVec 6)
  | alu (op : Nat) (rd rs1 rs2 : SReg)
  | rdcyc (rd : SReg)
  | afr (rd : SReg) (bank : Fin 8) (w : Fin 4)
  | aluImm (op : Nat) (rd rs1 : SReg) (imm : BitVec 12)
  | lhi (rd : SReg) (imm : BitVec 17)
  | llo (rd : SReg) (imm : BitVec 15)
  | ld (op : Nat) (rd rs1 : SReg) (win : Fin 4) (imm : BitVec 10)
  | st (op : Nat) (rs2 rs1 : SReg) (win : Fin 4) (imm : BitVec 10)
  | branch (op : Nat) (rs1 rs2 : SReg) (off : BitVec 12)
  | jal (rd : SReg) (target : BitVec 13)
  | jr (rs1 : SReg)
  | prd (rd : SReg) (win : Fin 4) (n : Fin 16) (half : Bool)
  | dwr (rs : SReg) (d : Fin 16) (word : Fin 4) (half : Bool)
  | drd (rd : SReg) (d : Fin 16) (word : Fin 4) (half : Bool)
  | rfe
  | tmr (rs1 : SReg)
  | ie (v : Bool)
  | trap (imm : BitVec 12)
  | halt (imm : BitVec 12)
  | v2 (op : Nat) (vd va vb : VReg)
  | v1 (op : Nat) (vd va : VReg)
  | vbcs (vd : VReg) (rs : SReg)
  | vlut (vd va : VReg) (table win : Fin 4)
  | vacc (vd : VReg) (bank : Fin 8) (row : Fin 128)
  | vld (vd : VReg) (win : Fin 4) (rs : SReg)
  | vput (va : VReg) (unit : BitVec 11)
  | qnt (va : VReg) (qd : Fin 32) (unit : BitVec 11) (row : Fin 128) (nanMode : Bool) (win : Fin 4)
  | qscan (va : VReg) (qd : Fin 32) (unit : BitVec 11) (row : Fin 128) (final : Bool) (win : Fin 4)
  | matmul (m : MatmulArgs)
  | matmulQ (m : MatmulQArgs)
  | wfill (dw ds : Fin 16) (quartered : Bool) (quadrant : Fin 4) (kdbl : Bool)
  | start (store : Bool) (d : Fin 16) (rsSrc rsDst : SReg)
  deriving DecidableEq, Repr

/-- One slot of a bundle as it is presented: position, wait, signal, reserved bit, operation (R250). -/
structure Slot where
  pos : SlotPos
  wait : BitVec 6
  sig : BitVec 6
  rsv : Bool
  op : SlotOp
  deriving DecidableEq, Repr

/-- The registers of the scalar core and the sync engine (R207). -/
structure BrickRegs where
  s : Vector Word 32 := Vector.replicate 32 0
  pc : BitVec 13 := 0
  ie : Bool := false
  excDepth : BitVec 4 := 0
  timer : Word := 0
  cycle : Nat := 0
  flags : BitVec 32 := 0
  counters : Vector (BitVec 8) 16 := Vector.replicate 16 0
  pendTimer : Bool := false
  pendDoorbell : Option Word := none
  deriving DecidableEq, Repr

/-- The halt and exception registers of a brick (Tables 10 to 19 of the brick chapter); the window that the halting instruction named, and
whether a poisoned line of an S-die halted it (R450, R451). -/
structure BrickCtl where
  phase : BrickPhase := .off
  frozenFrom : BrickPhase := .idle
  haltReason : Byte := 0
  haltSlot : Fin 8 := 6
  lastReason : Byte := 0
  haltPc : BitVec 13 := 0
  haltPrior : Byte := 0
  haltInfo : Word := 0
  haltWin : Option (Fin 4) := none
  haltPoison : Bool := false
  lockstep : Bool := false
  stkLo : BitVec 16 := 0
  stkHi : BitVec 16 := 0
  excVec : BitVec 13 := 0
  wdogLimitUs : Nat := 8
  counterSat : Bool := false
  flagOverrun : Bool := false
  capHash : Word := 0
  ringLost : Bool := false
  replayBeats : Nat := 0
  lastIssueNs : Nat := 0
  resetDone : Nat := 0
  stallWaits : List (BitVec 6) := []
  stallReplay : Bool := false
  stallHandler : Bool := false
  stallSlots : List SlotPos := []
  stallReason : Fin 8 := 0
  deriving DecidableEq, Repr

/-- The memories of a brick (R208 to R210, R224, R262). -/
structure BrickMem where
  imem : List Host.Cell := []
  dmem : List Host.Cell := []
  bmem : List Host.Cell := []
  loaded : BitVec 2048 := 0
  staging : List Host.Cell := []
  luts : Map (List Word) := []
  deriving DecidableEq, Repr

/-- The array, its buttress and the accumulator store (R179, R183, R200 to R206). -/
structure BrickArray where
  active : WeightSet := {}
  shadow : WeightSet := {}
  qActive : Vector WeightSet 4 := Vector.replicate 4 {}
  qShadow : Vector WeightSet 4 := Vector.replicate 4 {}
  acc : Map AccRow := []
  layout : Bool := false
  state : Fin 4 := 0
  colMask : BitVec 16 := 0xFFFF
  transient : BitVec 16 := 0
  retired : Fin 4 := 0
  lastGroup : Fin 16 := 0
  lastKind : Fin 8 := 0
  reruns : Nat := 0
  suspect : List (Fin 16) := []
  deriving DecidableEq, Repr

/-- What a brick has in flight (R219, R228, R254, R287). -/
structure BrickFlight where
  loads : List LoadDue := []
  vecs : List VecDue := []
  quants : List QuantDue := []
  passes : List PassDue := []
  fills : List FillDue := []
  streams : Map Stream := []
  arrivals : BitVec 4 := 0
  releases : Map (BitVec 6) := []
  ringIn : List (Nat × List Byte) := []
  sigs : List (Nat × BitVec 6) := []
  bundle : List Slot := []
  deriving DecidableEq, Repr

/-- The vector registers, the quantiser and its statistics (R223, R226, R262 to R266). -/
structure BrickVec where
  v : Vector VecVal 16 := Vector.replicate 16 (Vector.replicate 128 0)
  maxima : Map Dyadic2 := []
  exps : Map (List Int) := []
  stats : Map StatSlot := []
  snap : Map StatSlot := []
  qsnapDone : Bool := false
  qsnapBusy : Bool := false
  deriving DecidableEq, Repr

/-- The engine counters of a brick (R519, R520, R532), the cycles of the freeze in progress, and the trace records of the brick that have
not yet left it: kind, partition, data (R524). -/
structure BrickPerf where
  engines : Map Nat := []
  stalls : Map Nat := []
  snapEngines : Map Nat := []
  snapStalls : Map Nat := []
  snapDone : Bool := false
  eccCorr : BitVec 48 := 0
  eccRetry : BitVec 48 := 0
  frozenCycles : Nat := 0
  traces : List (Nat × Nat × List Byte) := []
  deriving DecidableEq, Repr

/-- BRK_NUM_STATUS (R144). -/
structure NumSticky where
  flush : Bool := false
  overflow : Bool := false
  invalid : Bool := false
  t2w : Bool := false
  deriving DecidableEq, Repr

/-- One brick. -/
structure BrickSt where
  r : BrickRegs := {}
  c : BrickCtl := {}
  m : BrickMem := {}
  vec : BrickVec := {}
  arr : BrickArray := {}
  fl : BrickFlight := {}
  perf : BrickPerf := {}
  wins : Vector Win 4 := Vector.replicate 4 {}
  regions : Vector Region 8 := Vector.replicate 8 {}
  params : Vector ParamFile 4 := Vector.replicate 4 {}
  everPatched : BitVec 4 := 0
  descs : Vector (Vector DWord 4) 16 := Vector.replicate 16 (Vector.replicate 4 0)
  barriers : Vector (Bool × BitVec 16) 4 := Vector.replicate 4 (false, 0)
  num : NumSticky := {}
  deriving DecidableEq, Repr
/-! ### Slices and verdicts (chapter 1) -/

/-- A slice in the elastic buffer (R14, R15): the feed that carried it, its descriptor and header bytes, the time it entered,
the first check of Table 2 that it fails, and whether it came by a mirror port. -/
structure Slice where
  feed : Feed
  desc : BitVec 128
  hdr : List Byte
  tIn : DWord
  fail : Option (Fin 4) := none
  fenced : Bool := false
  deriving DecidableEq, Repr

/-- A stamped slice (R17, R19): with the epochs in force when it left the elastic buffer and the P-die that the steering table
names. -/
structure Stamped where
  s : Slice
  structEpoch : Word
  modelEpoch : BitVec 16
  pdie : Die
  skew : Bool := false
  ldie : Die := 0
  lid : Nat := 0
  deriving DecidableEq, Repr

/-- A ledger entry (R457), with the structure epoch its answer reads. -/
structure LedgerEntry where
  lid : Nat
  tag : BitVec 24
  feed : Feed
  part : Part
  arrival : Word
  deadline : Nat
  tIn : DWord
  epoch : BitVec 16
  structEpoch : Word
  pdie : Option Die
  prov : Bool := false
  deriving DecidableEq, Repr

/-- A verdict produced and waiting for egress (R33, R39, R410): all of its record but the latency; it is an orphan once its feed has been down
(R420). -/
structure Verdict where
  tag : BitVec 24
  feed : Feed
  source : BitVec 4
  action : BitVec 4
  cls : BitVec 8
  final : Bool
  prov : Bool
  skew : Bool
  absent : Bool
  score : BitVec 16
  epoch : BitVec 16
  tIn : DWord
  part : Part
  lid : Nat := 0
  orphan : Bool := false
  deriving DecidableEq, Repr

/-! ### The flow table (chapter 3) -/

/-- A flow entry (R68). -/
structure FlowEntry where
  digest : BitVec 111 := 0
  young : Bool := false
  seqMode : Bool := false
  lastClass : BitVec 4 := 0
  gen : BitVec 6 := 0
  part : Part := 0
  epoch : BitVec 16 := 0
  meanSize : BitVec 16 := 0
  pktCount : DWord := 0
  byteCount : DWord := 0
  firstTime : Word := 0
  timeStamp : Word := 0
  minSize : BitVec 16 := 0
  maxSize : BitVec 16 := 0
  seqCtx : Option (BitVec 26) := none
  iatHist : Vector (BitVec 16) 8 := Vector.replicate 8 0
  tcpFlags : Vector (BitVec 16) 8 := Vector.replicate 8 0
  t2Last : DWord := 0
  t2State : BitVec 128 := 0
  spState : BitVec 128 := 0
  deriving DecidableEq, Repr

/-- A bucket (R67): slot k at position k, the overflow entry of link k at position 4 + k with its overflow index. -/
structure Bucket where
  pos : Map FlowEntry := []
  link : Map Nat := []
  deriving DecidableEq, Repr

/-- A warm probe on its way (R83). -/
structure WarmProbe where
  id : Nat
  bucket : Nat
  digest : BitVec 111
  part : Part
  gen : BitVec 6
  geom : BitVec 16 := 0
  sentNs : Nat
  deriving DecidableEq, Repr

/-- An entry on its way from the hot to the warm tier, with the P-die that demoted it (R79, R82). -/
structure Demoting where
  pdie : Die
  entry : FlowEntry
  deriving DecidableEq, Repr

/-- How a retained slice's flow entry is found again for a commit (R25, R87, R88). -/
structure FlowRef where
  tracked : Bool := false
  digest : BitVec 111 := 0
  bucket : Nat := 0
  part : Part := 0
  gen : BitVec 6 := 0
  geom : BitVec 16 := 0
  deriving DecidableEq, Repr

/-! ### Tier 2: retention and pallets (R25, R26) -/

/-- A retention slot (R25). -/
structure RetSlot where
  st : Stamped
  flow : FlowRef
  top : BitVec 4
  score : BitVec 16
  provAction : BitVec 4
  fbAction : BitVec 4
  provDone : Bool := false
  seq : Bool := false
  pallet : Nat := 0
  row : Nat := 0
  deriving DecidableEq, Repr

/-- A pallet row: the retention slot (none once its slice has been answered: the row is then grout), its record codes and the
snapshot of its flow entry (R26, R27, R85). -/
structure PalletRow where
  slot : Option Nat
  record : List Nat
  snap : FlowEntry
  deriving DecidableEq, Repr

/-- A pallet: open, or dispatched under its sequence number (R26, R232, R454). -/
structure Pallet where
  part : Part
  target : Nat
  epoch : BitVec 16
  structEpoch : Word
  offVersion : BitVec 16 := 0
  rows : List PalletRow := []
  firstNs : Nat := 0
  seqNo : Nat := 0
  reruns : Nat := 0
  bricks : List Nat := []
  failed : Bool := false
  dispatched : Bool := false
  offsets : List Word := []
  params : Map DWord := []
  deriving DecidableEq, Repr

/-- A slice in service on the slow path (R51, R55): its reason is in `reason` (0 PARSE_ERROR, 1 DEPTH, 2 WINDOW, 3 UNKNOWN,
4 FRAGMENT), and the brick of the pool on which its program runs (R456). -/
structure SlowSlice where
  st : Stamped
  reason : Fin 5
  brick : Nat := 0
  deriving DecidableEq, Repr

/-- A fragment-table entry (R56). -/
structure FragEntry where
  tag : BitVec 111
  digest : BitVec 111
  bucket : Nat
  gen : BitVec 6
  owner : Die
  lastUse : Word
  deriving DecidableEq, Repr

/-- A token bucket: level times 1000, and the time of its last refill (R52, R115). -/
structure TokenBucket where
  level : Nat
  atNs : Nat
  deriving DecidableEq, Repr

/-- One P-die (chapters 1 to 4). `turns` counts the pallets of a partition that its arbiter toward a C-die has served in the round: the key is the
C-die times 1,024 plus the partition (R437). -/
structure PDie where
  inbox : List Stamped := []
  slots : Map RetSlot := []
  open_ : List Pallet := []
  inflight : Map Pallet := []
  nextSeq : Nat := 0
  turns : Map Nat := []
  slow : List SlowSlice := []
  slowBucket : TokenBucket := { level := 0, atNs := 0 }
  escBuckets : Map TokenBucket := []
  hot : Map Bucket := []
  probes : List WarmProbe := []
  nextProbe : Nat := 0
  lfsr : Word := 1
  sweepPos : Nat := 0
  sweepStartNs : Nat := 0
  lastSweepMs : Nat := 0
  flushLeft : Nat := 0
  cnt : Map (BitVec 48) := []
  lastPauseNs : BitVec 12 := 0
  lastAbandoned : Bool := false
  activeBank : Bool := false
  rewrites : Nat := 0
  macroSpares : Nat := 0
  macroPending : Nat := 0
  bankSpares : Map Nat := []
  lost : Bool := false
  badBanks : Map Unit := []
  deriving DecidableEq, Repr

/-- The elastic buffer and the egress of one L-die (R14, R30, R404). -/
structure LDieQ where
  elastic : List Slice := []
  egress : List Verdict := []
  steer : List Byte := []
  ledger : List LedgerEntry := []
  nextLid : Nat := 0
  lost : Bool := false
  cnt : Map (BitVec 48) := []
  deriving DecidableEq, Repr
/-! ### Models and epochs (chapters 10 and 13) -/

/-- The contents of the chosen variant of a model image (R351, R352). -/
structure VariantData where
  ensemble : Ensemble
  t2 : Option HykaiCode := none
  seqCode : Option HykaiCode := none
  data : List Byte := []
  t2Map : List QWord := []
  seqMap : List QWord := []
  stats : List StatDesc := []
  stateKeep : Bool := false
  span : Option (List (Nat × Nat)) := none
  deriving DecidableEq, Repr

/-- Where a model epoch stands (R365). -/
inductive EpochState where
  | prepared | active | draining | retired
  deriving DecidableEq, Repr

/-- A placement (R211, R299, R309, R318, R359): the number of the epoch it was made for (a re-tempered epoch shares its parent's), which of a
window's two code regions it uses, the pages it holds on each brick, the kind and figures of its streams, its home S-die, its predicted
pallet time. -/
structure Placement where
  id : BitVec 16 := 0
  reg : Nat := 0
  pages : Map (BitVec 2048) := []
  kind : Fin 4 := 0
  streamed : Nat := 0
  dramBw : Nat := 0
  sramBw : Nat := 0
  home : Fin 4 := 0
  predictedNs : Nat := 0
  deriving DecidableEq, Repr

/-- A resident model epoch of a partition (R363 to R366), with the parameters and offsets in force for its records (R370). -/
structure ModelEpoch where
  num : BitVec 16
  st : EpochState
  vd : VariantData
  imageHash : DWord := 0
  passes : Nat := 1
  inflight : Nat := 0
  since : Nat := 0
  gapMissing : Bool := false
  tempered : Bool := false
  place : Placement := {}
  scales : Map Nat := []
  params : Map DWord := []
  offsets : List Word := []
  offVersion : BitVec 16 := 0
  deriving DecidableEq, Repr

/-- The state of a load (R355, R372). -/
inductive LoadPhase where
  | idle | fetching | verifying | translating | prepared | committing
  deriving DecidableEq, Repr

/-- What a commit waiting for its T_c brings (R364, R167, R168, R367). -/
inductive CommitKind where
  | load | retemper | revert | unload
  deriving DecidableEq, Repr

/-- A commit accepted and not yet at its T_c (R364): T_c once broadcast. -/
structure CommitSt where
  kind : CommitKind
  tc : Option DWord := none
  deriving DecidableEq, Repr

/-- A parameter block accepted and not yet applied (R370): the epoch it is for and T_p; neither while it waits for a commit to end. -/
structure ParamWait where
  block : ParamBlock
  epoch : BitVec 16 := 0
  tp : Option DWord := none
  deriving DecidableEq, Repr

/-- The load registers and progress of one partition (R353 to R362, R370, R372). -/
structure LoadSt where
  phase : LoadPhase := .idle
  addr : DWord := 0
  len : Word := 0
  ctl : Word := 0
  code : Byte := 0
  variant : Fin 8 := 0
  detailSection : BitVec 6 := 0
  detailOffset : BitVec 26 := 0
  report : DWord := 0
  image : Option ModelImage := none
  vd : Option VariantData := none
  imageHash : DWord := 0
  passes : Nat := 1
  gap : Bool := false
  place : Placement := {}
  commits : List CommitSt := []
  blocks : List ParamWait := []
  xlCode : Byte := 0
  xlStage : Fin 16 := 0
  xlWord : BitVec 18 := 0
  xlPredicted : BitVec 16 := 0
  xlBundles : BitVec 14 := 0
  deriving DecidableEq, Repr

/-- The model side of one partition (R363 to R373). -/
structure ModelSt where
  epochs : List ModelEpoch := []
  lastNum : BitVec 16 := 0
  forced : Byte := 0
  cascadeOn : Bool := false
  load : LoadSt := {}
  deriving DecidableEq, Repr
/-! ### The structure image (chapter 14) -/

/-- The states of an apply (R378). -/
inductive StructPhase where
  | idle | checking | staged | applying
  deriving DecidableEq, Repr

/-- The bounded pause (R58 to R60): T0, whether the banks have flipped, and whether it was abandoned. -/
structure PauseSt where
  t0 : DWord
  flipped : Bool := false
  flow : Bool := false
  abandoned : Bool := false
  deriving DecidableEq, Repr

/-- The structure side of the warden (R378 to R395); the identity of the stored image, and whether K6 refused its slow-path program. -/
structure StructSt where
  phase : StructPhase := .idle
  addr : DWord := 0
  len : BitVec 21 := 0
  code : Byte := 0
  detailSection : BitVec 5 := 0
  detailOffset : BitVec 27 := 0
  restartPending : Bool := false
  epoch : Word := 0
  image : Option StructImage := none
  running : StructSections := {}
  stored : Option StructSections := none
  contents : Map StructSections := []
  inflight : Map Nat := []
  draining : Option Word := none
  drainSince : Nat := 0
  dLeft : List Nat := []
  tc : Option DWord := none
  lastTc : Option DWord := none
  pause : Option PauseSt := none
  lastPauseT0 : Option DWord := none
  geomEpoch : BitVec 16 := 0
  flipEpoch : Word := 0
  storedId : Word := 0
  storedSig : BitVec 768 := 0
  slowRefused : Bool := false
  deriving DecidableEq, Repr

/-- The bounds, loops and safety actions (R390 to R395, R490 to R492). A loop's instance (a partition, an island, a lane) has the key index
times 1024 plus its number; `wish` holds what the fill-timeout loops would choose; `droopCal` the droops that the K2 calibration allows an
island; `calmSince` and `ceilingCalm` since when an island, or the governor, has had no cause to slow. -/
structure LoopSt where
  sel : Word := 0
  stagedLo : Map Nat := []
  opBounds : Map (Nat × Nat) := []
  wish : Map Nat := []
  clampSince : Map Nat := []
  freeSince : Map Nat := []
  pinned : Map Unit := []
  badWrite : Bool := false
  safety : List (Nat × Nat) := []
  lastSafety : Fin 8 := 0
  safetyCnt : Map Nat := []
  clocks : Map Nat := []
  volts : Map Nat := []
  droops : Map Nat := []
  droopCal : Map Nat := []
  calmSince : Map Nat := []
  ceiling : Nat := 1000
  ceilingCalm : Nat := 0
  vpriMv : Nat := 0
  ipri10ma : Nat := 0
  deriving DecidableEq, Repr
/-! ### Links (chapter 15) -/

/-- A sequenced flit sent and not yet acknowledged (R405): sequence number, type, feed, the verdicts and advisories it carries, its
resends, its body. -/
structure SentFlit where
  seq : BitVec 12
  ty : Nat
  feed : Nat
  records : Nat
  resends : Nat := 0
  body : List Byte
  deriving DecidableEq, Repr

/-- A port (R397, R399, R405, R421). `granted` counts the credits that the partner may still use towards the device, `owed` those the
device holds back, `held` those the partner has granted the device; `rx` and `forming` are the streams by flit type and local feed or
peer (type times 16 plus local), `forming` with the records (or their bytes) not yet framed and when each entered; `reclens` is the record
length of each local feed since the port trained; `dropped` counts the sequenced flits discarded since a failure that go-back-N brings
again. -/
structure PortSt where
  st : Fin 4 := 0
  mode : Fin 3 := 0
  lanesCfg : List Nat := []
  lanesUp : List Nat := []
  trainSince : Nat := 0
  restartAt : Nat := 0
  downCount : Byte := 0
  signal : Bool := false
  initDone : Bool := false
  rxSeq : BitVec 12 := 0
  nakSent : Bool := false
  dropped : Nat := 0
  txSeq : BitVec 12 := 0
  unacked : List SentFlit := []
  granted : Map Nat := []
  held : Map Nat := []
  owed : Map Nat := []
  rx : Map (List Byte) := []
  forming : Map (List (List Byte × Nat)) := []
  reclens : Map Nat := []
  frameCount : Nat := 0
  batch : List (List Byte) := []
  batchSince : Nat := 0
  batchSeq : BitVec 16 := 0
  framesOut : List (List Byte) := []
  deriving DecidableEq, Repr

/-- A lane (R406, R421). -/
structure LaneSt where
  role : Fin 4 := 0
  port : Fin 16 := 0
  locked : Bool := false
  fecUncorr : BitVec 16 := 0
  adapted : Bool := false
  swapFor : Option Nat := none
  deriving DecidableEq, Repr

/-- A carry on its way round the wall (R416, R417, R419). -/
structure WallCarry where
  pallet : Nat
  pdie : Die
  peer : Fin 16
  sentNs : Nat
  deriving DecidableEq, Repr

/-- The wall (R415 to R419). -/
structure WallSt where
  lastCtl : Map Nat := []
  lastSent : Map Nat := []
  carries : List WallCarry := []
  sent : List (Nat × List Byte) := []
  deriving DecidableEq, Repr

/-- The L-dies together: ports by device port number, lanes by L-die times 104 plus lane, feeds that spill. -/
structure LinkSt where
  ports : Map PortSt := []
  lanes : Map LaneSt := []
  spilling : Map Unit := []
  wall : WallSt := {}
  deriving DecidableEq, Repr
/-! ### S-dies: memory system (chapter 11) and sequences (chapter 12) -/

/-- A grant (R299): an extent of device addresses, read or read-write, of one partition; `epoch` is the placement it belongs to, 0 for
scratch. -/
structure Grant where
  part : Part
  base : Nat
  len : Nat
  write : Bool := false
  epoch : BitVec 16 := 0
  deriving DecidableEq, Repr

/-- A line of the general cache (R304): its device line, whether a prefetch brought it and no brick has read it yet. -/
structure CacheLine where
  line : Nat
  unread : Bool := false
  deriving DecidableEq, Repr

/-- A VC5 response on its way (R307): the brick and stream, the place in the stream, the bytes read or the acknowledgement of a write, or the halt that a
refused or poisoned line brings (R299, R315). -/
structure MemResponse where
  brick : Brick
  d : Fin 16
  pos : Nat := 0
  data : List Byte := []
  n : Nat := 0
  bad : Option (Byte × Word) := none
  deriving DecidableEq, Repr

/-- A real token on its way (R319, R323): context, token, the flow it belongs to, the epochs of its slice, its time-stamp, the snapshot of
its flow entry (R85), and the retention slot of a verdict request. -/
structure TokenMsg where
  ctx : BitVec 26
  tok : BitVec 16
  digest : BitVec 111
  flow : FlowRef
  pdie : Die
  part : Part
  gen : BitVec 6
  epoch : BitVec 16
  structEpoch : Word
  ts : Word
  snap : FlowEntry := {}
  req : Option Nat := none
  deriving DecidableEq, Repr

/-- A context (R325) with what the streamer keeps beside it (R328 to R330): whether it is BUSY, marked lost, hot, whether it has had an
advisory, and its waiting tokens. -/
structure SeqContext where
  state : List Nat := List.replicate 512 0
  part : Part := 0
  gen : BitVec 6 := 0
  epoch : BitVec 16 := 0
  owner : Word := 0
  digest : BitVec 111 := 0
  flow : FlowRef := {}
  pdie : Die := 0
  lastTs : Word := 0
  tokens : Word := 0
  valid : Bool := false
  rollout : Bool := false
  envValid : Bool := false
  lost : Bool := false
  envLeft : Nat := 0
  sizeLo : Nat := 0
  sizeHi : Nat := 0
  gapLo : Nat := 0
  gapHi : Nat := 0
  flagMask : Byte := 0
  dirMask : BitVec 2 := 0
  envUntil : Word := 0
  lastAdv : BitVec 16 := 0
  advised : Bool := false
  busy : Bool := false
  markedLost : Bool := false
  freeWhenIdle : Bool := false
  hot : Bool := true
  lastUseNs : Nat := 0
  queue : List TokenMsg := []
  deriving DecidableEq, Repr

/-- A row of a sequence pallet (R331): a real token (`starts`: it found neither an envelope nor a rollout, R336), or a rollout row of a
context. -/
structure SeqRow where
  ctx : Nat
  tok : BitVec 16
  rollout : Bool := false
  msg : Option TokenMsg := none
  starts : Bool := false
  deriving DecidableEq, Repr

/-- A sequence pallet (R331), open or sent. -/
structure SeqPallet where
  id : Nat
  part : Part
  epoch : BitVec 16
  structEpoch : Word
  rows : List SeqRow := []
  firstNs : Nat := 0
  sent : Bool := false
  failed : Bool := false
  bricks : List Nat := []
  params : Map DWord := []
  deriving DecidableEq, Repr

/-- A rollout shadow (R336, R337): the copied state, the rows still to run, the predicted tokens so far. -/
structure Shadow where
  state : List Nat
  left : Nat
  tok : BitVec 16
  preds : List (BitVec 16) := []
  deriving DecidableEq, Repr

/-- One S-die with its stack; `turns` as in a P-die, of its context streamer (R437). -/
structure SDie where
  dram : List Host.Cell := []
  sram : List Host.Cell := []
  pinnedMib : Nat := 0
  hbmReady : Bool := false
  sramReady : Bool := false
  retiredCh : List Nat := []
  dramReserved : Nat := 0
  sramReserved : Nat := 0
  errAddr : Nat := 0
  errValid : Bool := false
  cache : Map (List CacheLine) := []
  responses : List MemResponse := []
  failedLines : Map Unit := []
  warm : Map (List FlowEntry) := []
  warmPos : Nat := 0
  demoting : List Demoting := []
  frags : Map FragEntry := []
  ctxs : Map SeqContext := []
  tokens : List TokenMsg := []
  fetching : List Nat := []
  writebacks : List (Nat × List Nat × BitVec 16) := []
  seqPallets : List SeqPallet := []
  nextPallet : Nat := 0
  turns : Map Nat := []
  shadows : Map Shadow := []
  sweepPos : Nat := 0
  captureOf : Option Part := none
  lost : Bool := false
  cnt : Map (BitVec 48) := []
  deriving DecidableEq, Repr

/-! ### Partitions (chapter 16) with their drift watch (chapter 6) -/

/-- A ring (R429 to R432, R435): its registers, the records waiting for it, whether it is discarding, and what has been written
since its vector's last message. -/
structure RingSt where
  base : DWord := 0
  wb : DWord := 0
  enable : Bool := false
  spillUs : Nat := 10
  size : Nat := 8
  prod : Word := 0
  cons : Word := 0
  delayUs : Nat := 20
  count : Nat := 64
  waiting : List (List Byte × Nat) := []
  spilling : Bool := false
  since : Nat := 0
  oldestNs : Nat := 0
  deriving DecidableEq, Repr

/-- An MSI-X vector (R434, R435): its table entry, its pending bit, when it last sent, whether a message is held by the gap. -/
structure VecSt where
  addr : DWord := 0
  data : Word := 0
  mask : Bool := true
  pend : Bool := false
  lastNs : Option Nat := none
  held : Bool := false
  deriving DecidableEq, Repr

/-- A re-tempering attempt (R163 to R165): the bounds in force at its start, its epoch, the S-die that holds the capture, the rows
captured (each the u values of the temperable sets in order), when capture and optimisation started, the standby brick. -/
structure Attempt where
  bounds : List (Nat × Nat)
  epoch : BitVec 16
  sdie : Die
  startNs : Nat
  rows : List (List Word) := []
  captureEndNs : Nat := 0
  brick : Option Nat := none
  deriving DecidableEq, Repr

/-- The drift watch of a partition (R158 to R175). -/
structure DriftSt where
  ctl : Word := 0x00320064
  state : Fin 5 := 0
  hold : Bool := false
  holdCount : Nat := 0
  calm : Nat := 0
  setsAbove : Byte := 0
  setsShort : Byte := 0
  windowNs : Nat := 0
  seen : Map (Dyadic2 × Dyadic2 × Nat) := []
  lastEnd : Option Nat := none
  outcome : Byte := 0
  parent : BitVec 16 := 0
  parentScales : Map Nat := []
  clamped : Byte := 0
  pinWatch : Option (BitVec 16 × Nat) := none
  attempt : Option Attempt := none
  next : Map Nat := []
  deriving DecidableEq, Repr

/-- PRT_FAULT and what stands behind it (R451, R460, R481). -/
structure PartFault where
  targetLost : Bool := false
  targetUnavail : Bool := false
  unmirrored : Bool := false
  programHalts : Byte := 0
  lastHalt : Byte := 0
  haltTimes : List Nat := []
  deriving DecidableEq, Repr

/-- One partition. -/
structure PartSt where
  cascade : Word := 0
  flow : Word := 0
  flowQuota : Word := 0
  tree : Word := 0
  scratchMib : Nat := 0
  stream : DWord := 0
  seqCtl : Word := 0x00010000
  seqAdv : Word := 0x0A201200
  seqThresh : Word := 0x7F800000
  seqQuota : Nat := 0
  qosClass : Fin 4 := 1
  weight : Nat := 1
  d3hot : Bool := false
  busMaster : Bool := false
  gen : BitVec 6 := 0
  resetStep : Fin 8 := 0
  resetAnswered : Nat := 0
  rings : Map RingSt := []
  vecs : Map VecSt := []
  minGapNs : Nat := 8000
  badDoorbell : Bool := false
  eventLost : Bool := false
  ringNew : BitVec 8 := 0
  cnt : Map (BitVec 48) := []
  drift : DriftSt := {}
  fault : PartFault := {}
  deriving DecidableEq, Repr

/-! ### Kiln, power and hold-up (chapter 18), package pins (chapter 22) -/

/-- A hold-up sequence in progress (R494): its cause, when it started, the record that it writes with the epoch numbers in it, whether the
shutdown command started it, whether VHOLD suffices for the record to complete, whether PORST_N has been released since. -/
structure HoldupRun where
  cause : Fin 4
  t0 : Nat
  record : List Host.Cell := []
  nums : Map (BitVec 16 × BitVec 16) := []
  sure : Bool := true
  released : Bool := false
  deriving DecidableEq, Repr

/-- The kiln, the supplies and the control pins. `held` says that the device waits for PORST_N, `off` that a hold-up has ended and the kiln has
not started since; `activating` that an activation runs on the running device; `crit` is the newest critical record of the MRAM, `critView` the one in force at the last K0, `savedNums` the epoch
numbers it holds (active, last) by partition. -/
structure PowerSt where
  running : Bool := false
  phase : Fin 8 := 0
  error : Fin 16 := 0
  ready : Bool := false
  activation : Bool := false
  activating : Bool := false
  fwFallback : Bool := false
  structValid : Bool := false
  degraded : Bool := false
  readyMs : Nat := 0
  kilnNs : Nat := 0
  k3done : Bool := false
  held : Bool := false
  extest : Bool := false
  vauxOk : Bool := true
  pcieUp : Bool := true
  armed : Bool := false
  recordOk : Bool := false
  recordIncomplete : Bool := false
  lastCause : Fin 4 := 0
  cap10uf : Nat := 0
  esr : Nat := 0
  holdup : Option HoldupRun := none
  crit : List Host.Cell := []
  critGen : Nat := 0
  critView : List Host.Cell := []
  savedNums : Map (BitVec 16 × BitVec 16) := []
  off : Bool := false
  deriving DecidableEq, Repr

/-! ### Roles, sessions and the audit log (chapter 19) -/

/-- An open session (R504, R505): role (1 operator, 2 installer, 3 maker), slot, key identifier, time of the last command. -/
structure Session where
  role : Nat
  slot : Nat
  keyId : DWord
  lastNs : Nat
  exported : BitVec 8 := 0
  deriving DecidableEq, Repr

/-- An audit record that waits for space in the tail (R513). -/
structure AuditWait where
  role : Nat
  path : Nat
  action : Nat
  keyId : DWord
  target : Nat
  result : Nat
  detail : List Byte
  deriving DecidableEq, Repr

/-- The warden's keys (slot 0, the maker root, is fused), sessions and audit log. Paths are numbered 0 (PF), 1 (MCTP) and, for refusals and
replies, 2 (JTAG). `ringNext` and `ringChain` are the number of the next record to reach the ring and the chain value of the last that has;
`spdm` is how far each path has negotiated: 1 version, 2 capabilities, 3 algorithms. -/
structure AuthSt where
  keys : Map (List Byte) := [(0, 4 :: List.replicate 96 0)]
  sessions : Map Session := []
  challenges : Map (Nat × BitVec 384) := []
  fails : Map (List Nat) := []
  locked : Map Nat := []
  count : Word := 0
  authSlot : Nat := 0
  sig : List Host.Cell := []
  keyAddr : DWord := 0
  tail : List (List Byte) := []
  waiting : List AuditWait := []
  ring : Map (List Byte) := []
  head : Word := 0
  chain : BitVec 128 := 0
  anchor : BitVec 128 := 0
  ringNext : Word := 0
  ringChain : BitVec 128 := 0
  lastRefused : Map Nat := []
  suppressed : Byte := 0
  sel : Nat := 0
  makerEn : Bool := false
  smbAddr : BitVec 7 := 0x60
  spdm : Map Nat := []
  fwCurrent : Nat := 0
  fwPrevious : Nat := 0
  fwStaged : Option Nat := none
  calib : Map Word := []
  jtag : Fin 5 := 0
  deriving DecidableEq, Repr

/-! ### Time and observation (chapter 20) -/

/-- The wall counter and its discipline (R515 to R517). -/
structure TimeSt where
  now : Nat := 0
  wall : DWord := 0
  slewPpb : Int := 0
  slewAcc : Int := 0
  locked : Bool := false
  good : Nat := 0
  lastEdge : Option Nat := none
  lastError : BitVec 16 := 0
  step : Bool := false
  todNext : DWord := 0
  pulseNs : Option Nat := none
  deriving DecidableEq, Repr

/-- A histogram (R521, R523). -/
structure Hist where
  bins : Map Nat := []
  total : BitVec 48 := 0
  mn : BitVec 48 := 0xFFFFFFFFFFFF
  mx : BitVec 48 := 0
  deriving DecidableEq, Repr

/-- A rubble dump (R526 to R530): the brick that hung, whether it is latched and not yet written, and its bytes. -/
structure Rubble where
  brick : Brick
  written : Bool := false
  bytes : List Byte := []
  deriving DecidableEq, Repr

/-- The OBS block (R533) with the histograms: latency histogram h of partition p at 4p + h; occupancy histogram of queue q, die d at
4096 + 4q + d. -/
structure ObsSt where
  hists : Map Hist := []
  histSel : Word := 0
  kinds : Byte := 0
  ringOn : Bool := false
  traceWait : List (List Byte × Nat) := []
  traceRing : Map (List (List Byte)) := []
  tracePtr : Map Nat := []
  rubble : Map Rubble := []
  latched : Byte := 0
  stageSel : Word := 0
  dropCnt : BitVec 48 := 0
  skipCnt : BitVec 48 := 0
  lastSampleNs : Nat := 0
  deriving DecidableEq, Repr

/-! ### Faults (chapter 17) -/

/-- The pointing states (Table 5 of the fault chapter). -/
inductive PointState where
  | inService | suspect | fenced | covered | repairing | retired
  deriving DecidableEq, Repr

/-- A unit under pointing: its state, the times of its transient faults of the last second, of its disagreements, of its hangs. -/
structure UnitSt where
  st : PointState := .inService
  transients : List Nat := []
  disagreements : List Nat := []
  hangs : List Nat := []
  deriving DecidableEq, Repr

/-- A lease (R471): its kind (row of Table 8, 0 to 6), its holder's unit key, the pallet or request it covers, when it expires. -/
structure Lease where
  id : Nat
  kind : Fin 7
  holder : Nat
  pdie : Die := 0
  pallet : Nat := 0
  until_ : Nat := 0
  deriving DecidableEq, Repr

/-- The warden's fault side (R478 to R480). Units are keyed by kind times 2^32 plus the unit field of R478. `courses` maps a
logical course to its physical C-die, none while it is absent; `rehoming` the spares being brought in and their courses; `subst` a brick to
the standby brick that replaces it; `replacing` the partitions with a stage to be placed again; `overrides` the units that the maker's
override retires or returns at the next start-up. -/
structure FaultSt where
  records : Map (List Byte) := []
  head : Word := 0
  sel : Nat := 0
  standbyOk : Bool := false
  activeW : Bool := false
  units : Map UnitSt := []
  leases : List Lease := []
  repairGen : Word := 0
  retiredGroups : Map (BitVec 16) := []
  retiredBricks : List Nat := []
  courses : Map (Option (Fin 18)) := []
  rehoming : List (Fin 18 × Course) := []
  sparesUsed : List Nat := []
  retiredCdies : List Nat := []
  subst : Map Nat := []
  retests : List Nat := []
  overrides : List (Nat × Bool) := []
  replacing : List Nat := []
  cnt : Map (BitVec 48) := []
  deriving DecidableEq, Repr

/-! ### Device registers (chapter 21) and what leaves the device -/

/-- The DEV and EPO registers, the fused values, split accesses in progress (R537, R538). -/
structure DevSt where
  grade : Fin 3 := 0
  vendor : BitVec 16 := 0
  revision : BitVec 16 := 0
  serial : DWord := 0
  deviceId : DWord := 0
  capsGen : Word := 0
  badAccess : Bool := false
  intStatus : BitVec 6 := 0
  intEn : BitVec 4 := 0
  mgmtInt : Bool := false
  lastTc : DWord := 0
  lastKind : Fin 3 := 1
  lastPart : Part := 0
  sched : List (DWord × Fin 3 × Part) := []
  heldLow : Map (Nat × Word) := []
  latchedHigh : Map Word := []
  readData : DWord := 0
  aerErrors : Nat := 0
  numVfs : Nat := 0
  xlateRev : Word := 0
  deriving DecidableEq, Repr

/-- What the device has sent to the host and over the management paths: ring and writeback writes, MSI-X messages (function, vector),
replies on a path. -/
structure HostOut where
  writes : List (Nat × List Byte) := []
  messages : List (Nat × Nat) := []
  replies : List (Nat × List Byte) := []
  deriving DecidableEq, Repr

/-- The whole block: bricks by C-die times 16 plus brick, dies and partitions by number, models by partition, and the warden. `freeIx`
counts the free values read so far (the model's own field). -/
structure State where
  bricks : Map BrickSt := []
  pdies : Map PDie := []
  ldies : Map LDieQ := []
  sdies : Map SDie := []
  grants : List Grant := []
  parts : Map PartSt := []
  models : Map ModelSt := []
  link : LinkSt := {}
  st : StructSt := {}
  loops : LoopSt := {}
  power : PowerSt := {}
  auth : AuthSt := {}
  time : TimeSt := {}
  obs : ObsSt := {}
  flt : FaultSt := {}
  dev : DevSt := {}
  out : HostOut := {}
  freeIx : Nat := 0
  pending : List Instr := []
  deriving DecidableEq, Repr

/-- The block right after power-on, before the kiln: every register at its reset value, every memory empty, no command waiting. -/
def State.reset : State := {}

end Sys2Proof.Machine
end

