-- ==== Sys2Proof/Machine/BrickCore.lean ====
section
/-!
DEFINITION. One brick by itself: its registers, its flags and counters, the landing of results in flight, halts, exception
entry and return, and the brick reset (chapter 8).
-/

namespace Sys2Proof.Machine

open Sys2Proof

/-! ### Registers and memories -/

/-- A scalar register as read: s0 reads zero (R207). -/
def getS (b : BrickSt) (i : SReg) : Word := if i = 0 then 0 else b.r.s.get i

/-- A scalar register written: a write to s0 is discarded (R255). -/
def setS (i : SReg) (v : Word) (b : BrickSt) : BrickSt :=
  if i = 0 then b else { b with r := { b.r with s := b.r.s.set i.val v i.isLt } }

/-- The stack pointer, s31 (R207). -/
def spReg : SReg := 31

/-- The program counter set. -/
def setPc (pc : BitVec 13) (b : BrickSt) : BrickSt := { b with r := { b.r with pc := pc } }

/-- The sticky number conditions raised (R126, R144). -/
def stick (f : NumFlags) (b : BrickSt) : BrickSt :=
  { b with num := { b.num with flush := b.num.flush || f.flush, overflow := b.num.overflow || f.overflow,
                               invalid := b.num.invalid || f.invalid } }

/-- A little-endian word of DMEM. -/
def dmemRead (b : BrickSt) (a n : Nat) : Nat := leNat (memBytes b.m.dmem a n)

/-- Bytes written to DMEM, least significant first. -/
def dmemWrite (a n v : Nat) (b : BrickSt) : BrickSt :=
  { b with m := { b.m with dmem := memPutBytes a (leBytes n v) b.m.dmem } }

/-- Bytes written to BMEM; a store never changes a loaded bit (R210). -/
def bmemWrite (a : Nat) (bs : List Byte) (b : BrickSt) : BrickSt :=
  { b with m := { b.m with bmem := memPutBytes a bs b.m.bmem } }

/-- Bytes written to the staging area; what lies beyond its 64 KiB is not there (R262). -/
def stagingWrite (a : Nat) (bs : List Byte) (b : BrickSt) : BrickSt :=
  { b with m := { b.m with staging := memPutBytes a (bs.take (65536 - a)) b.m.staging } }

/-- The window of a number. -/
def win (b : BrickSt) (w : Fin 4) : Win := b.wins.get w

/-- Whether a parameter register has been patched (R229). -/
def isPatched (b : BrickSt) (w : Fin 4) (n : Nat) : Bool := (b.params.get w).patched.getLsbD n

/-- A parameter register of a window. -/
def param (b : BrickSt) (w : Fin 4) (n : Fin 16) : DWord := (b.params.get w).vals.get n

/-- Whether DMEM bytes lie in a window's range or in the stack window (R211). -/
def dmemInside (b : BrickSt) (w : Fin 4) (a n : Nat) : Bool :=
  let x := win b w
  (decide (x.dmemBase * 256 ≤ a) && decide (a + n ≤ x.dmemBase * 256 + x.dmemLen * 256)) ||
  (decide (b.c.stkLo.toNat ≤ a) && decide (a + n - 1 ≤ b.c.stkHi.toNat))

/-- Whether BMEM bytes lie in a window's pages (R211). -/
def bmemInside (b : BrickSt) (w : Fin 4) (a n : Nat) : Bool :=
  let x := win b w
  decide (x.bmemBase * 4096 ≤ a) && decide (a + n ≤ (x.bmemBase + x.bmemPages) * 4096)

/-- The first byte of a BMEM range that lies in a page whose loaded bit is clear (R210). -/
def unloadedIn (b : BrickSt) (a n : Nat) : Option Nat :=
  (List.range (if n = 0 then 0 else (a + n - 1) / 4096 + 1 - a / 4096)).findSome? (fun i =>
    let p := a / 4096 + i
    if b.m.loaded.getLsbD p then none else some (if i = 0 then a else p * 4096))

/-! ### Flags, counters and signals (R214 to R218) -/

/-- Raise a signal on an identifier: a flag already 1 sets flag_overrun, a counter at 255 sets counter_sat. -/
def raiseSig (id : BitVec 6) (b : BrickSt) : BrickSt :=
  if id = 0 then b
  else if h : id.toNat < 32 then
    if b.r.flags.getLsbD id.toNat then { b with c := { b.c with flagOverrun := true } }
    else { b with r := { b.r with flags := b.r.flags ||| (1#32 <<< id.toNat) } }
  else if h : id.toNat - 32 < 16 then
    let v := b.r.counters[id.toNat - 32]
    if v = 255 then { b with c := { b.c with counterSat := true } }
    else { b with r := { b.r with counters := b.r.counters.set (id.toNat - 32) (v + 1) h } }
  else b

/-- Set a flag or counter to 0 (R254); identifier 0 does nothing. -/
def clearId (id : BitVec 6) (b : BrickSt) : BrickSt :=
  if id = 0 then b
  else if id.toNat < 32 then { b with r := { b.r with flags := b.r.flags &&& ~~~(1#32 <<< id.toNat) } }
  else if h : id.toNat - 32 < 16 then { b with r := { b.r with counters := b.r.counters.set (id.toNat - 32) 0 h } }
  else b

/-- Whether n waits on one identifier are satisfied: a flag must be 1, a counter at least n (R215 to R217). -/
def waitOk (b : BrickSt) (id : BitVec 6) (n : Nat) : Bool :=
  if id = 0 then true
  else if id.toNat < 32 then b.r.flags.getLsbD id.toNat
  else if h : id.toNat - 32 < 16 then decide (n ≤ b.r.counters[id.toNat - 32].toNat)
  else false

/-- Whether every wait of a list is satisfied, each identifier checked once with its number of waits (R217). -/
def waitsOk (b : BrickSt) (ws : List (BitVec 6)) : Bool := ws.all (fun w => waitOk b w (ws.count w))

/-- Consume one wait: a flag is cleared, a counter lowered by 1 (R215, R216). -/
def consumeWait (b : BrickSt) (id : BitVec 6) : BrickSt :=
  if id = 0 then b
  else if id.toNat < 32 then { b with r := { b.r with flags := b.r.flags &&& ~~~(1#32 <<< id.toNat) } }
  else if h : id.toNat - 32 < 16 then
    { b with r := { b.r with counters := b.r.counters.set (id.toNat - 32) (b.r.counters[id.toNat - 32] - 1) h } }
  else b

/-- Raise a signal in a given cycle: it is seen by waits from the next cycle (R218). -/
def signalAt (t : Nat) (id : BitVec 6) (b : BrickSt) : BrickSt :=
  if id = 0 then b
  else if t < b.r.cycle then raiseSig id b
  else { b with fl := { b.fl with sigs := b.fl.sigs ++ [(t, id)] } }

/-! ### Results in flight (R219, R223, R226) -/

/-- Land a scalar load. -/
def landLoad (l : LoadDue) (b : BrickSt) : BrickSt := signalAt l.due l.sig (setS l.rd l.value b)

/-- Land a vector result. -/
def landVec (l : VecDue) (b : BrickSt) : BrickSt :=
  signalAt l.due l.sig { b with vec := { b.vec with v := b.vec.v.set l.vd.val l.value l.vd.isLt } }

/-- A 24-bit count saturated (R173). -/
def sat24 (n : Nat) : BitVec 24 := BitVec.ofNat 24 (min n 0xFFFFFF)

/-- One element added to its statistics slot in binary64 (R155). -/
def addStat (st : Map StatSlot) (e : StatElem) : Map StatSlot :=
  mapMod {} e.slot (fun s =>
    let s := if e.counted then { s with sumX2 := dadd s.sumX2 e.x2, sumE2 := dadd s.sumE2 e.e2, count := s.count + 1 } else s
    { s with clamped := sat24 (s.clamped.toNat + b2n e.clamped), nonfinite := sat24 (s.nonfinite.toNat + b2n e.nonfinite) }) st

/-- Land a quantise result: codes in the staging area, statistics, signal. -/
def landQuant (l : QuantDue) (b : BrickSt) : BrickSt :=
  let b := l.writes.foldl (fun b w => stagingWrite w.1 w.2 b) b
  signalAt l.due l.sig { b with vec := { b.vec with stats := l.stats.foldl addStat b.vec.stats } }

/-- The cycle in which a pass raises its signal (R177, R193). -/
def PassDue.due (p : PassDue) : Nat := p.t0 + (if p.quartered then 519 else 392)

/-- The cycle in which row r of a pass is written. -/
def PassDue.rowAt (p : PassDue) (r : Nat) : Nat := p.t0 + 264 + (if p.quartered then 2 * r else r)

/-- The key of a row of the accumulator store: bank times 128 plus row. -/
def accKey (bank r : Nat) : Nat := bank * 128 + r

/-- Write one row of a bank, or one half of it for a half-bank: half-bank h is the west half of bank h/2 when h is even and
its east half when h is odd (R194). -/
def accPut (quartered : Bool) (dst r : Nat) (row : VecVal × Bool) (acc : Map AccRow) : Map AccRow :=
  if quartered then
    let off := 64 * (dst % 2)
    mapMod {} (accKey (dst / 2) r) (fun old =>
      { lanes := Vector.ofFn (fun i : Fin 128 =>
          if h : off ≤ i.val ∧ i.val < off + 64 then row.1.get ⟨i.val - off, by omega⟩ else old.lanes.get i),
        absent := old.absent }) acc
  else mapSet (accKey dst r) { lanes := row.1, absent := row.2 } acc

/-- The absent flags of half-banks are kept beside the rows, at keys from 1024 on (R194). -/
def accFlagPut (quartered : Bool) (dst r : Nat) (a : Bool) (acc : Map AccRow) : Map AccRow :=
  if quartered then mapMod {} (1024 + accKey dst r) (fun old => { old with absent := a }) acc else acc

/-- The store with the rows of a pass that are written by a cycle. -/
def passRows (p : PassDue) (t : Nat) (acc : Map AccRow) : Map AccRow :=
  (List.range 128).foldl (fun acc r =>
    if p.rowAt r ≤ t then
      let row := p.rows.getD r (Vector.replicate 128 0, false)
      accFlagPut p.quartered p.dst r row.2 (accPut p.quartered p.dst r row acc)
    else acc) acc

/-- The accumulator store as a cycle finds it: the rows that the passes in flight have written by then (R184). -/
def accAt (b : BrickSt) (t : Nat) : Map AccRow := b.fl.passes.foldl (fun acc p => passRows p t acc) b.arr.acc

/-- One row of a bank (128 lanes), or of a half-bank (lanes 0 to 63, the rest +0), with its absent flag (R225). -/
def accRow (acc : Map AccRow) (quartered : Bool) (bank r : Nat) : VecVal × Bool :=
  if quartered then
    let row := mapGet {} acc (accKey (bank / 2) r)
    let off := 64 * (bank % 2)
    (Vector.ofFn (fun i : Fin 128 => if h : i.val < 64 then row.lanes.get ⟨i.val + off, by omega⟩ else 0),
      (mapGet {} acc (1024 + accKey bank r)).absent)
  else
    let row := mapGet {} acc (accKey bank r)
    (row.lanes, row.absent)

/-- Land a whole pass: its rows in the store, its signal raised. -/
def landPass (p : PassDue) (b : BrickSt) : BrickSt :=
  signalAt p.due p.sig { b with arr := { b.arr with acc := passRows p p.due b.arr.acc } }

/-- The cycle after a fill's last cell write (R180, R195, Table 2 of the brick chapter). -/
def FillDue.due (f : FillDue) : Nat := f.l0 + (if f.quartered then 127 else 255)

/-- Apply the signals that have become visible: those raised before the present cycle (R218). -/
def applySigs (b : BrickSt) : BrickSt :=
  let ripe := b.fl.sigs.filter (fun p => decide (p.1 < b.r.cycle))
  let rest := b.fl.sigs.filter (fun p => !decide (p.1 < b.r.cycle))
  ripe.foldl (fun b p => raiseSig p.2 b) { b with fl := { b.fl with sigs := rest } }

/-- A finished stream noted for the trace (R524): its window's partition, its descriptor and its bytes. -/
def streamTrace (d : Nat) (st : Stream) (b : BrickSt) : BrickSt :=
  let w : Fin 4 := Fin.ofNat 4 (bits 59 58 (st.desc.get 0).toNat)
  { b with perf := { b.perf with traces := b.perf.traces ++ [(8, (b.wins.get w).part.val, BitVec.ofNat 8 d :: leBytes 8 st.moved)] } }

/-- The operand streams that have delivered their last byte end, each with its one signal (R267). -/
def landStreams (b : BrickSt) : BrickSt :=
  let ended := fun (p : Nat × Stream) => p.2.consumed && decide (p.2.endsAt ≤ b.r.cycle)
  (b.fl.streams.filter ended).foldl (fun b p => signalAt p.2.endsAt p.2.sig (streamTrace p.1 p.2 b))
    { b with fl := { b.fl with streams := b.fl.streams.filter (fun p => !ended p) } }

/-- Land everything that is due by the present cycle, oldest first. -/
def landDue (b : BrickSt) : BrickSt :=
  let t := b.r.cycle
  let f := b.fl
  let b := { b with fl := { b.fl with
    loads := f.loads.filter (fun l => !decide (l.due ≤ t)), vecs := f.vecs.filter (fun l => !decide (l.due ≤ t)),
    quants := f.quants.filter (fun l => !decide (l.due ≤ t)), passes := f.passes.filter (fun p => !decide (p.due ≤ t)),
    fills := f.fills.filter (fun p => !decide (p.due ≤ t)) } }
  let b := (f.loads.filter (fun l => decide (l.due ≤ t))).foldl (fun b l => landLoad l b) b
  let b := (f.vecs.filter (fun l => decide (l.due ≤ t))).foldl (fun b l => landVec l b) b
  let b := (f.quants.filter (fun l => decide (l.due ≤ t))).foldl (fun b l => landQuant l b) b
  let b := (f.passes.filter (fun p => decide (p.due ≤ t))).foldl (fun b p => landPass p b) b
  landStreams ((f.fills.filter (fun p => decide (p.due ≤ t))).foldl (fun b p => signalAt p.due p.sig b) b)

/-- The timer after n cycles, and whether it passed from 1 to 0 (R259). -/
def timerAfter (n : Nat) (t : Word) : Word × Bool :=
  if t = 0 then (0, false) else if t.toNat ≤ n then (0, true) else (t - BitVec.ofNat 32 n, false)

/-- Let the brick's own cycles run on to a cycle: the timer counts, what is due lands, signals become visible. Nothing runs
in a brick that is frozen or halted (R222, R259). -/
def advanceTo (t : Nat) (b : BrickSt) : BrickSt :=
  if t ≤ b.r.cycle then b
  else
    let (tm, fired) := timerAfter (t - b.r.cycle) b.r.timer
    applySigs (landDue { b with r := { b.r with cycle := t, timer := tm, pendTimer := b.r.pendTimer || fired } })

/-- One or more cycles run on. -/
def advance (n : Nat) (b : BrickSt) : BrickSt := advanceTo (b.r.cycle + n) b

/-- Whether the brick's cycles run: not while frozen, halted, fenced, retired, off or in reset (R222, R245). -/
def clocked (b : BrickSt) : Bool := b.c.phase == .running || b.c.phase == .idle

/-! ### Halts (R240 to R242) -/

/-- Halt the brick: reason, slot (6 where no slot is at fault), bundle address, detail, prior cause. Rows already written stay
written, a pass in flight is abandoned, streams stop, a pending asynchronous cause is dropped. -/
def haltBrick (reason : Byte) (slot : Fin 8) (pc : BitVec 13) (info : Word) (prior : Byte) (b : BrickSt) : BrickSt :=
  { b with
    c := { b.c with phase := .halted, haltReason := reason, haltSlot := slot, lastReason := reason, haltPc := pc,
                    haltInfo := info, haltPrior := prior, haltWin := none, haltPoison := false, stallWaits := [], stallReplay := false, stallHandler := false },
    r := { b.r with pendTimer := false, pendDoorbell := none },
    arr := { b.arr with acc := accAt b b.r.cycle },
    fl := {} }

/-! ### Code regions and the exception machinery (R208, R234 to R238) -/

/-- The region that holds a bundle address. -/
def regionAt (b : BrickSt) (pc : BitVec 13) : Option Region :=
  b.regions.toList.find? (fun r => r.valid && decide (r.base.toNat ≤ pc.toNat) && decide (pc.toNat < r.base.toNat + r.length))

/-- Whether a bundle address may be fetched: in a valid region whose stamp is the brick's capability hash (R208, R282). -/
def fetchOk (b : BrickSt) (pc : BitVec 13) : Bool :=
  match regionAt b pc with
  | some r => r.stamp == b.c.capHash
  | none => false

/-- What BRK_HALT_INFO holds after a fetch that may not be: the stale stamp, or the address (Table 8 of the brick chapter). -/
def fetchInfo (b : BrickSt) (pc : BitVec 13) : Word :=
  match regionAt b pc with
  | some r => r.stamp
  | none => pc.setWidth 32

/-- The exception causes (R234). -/
def causeTrap : Byte := 1
def causeTimer : Byte := 2
def causeDoorbell : Byte := 3

/-- Whether the frame of an entry fits: sp a multiple of 32, and the 32 bytes below it inside the stack window (R235). -/
def frameFits (b : BrickSt) : Bool :=
  let sp := (getS b spReg).toNat
  decide (sp % 32 = 0) && decide (32 ≤ sp) && decide (b.c.stkLo.toNat + 32 ≤ sp) && decide (sp - 1 ≤ b.c.stkHi.toNat)

/-- The bytes of an exception frame (Table 7 of the brick chapter). -/
def frameBytes (b : BrickSt) (cause : Byte) (info : Word) (ret : BitVec 13) : List Byte :=
  leBytes 4 (cause.toNat * 2 ^ 24 + ret.toNat) ++ leBytes 4 info.toNat ++ leBytes 4 (b2n b.r.ie) ++ leBytes 4 0
    ++ leBytes 4 (getS b 1).toNat ++ leBytes 4 (getS b 2).toNat ++ leBytes 4 (getS b 3).toNat ++ leBytes 4 (getS b 4).toNat

/-- Take an exception (R235 to R237): the checks in order, then the frame, sp, depth, ie and pc. `haltPc` is the bundle that
a halt of the entry names: the TRAP's own, or the one that would have issued next. -/
def excEntry (cause : Byte) (info : Word) (ret haltPc : BitVec 13) (b : BrickSt) : BrickSt :=
  let sp := getS b spReg
  if !frameFits b then haltBrick 0x08 6 haltPc sp cause b
  else if b.r.excDepth = 15 then haltBrick 0x09 6 haltPc 15 cause b
  else
    let b' := { b with m := { b.m with dmem := memPutBytes (sp.toNat - 32) (frameBytes b cause info ret) b.m.dmem } }
    let target : BitVec 13 := b.c.excVec + cause.setWidth 13
    if !fetchOk b target then haltBrick 0x09 6 haltPc (target.setWidth 32) cause b'
    else
      let b'' := setS spReg (sp - 32) b'
      { b'' with r := { b''.r with excDepth := b.r.excDepth + 1, ie := false, pc := target } }

/-- The halt conditions of RFE (R238): depth 0, sp not a multiple of 32, the frame outside the stack window. -/
def rfeHalts (b : BrickSt) : List (Nat × Word) :=
  let sp := getS b spReg
  (if b.r.excDepth = 0 then [(0x01, (0x3B : Word))] else [])
  ++ (if sp.toNat % 32 ≠ 0 then [(0x05, sp)] else [])
  ++ (if sp.toNat < b.c.stkLo.toNat ∨ b.c.stkHi.toNat < sp.toNat + 31 then [(0x06, sp)] else [])

/-- Return from an exception (R238): pc, ie and s1 to s4 from the frame, sp up by 32, depth down by 1. -/
def excReturn (b : BrickSt) : BrickSt :=
  let sp := (getS b spReg).toNat
  let w := fun i => BitVec.ofNat 32 (dmemRead b (sp + i) 4)
  let b' := setS 1 (w 16) (setS 2 (w 20) (setS 3 (w 24) (setS 4 (w 28) b)))
  let b' := setS spReg (BitVec.ofNat 32 (sp + 32)) b'
  { b' with r := { b'.r with pc := (w 0).setWidth 13, ie := (w 8).getLsbD 0, excDepth := b.r.excDepth - 1 } }

/-- Take the pending asynchronous exception, if the brick may: between two bundles, ie = 1, and in lock-step mode not while a
replay runs (R234, R239). TIMER goes before DOORBELL. -/
def takeAsync (b : BrickSt) : BrickSt :=
  if !b.r.ie then b
  else if b.r.pendTimer then
    excEntry causeTimer 0 b.r.pc b.r.pc { b with r := { b.r with pendTimer := false } }
  else
    match b.r.pendDoorbell with
    | some m => excEntry causeDoorbell m b.r.pc b.r.pc { b with r := { b.r with pendDoorbell := none } }
    | none => b

/-! ### Brick reset (R246) -/

/-- The effect of a brick reset: registers, vectors, flags, counters, exception state, timer, parameters, descriptors, DMEM,
the halt reason, the sticky status and the statistics; code, BMEM, windows, the stack window and the array stay. -/
def brickReset (b : BrickSt) : BrickSt :=
  { b with
    r := { pc := b.r.pc },
    c := { b.c with phase := .reset, haltReason := 0, haltSlot := 6, counterSat := false, flagOverrun := false,
                    stallWaits := [], stallReplay := false, stallHandler := false },
    m := { b.m with dmem := [] },
    vec := {},
    fl := {},
    params := b.params.map (fun p => { p with patched := 0, pending := none }),
    descs := b.descs.map (fun d => d.set 0 (d[0] &&& 0x0FFFFFFFFFFFFFFF#64)),
    num := {} }

end Sys2Proof.Machine
end

