-- ==== Sys2Proof/Machine/Scalar.lean ====
section
/-!
DEFINITION. The sync and scalar slots of a bundle: what each operation computes from the registers as they stood before the
bundle (Tables 2 and 4 of the bundle chapter), and the halt conditions it meets at issue.
-/

namespace Sys2Proof.Machine

open Sys2Proof

/-- A condition that halts the brick at issue: reason and detail (Table 8 of the brick chapter). -/
abbrev HaltCond := Nat × Word

/-- A condition listed when it holds. -/
def cond (p : Bool) (reason : Nat) (info : Word) : List HaltCond := if p then [(reason, info)] else []

/-! ### Scalar arithmetic -/

/-- The three-register operations by opcode 0x01 to 0x0B (Table 4 of the bundle chapter). -/
def aluOp (op : Nat) (a b : Word) : Word :=
  match op with
  | 0x01 => a + b
  | 0x02 => a - b
  | 0x03 => a &&& b
  | 0x04 => a ||| b
  | 0x05 => a ^^^ b
  | 0x06 => a <<< (b.toNat % 32)
  | 0x07 => a >>> (b.toNat % 32)
  | 0x08 => a.sshiftRight (b.toNat % 32)
  | 0x09 => if a.slt b then 1 else 0
  | 0x0A => if a.ult b then 1 else 0
  | 0x0B => a * b
  | _ => 0

/-- The immediate operations by opcode 0x10 to 0x17: the immediate is sign-extended but for the logical three. -/
def aluImmOp (op : Nat) (a : Word) (imm : BitVec 12) : Word :=
  match op with
  | 0x10 => a + imm.signExtend 32
  | 0x11 => a &&& imm.setWidth 32
  | 0x12 => a ||| imm.setWidth 32
  | 0x13 => a ^^^ imm.setWidth 32
  | 0x14 => a <<< (imm.toNat % 32)
  | 0x15 => a >>> (imm.toNat % 32)
  | 0x16 => a.sshiftRight (imm.toNat % 32)
  | 0x17 => if a.slt (imm.signExtend 32) then 1 else 0
  | _ => 0

/-- The branch conditions by opcode 0x30 to 0x35. -/
def branchTaken (op : Nat) (a b : Word) : Bool :=
  match op with
  | 0x30 => a == b
  | 0x31 => a != b
  | 0x32 => a.slt b
  | 0x33 => !a.slt b
  | 0x34 => a.ult b
  | 0x35 => !a.ult b
  | _ => false

/-- The bytes of a DMEM access by opcode: LDB, LDBU, LDH, LDHU, LDW, STB, STH, STW. -/
def accessBytes (op : Nat) : Nat :=
  match op with
  | 0x20 => 1
  | 0x21 => 1
  | 0x22 => 2
  | 0x23 => 2
  | 0x28 => 1
  | 0x29 => 2
  | _ => 4

/-- The value a load gives: LDB and LDH extend the sign, the others zeros. -/
def loadValue (op : Nat) (v : Nat) : Word :=
  match op with
  | 0x20 => (BitVec.ofNat 8 v).signExtend 32
  | 0x22 => (BitVec.ofNat 16 v).signExtend 32
  | _ => BitVec.ofNat 32 v

/-- The DMEM address of a load or store: rs1 + imm10 sign-extended, modulo 2^32 (R256). -/
def dmemAddr (b : BrickSt) (rs1 : SReg) (imm : BitVec 10) : Word := getS b rs1 + imm.signExtend 32

/-- The halt conditions of a DMEM access (R209, R211, R256). -/
def dmemHalts (b : BrickSt) (w : Fin 4) (a : Word) (n : Nat) : List HaltCond :=
  cond (a.toNat % n != 0) 0x05 a
  ++ cond (!(win b w).valid || decide (0x10000 ≤ a.toNat) || !dmemInside b w a.toNat n) 0x06 a

/-- A scalar result written at issue + 1. -/
def wr (rd : SReg) (v : Word) (b : BrickSt) : BrickSt := setS rd v b

/-- Half of a 64-bit register: [31:0] or [63:32]. -/
def halfOf (v : DWord) (hi : Bool) : Word := if hi then (v >>> 32).setWidth 32 else v.setWidth 32

/-- A 64-bit register with one half replaced. -/
def withHalf (v : DWord) (hi : Bool) (x : Word) : DWord :=
  if hi then (v &&& 0x00000000FFFFFFFF#64) ||| (x.setWidth 64 <<< 32) else (v &&& 0xFFFFFFFF00000000#64) ||| x.setWidth 64

/-- The absent flags of rows 32w to 32w + 31 of a bank or half-bank, row 32w in bit 0 (R225). -/
def absentBits (b : BrickSt) (bank : Fin 8) (w : Fin 4) : Word :=
  let acc := accAt b b.r.cycle
  (List.range 32).foldl (fun v i =>
    if (accRow acc b.arr.layout bank.val (32 * w.val + i)).2 then v ||| (1#32 <<< i) else v) 0

/-! ### The replay (R230, R231) -/

/-- The windows that have a full pending set, in ascending order. -/
def fullWins (b : BrickSt) : List (Fin 4) :=
  (List.finRange 4).filter (fun w => (win b w).valid && (b.params.get w).pending.isSome)

/-- The p7 that a window's pending set carries. -/
def pendingP7 (b : BrickSt) (w : Fin 4) : Option DWord := ((b.params.get w).pending.bind (mapFind 7))

/-- The entry bundle that the pending sets name: p7 bits [12:0] of the first. -/
def replayEntry (b : BrickSt) : BitVec 13 :=
  match fullWins b with
  | w :: _ => ((pendingP7 b w).getD 0).setWidth 13
  | [] => b.r.pc

/-- The stamp a p7 carries. -/
def p7Stamp (p : DWord) : Word := (p >>> 32).setWidth 32

/-- The first stamp check that fails at a REPLAY (R231): every full set carries a p7 of the same entry with the stamp of the
capability hash, and the entry lies in a valid region of that stamp. -/
def replayStampFail (b : BrickSt) : Option Word :=
  let entry := replayEntry b
  match (fullWins b).findSome? (fun w =>
      match pendingP7 b w with
      | none => some (0 : Word)
      | some p => if p7Stamp p ≠ b.c.capHash ∨ p.setWidth 13 ≠ entry then some (p7Stamp p) else none) with
  | some st => some st
  | none => if fetchOk b entry then none else some (fetchInfo b entry)

/-- Take the pending sets: copy each named register and set its patched bit; a window that was patched before and has no full
set takes an empty pallet, p1 and p2 zero (R230). The finalised exponents of R265 end with the replay. -/
def replayTake (b : BrickSt) : BrickSt :=
  let step := fun (p : ParamFile) (valid ever : Bool) =>
    match p.pending with
    | some ps => if valid then
        { vals := ps.foldl (fun v kv => if h : kv.1 < 16 then v.set kv.1 kv.2 h else v) p.vals,
          patched := ps.foldl (fun m kv => m ||| (1#16 <<< kv.1)) p.patched, pending := none }
        else p
    | none => if valid && ever then { p with vals := (p.vals.set 1 0).set 2 0 } else p
  let full := fullWins b
  { b with
    params := Vector.ofFn (fun w : Fin 4 => step (b.params.get w) (win b w).valid (b.everPatched.getLsbD w.val))
    everPatched := full.foldl (fun m w => m ||| (1#4 <<< w.val)) b.everPatched
    vec := { b.vec with exps := [] }
    perf := { b.perf with traces := b.perf.traces ++ [(5, 0xFFFF, leBytes 2 (replayEntry b).toNat)] }
    r := { b.r with pc := replayEntry b } }

/-! ### Halt conditions of the sync and scalar slots -/

/-- The halt conditions of an operation of the sync or scalar slot at issue (Table 10 of the bundle chapter). -/
def scalarHalts (b : BrickSt) (op : SlotOp) : List HaltCond :=
  match op with
  | .replay => match replayStampFail b with
    | some st => [(0x0D, st)]
    | none => []
  | .barrier rel _ => cond (decide (48 ≤ rel.toNat)) 0x03 (rel.setWidth 32)
  | .clear id => cond (decide (48 ≤ id.toNat)) 0x03 (id.setWidth 32)
  | .afr _ bank _ => cond (decide (4 ≤ bank.val) && !b.arr.layout) 0x0B 0
  | .aluImm op _ _ imm => cond (decide (0x14 ≤ op ∧ op ≤ 0x16) && decide (32 ≤ imm.toNat)) 0x02 0
  | .ld op _ rs1 w imm => dmemHalts b w (dmemAddr b rs1 imm) (accessBytes op)
  | .st op _ rs1 w imm => dmemHalts b w (dmemAddr b rs1 imm) (accessBytes op)
  | .prd _ w n _ =>
    cond (!isPatched b w n.val) 0x04 (BitVec.ofNat 32 (w.val * 16 + n.val)) ++ cond (!(win b w).valid) 0x06 0
  | .rfe => rfeHalts b
  | .halt imm => [(0x0F, imm.setWidth 32)]
  | _ => []

/-! ### Effects of the sync and scalar slots -/

/-- The effect of a sync- or scalar-slot operation: `b0` is the brick before the bundle, `b` the brick so far; the program
counter has already been moved on (R253 to R259, R269). TRAP, HALT, TMR and REPLAY are taken by the issue itself. -/
def scalarEffect (b0 : BrickSt) (sig : BitVec 6) (op : SlotOp) (b : BrickSt) : BrickSt :=
  let t := b0.r.cycle
  match op with
  | .nop => b
  | .barrier rel bar => { b with fl := { b.fl with arrivals := b.fl.arrivals ||| (1#4 <<< bar.val),
                                                   releases := mapSet bar.val rel b.fl.releases } }
  | .clear id => clearId id b
  | .alu op rd x y => wr rd (aluOp op (getS b0 x) (getS b0 y)) b
  | .rdcyc rd => wr rd (BitVec.ofNat 32 t) b
  | .afr rd bank w => wr rd (absentBits b0 bank w) b
  | .aluImm op rd x imm => wr rd (aluImmOp op (getS b0 x) imm) b
  | .lhi rd imm => wr rd (imm.setWidth 32 <<< 15) b
  | .llo rd imm => wr rd ((getS b0 rd &&& 0xFFFF8000#32) ||| imm.setWidth 32) b
  | .ld op rd x _ imm =>
    let a := (dmemAddr b0 x imm).toNat
    { b with fl := { b.fl with loads := b.fl.loads ++
        [{ due := t + 3, rd, value := loadValue op (dmemRead b0 a (accessBytes op)), sig }] } }
  | .st op x base _ imm => dmemWrite (dmemAddr b0 base imm).toNat (accessBytes op) (getS b0 x).toNat b
  | .branch op x y off => if branchTaken op (getS b0 x) (getS b0 y) then setPc (b0.r.pc + off.signExtend 13) b else b
  | .jal rd target => setPc target (wr rd (BitVec.ofNat 32 (b0.r.pc.toNat + 1)) b)
  | .jr x => setPc ((getS b0 x).setWidth 13) b
  | .prd rd w n half => wr rd (halfOf (param b0 w n) half) b
  | .dwr rs d word half =>
    let old := b.descs.get d
    { b with descs := b.descs.set d.val (old.set word.val (withHalf (old.get word) half (getS b0 rs)) word.isLt) d.isLt }
  | .drd rd d word half => wr rd (halfOf ((b0.descs.get d).get word) half) b
  | .rfe => excReturn b
  | .ie v => { b with r := { b.r with ie := v } }
  | _ => b

/-- Whether a bundle's scalar operation leaves the ascending order of addresses (R208, R257): the target issues two cycles on. -/
def jumps (b0 : BrickSt) (op : SlotOp) : Bool :=
  match op with
  | .branch op x y _ => branchTaken op (getS b0 x) (getS b0 y)
  | .jal _ _ => true
  | .jr _ => true
  | .rfe => true
  | _ => false

/-- The cycle after issue in which a sync- or scalar-slot operation raises its signal (Table 2 of the brick chapter); a load
raises its own when it lands. -/
def scalarSigAt (pos : SlotPos) (op : SlotOp) : Option Nat :=
  match pos, op with
  | .sync, _ => some 0
  | _, .nop => some 0
  | _, .ld _ _ _ _ _ => none
  | _, _ => some 1

end Sys2Proof.Machine
end

