-- ==== Sys2Proof/Machine/VectorUnit.lean ====
section
/-!
DEFINITION. The vector slot: lane-wise FP32 operations, reductions, lookups, memory and accumulator reads (Table 5 of the bundle
chapter), and the quantiser (R146 to R155, R263 to R266).
-/

namespace Sys2Proof.Machine

open Sys2Proof

/-- A vector register as read. -/
def getV (b : BrickSt) (i : VReg) : VecVal := b.vec.v.get i

/-- A lane-wise operation that raises conditions. -/
def lanes2 (f : Word → Word → Word × NumFlags) (x y : VecVal) : VecVal × NumFlags :=
  (Vector.ofFn (fun i : Fin 128 => (f (x.get i) (y.get i)).1),
    (List.finRange 128).foldl (fun a i => a.or (f (x.get i) (y.get i)).2) {})

/-- The two-register vector operations by opcode 0x01 to 0x05. -/
def vecOp2 (op : Nat) : Word → Word → Word × NumFlags :=
  match op with
  | 0x01 => fadd
  | 0x02 => fsub
  | 0x03 => fmul
  | 0x04 => fpick false
  | _ => fpick true

/-- The moves by opcode: VABS, VNEG, VMOV pass every pattern unchanged but for the sign (R126, R260). -/
def vecMove (op : Nat) (x : Word) : Word :=
  match op with
  | 0x06 => x &&& 0x7FFFFFFF#32
  | 0x07 => x ^^^ 0x80000000#32
  | _ => x

/-- VRSUM: lanes added in ascending order from lane 0, one rounding an addition (R261). -/
def vecSum (x : VecVal) : Acc :=
  (x.toList.drop 1).foldl (fun (a : Acc) y => let r := fadd a.1 y; (r.1, a.2.or r.2)) (x.get 0, {})

/-- VRMAX: lanes compared in ascending order (R261). -/
def vecMaxLane (x : VecVal) : Acc :=
  (x.toList.drop 1).foldl (fun (a : Acc) y => let r := fpick true a.1 y; (r.1, a.2.or r.2)) (fpick true (x.get 0) (x.get 0))

/-- A reduction's result: lane 0, the rest +0. -/
def lane0 (w : Word) : VecVal := Vector.ofFn (fun i : Fin 128 => if i = 0 then w else 0)

/-- The key of an activation lookup table: window, model epoch, table (R224). -/
def lutKey (w : Nat) (epoch : Nat) (table : Nat) : Nat := (w * 65536 + epoch) * 4 + table

/-- A lookup (R224): the segment is the number of breakpoints at most x; two roundings. The table lists 63 breakpoints, 64
slopes, 64 intercepts. -/
def lutLane (t : List Word) (x : Word) : Word × NumFlags :=
  let (v, fx) := fpRead fp32 x.toNat
  if v = .nan then ((0x7FC00000 : Word), fx.or { invalid := true })
  else
    let seg := ((t.take 63).filter (fun bp => let w := (fpRead fp32 bp.toNat).1
      match w, v with
      | .zero _, .zero _ => true
      | _, _ => !fpLess v w)).length
    let p := fmul (t.getD (63 + seg) 0) x
    let r := fadd p.1 (t.getD (127 + seg) 0)
    (r.1, (p.2.or r.2).or fx)

/-- A lane-wise lookup. -/
def vecLut (t : List Word) (x : VecVal) : VecVal × NumFlags := lanes2 (fun a _ => lutLane t a) x x

/-- The bytes of a vector register's memory image: lane i at bytes 4i to 4i + 3, little-endian (R260). -/
def vecBytes (x : VecVal) : List Byte := x.toList.flatMap (fun w => leBytes 4 w.toNat)

/-- A vector from 512 bytes. -/
def vecOfBytes (bs : List Byte) : VecVal :=
  Vector.ofFn (fun i : Fin 128 => BitVec.ofNat 32 (leNat ((bs.drop (4 * i.val)).take 4)))

/-- The table a VLUT names: that of the window's model epoch in p3 bits [47:32]. -/
def lutOf (b : BrickSt) (w table : Fin 4) : List Word :=
  mapGet [] b.m.luts (lutKey w.val (bits 47 32 (param b w 3).toNat) table.val)

/-! ### Quantiser descriptors (R263) -/

/-- A quantiser descriptor as its 32 bytes hold it. -/
structure QDesc where
  raw : List Byte
  deriving DecidableEq, Repr

/-- Byte i of a descriptor. -/
def QDesc.byte (q : QDesc) (i : Nat) : Nat := (q.raw.getD i 0).toNat
/-- outlier: the row carries outlier lanes. -/
def QDesc.outlier (q : QDesc) : Bool := bit 5 (q.byte 0)
/-- mult_en: apply the output multipliers. -/
def QDesc.multEn (q : QDesc) : Bool := bit 4 (q.byte 0)
/-- The group size. -/
def QDesc.group (q : QDesc) : Nat := 32 * 2 ^ bits 3 2 (q.byte 0)
/-- The target format. -/
def QDesc.elem (q : QDesc) : Elem :=
  match bits 1 0 (q.byte 0) with
  | 0 => .i4
  | 1 => .t2
  | _ => .i8
/-- Lanes written. -/
def QDesc.lanes (q : QDesc) : Nat := q.byte 1
/-- The scale code of a local group. -/
def QDesc.scale (q : QDesc) (g : Nat) : Nat := q.byte (4 + g)
/-- The BMEM address of the multipliers. -/
def QDesc.multAddr (q : QDesc) : Nat := leNat ((q.raw.drop 8).take 4)
/-- Whether outlier channel j is valid, and its lane. -/
def QDesc.outlierLane (q : QDesc) (j : Nat) : Option Nat :=
  if bit 7 (q.byte (12 + j)) then some (q.byte (12 + j) % 128) else none
/-- Statistics entry i. -/
def QDesc.statEntry (q : QDesc) (i : Nat) : Nat := leNat ((q.raw.drop (20 + 2 * i)).take 2)

/-- The BMEM address of descriptor qd of a window: p4 + 32 qd (R263). -/
def qdAddr (b : BrickSt) (w : Fin 4) (qd : Fin 32) : Nat := (param b w 4).toNat % 2 ^ 23 + 32 * qd.val

/-- The descriptor that a quantise operation reads at issue. -/
def qdRead (b : BrickSt) (w : Fin 4) (qd : Fin 32) : QDesc := ⟨memBytes b.m.bmem (qdAddr b w qd) 32⟩

/-- Whether a reserved field or value of a descriptor is set (R266, Table 6 of the bundle chapter). -/
def QDesc.reserved (q : QDesc) : Bool :=
  bits 7 6 (q.byte 0) != 0 || bits 3 2 (q.byte 0) == 3 || bits 1 0 (q.byte 0) == 3
  || q.lanes == 0 || decide (128 < q.lanes) || q.byte 2 != 0 || q.byte 3 != 0
  || q.multAddr / 2 ^ 23 != 0 || (!q.multEn && q.multAddr != 0)
  || (List.range 4).any (fun i => bits 8 4 (q.statEntry i) != 0)
  || (List.range 4).any (fun i => q.byte (28 + i) != 0)
  || (List.range 4).any (fun g => decide (ceilDiv q.lanes q.group ≤ g) && q.scale g != 0)

/-- Whether a scale code of a descriptor is reserved (R124, R266). -/
def QDesc.badScale (q : QDesc) : Option Nat :=
  ((List.range 4).map q.scale).find? s8Reserved

/-- Whether row r is valid in the window's row-valid mask in p1 and p2 (R232, R264). -/
def rowValid (b : BrickSt) (w : Fin 4) (r : Nat) : Bool :=
  if r < 64 then (param b w 1).getLsbD r else (param b w 2).getLsbD (r - 64)

/-- The output multiplier of a lane, where the descriptor has one. -/
def QDesc.mult (q : QDesc) (b : BrickSt) (lane : Nat) : Option Word :=
  if q.multEn then some (BitVec.ofNat 32 (leNat (memBytes b.m.bmem (q.multAddr + 4 * lane) 4))) else none

/-- The key of outlier channel j's running maximum in descriptor qd. -/
def maxKey (qd : Fin 32) (j : Nat) : Nat := qd.val * 8 + j

/-- The halt conditions that QNT and QSCAN share (R264 to R266): parameters not patched, the window, the descriptor's page,
its reserved fields and scales. -/
def quantHalts (b : BrickSt) (w : Fin 4) (qd : Fin 32) : List HaltCond :=
  let a := qdAddr b w qd
  let unp := [1, 2, 4].find? (fun n => !isPatched b w n)
  match unp with
  | some n => [(0x04, BitVec.ofNat 32 (w.val * 16 + n))] ++ cond (!(win b w).valid) 0x06 (BitVec.ofNat 32 a)
  | none =>
    if !(win b w).valid || !bmemInside b w a 32 then [(0x06, BitVec.ofNat 32 a)]
    else
      match unloadedIn b a 32 with
      | some x => [(0x07, BitVec.ofNat 32 x)]
      | none =>
        let q := qdRead b w qd
        cond q.reserved 0x02 0
        ++ (match q.badScale with
            | some c => [(0x10, BitVec.ofNat 32 c)]
            | none => [])
        ++ (if q.multEn then
              (if bmemInside b w q.multAddr 512 then [] else [(0x06, BitVec.ofNat 32 q.multAddr)])
              ++ (match unloadedIn b q.multAddr 512 with
                  | some x => [(0x07, BitVec.ofNat 32 x)]
                  | none => [])
            else [])

/-- The halt conditions of a vector-slot operation at issue (Table 10 of the bundle chapter). -/
def vectorHalts (b : BrickSt) (op : SlotOp) : List HaltCond :=
  match op with
  | .vlut _ _ _ w => cond (!(win b w).valid) 0x06 0
  | .vacc _ bank _ => cond (decide (4 ≤ bank.val) && !b.arr.layout) 0x0B 0
  | .vld _ w rs =>
    let a := getS b rs
    cond (a.toNat % 32 != 0) 0x05 a
    ++ cond (!(win b w).valid || a.toNat / 2 ^ 23 != 0 || !bmemInside b w a.toNat 512) 0x06 a
    ++ (match unloadedIn b (a.toNat % 2 ^ 23) 512 with
        | some x => [(0x07, BitVec.ofNat 32 x)]
        | none => [])
  | .vput _ unit => cond (unit.toNat % 16 != 0) 0x05 (unit.setWidth 32)
  | .qnt _ qd unit _ _ w =>
    quantHalts b w qd
    ++ (if (quantHalts b w qd).isEmpty then
          let q := qdRead b w qd
          cond (match q.elem with
            | .i4 => unit.toNat % 2 != 0
            | .i8 => unit.toNat % 4 != 0
            | .t2 => false) 0x05 (unit.setWidth 32)
          ++ cond (q.outlier && (mapFind qd.val b.vec.exps).isNone) 0x0B 0
        else [])
  | .qscan _ qd _ _ _ w => quantHalts b w qd
  | _ => []

/-- The outlier channel of a lane, if the lane is one. -/
def QDesc.channelOf (q : QDesc) (lane : Nat) : Option Nat :=
  if q.outlier then (List.range 8).find? (fun j => q.outlierLane j == some lane) else none

/-- The conversion of every lane written: outlier lanes give main code 0 (R147, R152). -/
def quantRow (q : QDesc) (b : BrickSt) (nanMode : Bool) (x : VecVal) : List QCode :=
  (List.range q.lanes).map (fun n =>
    let c := quantLane q.elem nanMode (q.scale (n / q.group)) (x.toList.getD n 0) (q.mult b n)
    if (q.channelOf n).isSome then { c with code := 0, clamped := false } else c)

/-- The I8 buttress codes of a row, channel j first, with 24 zero bytes (R152, R264). -/
def quantButtress (q : QDesc) (b : BrickSt) (nanMode : Bool) (exps : List Int) (x : VecVal) : List QCode :=
  (List.range 8).map (fun j =>
    match q.outlierLane j with
    | some lane => quantOutlier nanMode (exps.getD j 0) (x.toList.getD lane 0) (q.mult b lane)
    | none => { code := 0, u := 0 })

/-- The statistics of one lane: x = u, d = code times scale, e = rna64(u - d) (R155). -/
def laneStat (q : QDesc) (slot n : Nat) (c : QCode) : StatElem :=
  let excluded := c.nonfinite || c.absent
  let d := dyMul (dyInt (codeInt q.elem.bits c.code)) (s8Val (q.scale (n / q.group)))
  let u := val32 c.u
  let e := rna64 (dyAdd u (dyNeg d))
  let x := rna64 u
  { slot, x2 := dmul x x, e2 := dmul e e, counted := !excluded, clamped := c.clamped && !excluded, nonfinite := excluded }

/-- The statistics that a row gives: every valid entry's slot, for the lanes of its groups but the outlier lanes (R155, R264). -/
def rowStats (q : QDesc) (cs : List QCode) : List StatElem :=
  (List.range 4).flatMap (fun i =>
    let e := q.statEntry i
    if bit 15 e then
      ((List.range cs.length).filter (fun n =>
          decide (bits 3 2 e ≤ n / q.group) && decide (n / q.group ≤ bits 1 0 e) && (q.channelOf n).isNone)).map
        (fun n => laneStat q (bits 14 9 e) n (cs.getD n { code := 0, u := 0 }))
    else [])

/-- The conditions that a list of conversions raises together. -/
def codesFlags (cs : List QCode) : NumFlags := cs.foldl (fun a c => a.or c.flags) {}

/-- QNT (R264): codes to the staging area from the named unit, buttress codes to the next unit after them, statistics of a
valid row; all at issue + 6. -/
def qntEffect (b0 : BrickSt) (sig : BitVec 6) (va : VReg) (qd : Fin 32) (unit : BitVec 11) (row : Fin 128) (nanMode : Bool)
    (w : Fin 4) (b : BrickSt) : BrickSt :=
  let q := qdRead b0 w qd
  let x := getV b0 va
  let cs := quantRow q b0 nanMode x
  let bytes := packCodes q.elem (cs.map (·.code))
  let next := unit.toNat + ceilDiv bytes.length 32
  let bc := quantButtress q b0 nanMode (mapGet [] b0.vec.exps qd.val) x
  let extra := if q.outlier then [(next * 32, bc.map (fun c => BitVec.ofNat 8 c.code) ++ List.replicate 24 0)] else []
  let stats := if rowValid b0 w row.val then rowStats q cs else []
  stick ((codesFlags cs).or (if q.outlier then codesFlags bc else {}))
    { b with fl := { b.fl with quants := b.fl.quants ++
        [{ due := b0.r.cycle + 6, writes := (unit.toNat * 32, bytes) :: extra, stats, sig }] } }

/-- The running maxima of a descriptor after a row (R265): row 0 restarts them, an invalid row takes no part. -/
def scanMaxima (b0 : BrickSt) (q : QDesc) (va : VReg) (qd : Fin 32) (row : Fin 128) (w : Fin 4) : List Dyadic2 :=
  let x := getV b0 va
  (List.range 8).map (fun j =>
    let old : Dyadic2 := if row = 0 then ⟨0, 0⟩ else mapGet ⟨0, 0⟩ b0.vec.maxima (maxKey qd j)
    match q.outlierLane j with
    | some lane =>
      if rowValid b0 w row.val then dyMax old (magnitude (quantU (x.toList.getD lane 0) (q.mult b0 lane)).1) else old
    | none => old)

/-- QSCAN (R265): the maxima; with final = 1 the exponents over the valid outlier lanes, written as 8 signed bytes and 24 zero
bytes at issue + 6. -/
def qscanEffect (b0 : BrickSt) (sig : BitVec 6) (va : VReg) (qd : Fin 32) (unit : BitVec 11) (row : Fin 128) (final : Bool)
    (w : Fin 4) (b : BrickSt) : BrickSt :=
  let q := qdRead b0 w qd
  let ms := scanMaxima b0 q va qd row w
  let used := (List.range 8).filter (fun j => (q.outlierLane j).isSome)
  let found := outlierExps (used.map (fun j => ms.getD j ⟨0, 0⟩))
  let exps := (List.range 8).map (fun j => match used.findIdx? (· == j) with
    | some i => found.getD i 0
    | none => 0)
  let b := { b with vec := { b.vec with
    maxima := (List.range 8).foldl (fun m j => mapSet (maxKey qd j) (ms.getD j ⟨0, 0⟩) m) b.vec.maxima,
    exps := if final then mapSet qd.val exps b.vec.exps else b.vec.exps } }
  let fl := (List.range 8).foldl (fun (a : NumFlags) j => match q.outlierLane j with
    | some lane => a.or (quantU ((getV b0 va).toList.getD lane 0) (q.mult b0 lane)).2
    | none => a) {}
  stick fl { b with fl := { b.fl with quants := b.fl.quants ++
    [{ due := b0.r.cycle + 6,
       writes := if final then [(unit.toNat * 32, exps.map (fun x => BitVec.ofInt 8 x) ++ List.replicate 24 0)] else [],
       stats := [], sig }] } }

/-- A vector result due at issue + 4 (R219, R223). -/
def vecDue (b0 : BrickSt) (sig : BitVec 6) (vd : VReg) (x : VecVal) (b : BrickSt) : BrickSt :=
  { b with fl := { b.fl with vecs := b.fl.vecs ++ [{ due := b0.r.cycle + 4, vd, value := x, sig }] } }

/-- The effect of a vector-slot operation (R223 to R226, R260 to R265). -/
def vectorEffect (b0 : BrickSt) (sig : BitVec 6) (op : SlotOp) (b : BrickSt) : BrickSt :=
  match op with
  | .v2 op vd va vb =>
    let r := lanes2 (vecOp2 op) (getV b0 va) (getV b0 vb)
    vecDue b0 sig vd r.1 (stick r.2 b)
  | .v1 op vd va =>
    match op with
    | 0x14 => let r := vecSum (getV b0 va); vecDue b0 sig vd (lane0 r.1) (stick r.2 b)
    | 0x15 => let r := vecMaxLane (getV b0 va); vecDue b0 sig vd (lane0 r.1) (stick r.2 b)
    | op => vecDue b0 sig vd ((getV b0 va).map (vecMove op)) b
  | .vbcs vd rs => vecDue b0 sig vd (Vector.replicate 128 (getS b0 rs)) b
  | .vlut vd va table w =>
    let r := vecLut (lutOf b0 w table) (getV b0 va)
    vecDue b0 sig vd r.1 (stick r.2 b)
  | .vacc vd bank row => vecDue b0 sig vd (accRow (accAt b0 b0.r.cycle) b0.arr.layout bank.val row.val).1 b
  | .vld vd _ rs => vecDue b0 sig vd (vecOfBytes (memBytes b0.m.bmem (getS b0 rs).toNat 512)) b
  | .vput va unit =>
    { b with fl := { b.fl with quants := b.fl.quants ++
      [{ due := b0.r.cycle + 4, writes := [(unit.toNat * 32, vecBytes (getV b0 va))], stats := [], sig }] } }
  | .qnt va qd unit row nanMode w => qntEffect b0 sig va qd unit row nanMode w b
  | .qscan va qd unit row final w => qscanEffect b0 sig va qd unit row final w b
  | _ => b

end Sys2Proof.Machine
end

