-- ==== Sys2Proof/Machine/Matrix.lean ====
section
/-!
DEFINITION. The matrix slot: passes of the whole and the quartered layout, shadow fills, the checks of R196, the holds of R185 and
the arithmetic of R133, R136 and R140 (chapter 7).
-/

namespace Sys2Proof.Machine

open Sys2Proof

/-! ### Stream descriptors (R227) -/

/-- A field of a descriptor word. -/
def dfield (d : Vector DWord 4) (w : Fin 4) (hi lo : Nat) : Nat := bits hi lo (d.get w).toNat
/-- kind. -/
def dKind (d : Vector DWord 4) : Nat := dfield d 0 63 60
/-- window. -/
def dWin (d : Vector DWord 4) : Fin 4 := Fin.ofNat 4 (dfield d 0 59 58)
/-- elem. -/
def dElem (d : Vector DWord 4) : Nat := dfield d 0 57 56
/-- transpose. -/
def dTranspose (d : Vector DWord 4) : Bool := bit 55 (d.get 0).toNat
/-- src. -/
def dSrc (d : Vector DWord 4) : Nat := dfield d 0 47 0
/-- chunk in units of 256 bytes. -/
def dChunk (d : Vector DWord 4) : Nat := dfield d 1 63 48
/-- dst. -/
def dDst (d : Vector DWord 4) : Nat := dfield d 1 47 0
/-- A signed 32-bit distance. -/
def dSigned (n : Nat) : Int := codeInt 32 n
/-- stride1. -/
def dStride1 (d : Vector DWord 4) : Int := dSigned (dfield d 2 63 32)
/-- count1. -/
def dCount1 (d : Vector DWord 4) : Nat := dfield d 2 31 16
/-- row_len. -/
def dRowLen (d : Vector DWord 4) : Nat := dfield d 2 15 0
/-- stride2. -/
def dStride2 (d : Vector DWord 4) : Int := dSigned (dfield d 3 63 32)
/-- count2. -/
def dCount2 (d : Vector DWord 4) : Nat := dfield d 3 31 16
/-- The bytes a stream moves: count2 times count1 times row_len. -/
def dTotal (d : Vector DWord 4) : Nat := dCount2 d * dCount1 d * dRowLen d

/-- The address of byte i of a stream that starts at a base: plane, row, byte. -/
def dAddr (d : Vector DWord 4) (base i : Nat) : Nat :=
  let row := i / dRowLen d
  let a : Int := (base : Int) + (row / dCount1 d : Nat) * dStride2 d + (row % dCount1 d : Nat) * dStride1 d + (i % dRowLen d : Nat)
  (a % (2 ^ 48 : Nat)).toNat

/-- One square tile of 4-bit codes turned: nibble j of output row m is nibble m of source row j (R310). -/
def turnTile (T : Nat) (bs : List Byte) : List Byte :=
  (List.range T).flatMap (fun m => packCodes .i4 ((List.range T).map (fun j => unpack .i4 ((bs.drop (j * (T / 2))).take (T / 2)) m)))

/-- Tiles of T rows turned one after another, in source order; `n` is how many. -/
def turnTiles (T : Nat) : Nat → List Byte → List Byte
  | 0, _ => []
  | n + 1, bs => turnTile T (bs.take (T * (T / 2))) ++ turnTiles T n (bs.drop (T * (T / 2)))

/-- The tile of a row length: 128 rows of 64 bytes, 64 rows of 32 bytes (R310). -/
def tileOf (d : Vector DWord 4) : Nat := 2 * dRowLen d

/-- What a stream makes of its source bytes: with transpose set, the turned tiles. -/
def streamForm (d : Vector DWord 4) (bs : List Byte) : List Byte :=
  if dTranspose d then turnTiles (tileOf d) (bs.length / (tileOf d * (tileOf d / 2))) bs else bs

/-- The bytes that an operand stream delivers, in order. -/
def operandBytes (b : BrickSt) (st : Stream) : List Byte :=
  streamForm st.desc ((List.range (dTotal st.desc)).map (fun i => memByte b.m.bmem (dAddr st.desc (dSrc st.desc) i)))

/-- The first byte of an operand stream that lies outside its window. -/
def operandOutside (b : BrickSt) (st : Stream) : Option Nat :=
  ((List.range (dCount2 st.desc * dCount1 st.desc)).map (fun r => dAddr st.desc (dSrc st.desc) (r * dRowLen st.desc))).find?
    (fun a => !((win b (dWin st.desc)).valid && bmemInside b (dWin st.desc) a (dRowLen st.desc)))

/-- The first byte of an operand stream in a page whose loaded bit is clear (R196, R210). -/
def operandUnloaded (b : BrickSt) (st : Stream) : Option Nat :=
  ((List.range (dCount2 st.desc * dCount1 st.desc)).map (fun r => dAddr st.desc (dSrc st.desc) (r * dRowLen st.desc))).findSome?
    (fun a => unloadedIn b a (dRowLen st.desc))

/-- The stream armed on a descriptor for a role: of the kind, not yet consumed, armed before this cycle (R267, R269). -/
def armed (b : BrickSt) (d : Fin 16) (kind : Nat) : Option Stream :=
  match mapFind d.val b.fl.streams with
  | some st => if dKind st.desc = kind ∧ !st.consumed ∧ st.armedAt < b.r.cycle then some st else none
  | none => none

/-! ### Widths (R197 to R199) -/

/-- In-service column groups among a range of groups. -/
def groupsIn (mask : BitVec 16) (lo n : Nat) : Nat := ((rangeFrom lo n).filter (fun i => mask.getLsbD i)).length

/-- The whole-layout width: 8 columns for each group in service; 0 when the array is RETIRED (R197, R205). -/
def wholeWidth (a : BrickArray) : Nat := if a.state = 2 then 0 else 8 * groupsIn a.colMask 0 16

/-- The width of a quadrant (R199). -/
def quadWidth (a : BrickArray) (q : Fin 4) : Nat := 8 * groupsIn a.colMask (if q.val % 2 = 0 then 0 else 8) 8

/-- The physical column of a logical column (R197). -/
def physicalColumn (mask : BitVec 16) (l : Nat) : Nat :=
  8 * (((List.range 16).filter (fun i => mask.getLsbD i)).getD (l / 8) 0) + l % 8

/-! ### Holds (R185) -/

/-- The cycle until which the matrix engine holds an operation. -/
def matrixHold (b : BrickSt) (op : SlotOp) : Nat :=
  match op with
  | .matmul m =>
    let prev := (b.fl.passes.filter (fun p => !p.quartered)).map (fun p => p.t0 + 128)
    let acc := if m.src.val < 4 then
      (b.fl.passes.filter (fun p => !p.quartered && p.dst == m.src.val)).map (fun p => p.t0 + 265) else []
    (prev ++ acc).foldl max 0
  | .matmulQ m =>
    let prev := (b.fl.passes.filter (fun p => p.quartered && p.quadrant == m.quadrant)).map (fun p => p.t0 + 256)
    let acc := if m.src.val < 8 then
      (b.fl.passes.filter (fun p => p.quartered && p.dst == m.src.val)).map (fun p => p.t0 + 265) else []
    (prev ++ acc).foldl max 0
  | .wfill _ _ quartered quadrant _ =>
    ((b.fl.fills.filter (fun f => !quartered || !f.quartered || f.quadrant.val % 2 == quadrant.val % 2)).map
      (fun f => f.l0 + (if f.quartered then 64 else 128))).foldl max 0
  | _ => 0

/-! ### Group sizes and layout of the operands -/

/-- The group size of a g field. -/
def groupSize (g : Fin 4) : Nat := 32 * 2 ^ g.val

/-- The element format of an operand stream's elem field. -/
def streamElem (d : Vector DWord 4) : Elem := if dElem d = 1 then .t2 else .i4

/-- The bytes of an activation row's codes before its scale codes (R188). -/
def codeBytes (d : Vector DWord 4) (k : Nat) : Nat := ceilDiv (k * (streamElem d).bits) 8

/-- Row r of an activation stream. -/
def actRow (bs : List Byte) (rowLen r : Nat) : List Byte := (bs.drop (r * rowLen)).take rowLen

/-- The scale codes of an activation row, one for each group, after the codes (R188). -/
def actScale (row : List Byte) (cb g : Nat) : Nat := (row.getD (cb + g) 0).toNat

/-- The exponent byte of a buttress row: after the 128 rows of codes, in the stream's next 32-byte row (log 22). -/
def buttressExp (bs : List Byte) (rowLen j : Nat) : Int := codeInt 8 ((bs.getD (128 * rowLen + j) 0).toNat)

/-- The weight set that a whole-layout pass uses: the shadow set where its swap bit is 1 (R182). -/
def passWeights (a : BrickArray) (swap : Bool) : WeightSet := if swap then a.shadow else a.active

/-- The weight set that a quadrant's pass uses. -/
def quadWeights (a : BrickArray) (q : Fin 4) (swap : Bool) : WeightSet := if swap then a.qShadow.get q else a.qActive.get q

/-- The code byte of a set's scale for a group and column. -/
def scaleAt (w : WeightSet) (g n : Nat) : Nat := ((mapGet [] w.scales g).getD n 0).toNat

/-- The nibble of cell (k, n). -/
def cellAt (w : WeightSet) (k n : Nat) : Nat := unpack .i4 (mapGet [] w.rows k) n

/-- The weight of reduction element k in column n: in double-K mode the nibble of row k/2 holds two T2 weights (R180, R187). -/
def cellWeight (w : WeightSet) (kdbl : Bool) (k n : Nat) : Int :=
  if kdbl then weightVal .t2 ((cellAt w (k / 2) n / 4 ^ (k % 2)) % 4) else codeInt 4 (cellAt w k n)

/-! ### Passes -/

/-- One group of one column (R133): the exact integer sum of the group's products. -/
def groupSum (elem : Elem) (row : List Byte) (w : WeightSet) (kdbl : Bool) (g G n : Nat) : Int :=
  (rangeFrom (g * G) G).foldl (fun s k => s + actVal elem (unpack elem row k) * cellWeight w kdbl k n) 0

/-- The result of one row and column in the whole layout (R133, R136). -/
def wholeCell (elem : Elem) (row brow : List Byte) (exps : List Int) (w : WeightSet) (kdbl : Bool) (K G nb n : Nat)
    (acc : Word) : Acc :=
  let cb := ceilDiv (K * elem.bits) 8
  let groups := (List.range (K / G)).foldl
    (fun a g => groupStep a (groupSum elem row w kdbl g G n) (scaleAt w g n) (actScale row cb g)) (acc, {})
  buttressStep groups ((List.range nb).map (fun j =>
    (actVal .i8 (brow.getD j 0).toNat, codeInt 8 ((mapGet [] w.bweights j).getD n 0).toNat, exps.getD j 0)))
    (w.bscales.getD n 0).toNat

/-- Whether a row of activation codes holds an ABSENT code (R121). -/
def rowAbsent (elem : Elem) (row : List Byte) (K : Nat) : Bool := (List.range K).any (fun k => unpack elem row k == elem.absent)

/-- One row of a whole-layout pass: columns at and beyond n_width are +0 (R184). -/
def wholeRow (b : BrickSt) (m : MatmulArgs) (act : Stream) (abytes bbytes : List Byte) (accIn : Map AccRow) (r : Nat) :
    (VecVal × Bool) × NumFlags :=
  let K := if m.kdbl then 256 else 128
  let G := groupSize m.g
  let elem := streamElem act.desc
  let row := actRow abytes (dRowLen act.desc) r
  let nb := m.nb.val
  let brow := (bbytes.drop (32 * r)).take 8
  let exps := (List.range nb).map (buttressExp bbytes 32)
  let w := passWeights b.arr m.swap
  let src := if m.src.val < 4 then accRow accIn false m.src.val r else (Vector.replicate 128 0, false)
  let cells := (List.finRange 128).map (fun n =>
    if n.val < m.nWidth.toNat then wholeCell elem row brow exps w m.kdbl K G nb n.val (src.1.get n) else ((0 : Word), {}))
  let absent := rowAbsent elem row K || (List.range nb).any (fun j => (brow.getD j 0) == 0x80) || (decide (m.src.val < 4) && src.2)
  ((Vector.ofFn (fun n : Fin 128 => (cells.getD n.val (0, {})).1), absent), cells.foldl (fun a c => a.or c.2) {})

/-- One row of a quadrant's pass (R140, R194). -/
def quadRow (b : BrickSt) (m : MatmulQArgs) (act : Stream) (abytes : List Byte) (accIn : Map AccRow) (r : Nat) :
    (VecVal × Bool) × NumFlags :=
  let G := groupSize m.g
  let elem := streamElem act.desc
  let row := actRow abytes (dRowLen act.desc) r
  let cb := codeBytes act.desc 64
  let w := quadWeights b.arr m.quadrant m.swap
  let src := if m.src.val < 8 then accRow accIn true m.src.val r else (Vector.replicate 128 0, false)
  let cells := (List.finRange 128).map (fun n =>
    if n.val < m.nWidth.toNat ∧ n.val < 64 then
      (List.range 64).foldl (fun (a : Acc) k =>
        quarteredStep a (actVal elem (unpack elem row k)) (codeInt 4 (cellAt w k n.val))
          (actScale row cb (k / G)) (scaleAt w (k / G) n.val)) (src.1.get n, {})
    else ((0 : Word), {}))
  let absent := rowAbsent elem row 64 || (decide (m.src.val < 8) && src.2)
  ((Vector.ofFn (fun n : Fin 128 => (cells.getD n.val (0, {})).1), absent), cells.foldl (fun a c => a.or c.2) {})

/-- The reserved scale codes that a whole-layout pass would read: weight, activation and buttress scales (R124, R196). -/
def passBadScale (b : BrickSt) (m : MatmulArgs) (act : Stream) (abytes : List Byte) : Option Nat :=
  let K := if m.kdbl then 256 else 128
  let ng := K / groupSize m.g
  let w := passWeights b.arr m.swap
  let cb := codeBytes act.desc K
  let cs := (List.range ng).flatMap (fun g => (List.range m.nWidth.toNat).map (fun n => scaleAt w g n))
    ++ (List.range 128).flatMap (fun r => (List.range ng).map (fun g => actScale (actRow abytes (dRowLen act.desc) r) cb g))
    ++ (if m.nb = 0 then [] else (List.range m.nWidth.toNat).map (fun n => (w.bscales.getD n 0).toNat))
  cs.find? s8Reserved

/-- The exponent byte that a pass may not use: outside -64 to +63, or a spread above 15 over rows 0 to nb - 1 (R137, R190). -/
def badExponent (exps : List Int) : Option Int :=
  match exps.find? (fun x => decide (x < -64) || decide (63 < x)) with
  | some x => some x
  | none =>
    let mx := exps.foldl max (-64)
    let mn := exps.foldl min 63
    if mx - mn > 15 ∧ exps ≠ [] then some mx else none

/-- The halt conditions of a matrix-slot operation at issue (R196, R266, R267, Table 10 of the bundle chapter). -/
def matrixHalts (hasButtress : Bool) (b : BrickSt) (op : SlotOp) : List HaltCond :=
  match op with
  | .matmul m =>
    let act := armed b m.da 2
    let but := if m.nb = 0 then none else armed b m.db 5
    cond (m.g = 3 || decide (5 ≤ m.src.val)) 0x02 0
    ++ cond (b.arr.layout || decide (m.nWidth.toNat ≠ wholeWidth b.arr) || (m.kdbl && m.g == 0)
        || (m.nb != 0 && (!hasButtress || b.arr.layout)) || decide (8 < m.nb.val)
        || act.isNone || (m.nb != 0 && but.isNone)) 0x0B 0
    ++ (match act with
      | none => []
      | some a =>
        (match operandOutside b a with | some x => [(0x06, BitVec.ofNat 32 x)] | none => [])
        ++ (match operandUnloaded b a with | some x => [(0x07, BitVec.ofNat 32 x)] | none => [])
        ++ (match passBadScale b m a (operandBytes b a) with | some c => [(0x10, BitVec.ofNat 32 c)] | none => []))
    ++ (match but with
      | none => []
      | some s =>
        (match operandUnloaded b s with | some x => [(0x07, BitVec.ofNat 32 x)] | none => [])
        ++ (match badExponent ((List.range m.nb.val).map (buttressExp (operandBytes b s) 32)) with
            | some x => [(0x10, BitVec.ofNat 32 (elemCode .i8 x))] | none => []))
  | .matmulQ m =>
    let act := armed b m.da 2
    let w := quadWeights b.arr m.quadrant m.swap
    cond (m.g = 3 || decide (9 ≤ m.src.val)) 0x02 0
    ++ cond (!b.arr.layout || decide (m.nWidth.toNat ≠ quadWidth b.arr m.quadrant) || act.isNone) 0x0B 0
    ++ (match act with
      | none => []
      | some a =>
        let bs := operandBytes b a
        let ng := 64 / min 64 (groupSize m.g)
        (match operandOutside b a with | some x => [(0x06, BitVec.ofNat 32 x)] | none => [])
        ++ (match operandUnloaded b a with | some x => [(0x07, BitVec.ofNat 32 x)] | none => [])
        ++ (match ((List.range ng).flatMap (fun g => (List.range m.nWidth.toNat).map (fun n => scaleAt w g n))
              ++ (List.range 128).flatMap (fun r => (List.range ng).map (fun g =>
                actScale (actRow bs (dRowLen a.desc) r) (codeBytes a.desc 64) g))).find? s8Reserved with
            | some c => [(0x10, BitVec.ofNat 32 c)] | none => []))
  | .wfill dw ds quartered quadrant kdbl =>
    let w := armed b dw 3
    let sc := armed b ds 4
    cond (!quartered && quadrant != 0) 0x02 0
    ++ cond (quartered != b.arr.layout || (quartered && kdbl) || w.isNone || sc.isNone
        || (match w with | some s => decide (dRowLen s.desc ≠ (if quartered then 32 else 64)) | none => false)) 0x0B 0
    ++ ((w.toList ++ sc.toList).flatMap (fun s =>
        (match operandOutside b s with | some x => [(0x06, BitVec.ofNat 32 x)] | none => [])
        ++ (match operandUnloaded b s with | some x => [(0x07, BitVec.ofNat 32 x)] | none => [])))
  | _ => []

/-- A stream consumed by a matrix operation: it ends in the cycle of its last byte (R267). -/
def consume (d : Fin 16) (last : Nat) (b : BrickSt) : BrickSt :=
  match mapFind d.val b.fl.streams with
  | some st => { b with fl := { b.fl with streams := mapSet d.val { st with consumed := true, endsAt := last, moved := dTotal st.desc } b.fl.streams } }
  | none => b

/-- A whole weight set from its fill rows and its scale rows (R180, R181): 128 fill rows of 64 bytes; then group scales (128
bytes a group), buttress weights (128 bytes a row) and buttress scales. -/
def fillWhole (wb sb : List Byte) (old : WeightSet) : WeightSet :=
  { rows := (List.range 128).foldl (fun m k => mapSet k ((wb.drop (64 * k)).take 64) m) old.rows
    scales := (List.range 4).foldl (fun m g =>
      if g * 128 < sb.length then mapSet g ((sb.drop (128 * g)).take 128) m else m) old.scales
    bweights := (List.range 8).foldl (fun m j =>
      if 512 + j * 128 < sb.length then mapSet j ((sb.drop (512 + 128 * j)).take 128) m else m) old.bweights
    bscales := if 1536 < sb.length then (sb.drop 1536).take 128 else old.bscales }

/-- A quadrant's weight set from 64 fill rows of 32 bytes and its group scales of 64 bytes a group (R195). -/
def fillQuad (wb sb : List Byte) (old : WeightSet) : WeightSet :=
  { old with
    rows := (List.range 64).foldl (fun m k => mapSet k ((wb.drop (32 * k)).take 32) m) old.rows
    scales := (List.range 2).foldl (fun m g =>
      if g * 64 < sb.length then mapSet g ((sb.drop (64 * g)).take 64) m else m) old.scales }

/-- Whether a fill delivers the T2 code 0b10 to a weight register (R122): in double-K mode, or from a T2 stream. -/
def fillHasBadT2 (kdbl t2 : Bool) (wb : List Byte) : Bool :=
  (kdbl || t2) && wb.any (fun x => (List.range (if kdbl then 4 else 2)).any (fun i =>
    (x.toNat / (if kdbl then 4 ^ i else 16 ^ i)) % 4 == 2))

/-- Swap the active and shadow registers of the whole array (R182). -/
def swapWhole (a : BrickArray) : BrickArray := { a with active := a.shadow, shadow := a.active }

/-- Swap the active and shadow registers of one quadrant (R193). -/
def swapQuad (a : BrickArray) (q : Fin 4) : BrickArray :=
  { a with qActive := a.qActive.set q.val (a.qShadow.get q) q.isLt, qShadow := a.qShadow.set q.val (a.qActive.get q) q.isLt }

/-- The effect of a matrix-slot operation: the operands are read and the results formed at issue, and the rows become visible as
R177 and R193 time them. The last activation enters the west edge at T0 + 127 + 127, in a quadrant at T0 + 2(127 + 63); the last fill
row enters at L0 + 127 or L0 + 63 (R177, R180, R193, R195). -/
def matrixEffect (b0 : BrickSt) (sig : BitVec 6) (op : SlotOp) (b : BrickSt) : BrickSt :=
  let t := b0.r.cycle
  match op with
  | .matmul m =>
    match armed b0 m.da 2 with
    | none => b
    | some act =>
      let abytes := operandBytes b0 act
      let bbytes := match (if m.nb = 0 then none else armed b0 m.db 5) with
        | some s => operandBytes b0 s
        | none => []
      let acc := accAt b0 t
      let rows := (List.range 128).map (fun r => wholeRow b0 m act abytes bbytes (passRowsUpTo acc b0 t r) r)
      let b := consume m.da (t + 254) (if m.nb = 0 then b else consume m.db (t + 254) b)
      let b := if m.swap then { b with arr := swapWhole b.arr } else b
      stick (rows.foldl (fun a r => a.or r.2) {})
        { b with fl := { b.fl with passes := b.fl.passes ++
          [{ t0 := t, quartered := false, quadrant := 0, dst := m.dst.val, rows := rows.map (·.1), sig, pc := b0.r.pc,
             win := dWin act.desc }] } }
  | .matmulQ m =>
    match armed b0 m.da 2 with
    | none => b
    | some act =>
      let abytes := operandBytes b0 act
      let acc := accAt b0 t
      let rows := (List.range 128).map (fun r => quadRow b0 m act abytes (passRowsUpTo acc b0 t r) r)
      let b := consume m.da (t + 380) b
      let b := if m.swap then { b with arr := swapQuad b.arr m.quadrant } else b
      stick (rows.foldl (fun a r => a.or r.2) {})
        { b with fl := { b.fl with passes := b.fl.passes ++
          [{ t0 := t, quartered := true, quadrant := m.quadrant, dst := m.dst.val, rows := rows.map (·.1), sig, pc := b0.r.pc,
             win := dWin act.desc }] } }
  | .wfill dw ds quartered quadrant kdbl =>
    match armed b0 dw 3, armed b0 ds 4 with
    | some w, some sc =>
      let wb := operandBytes b0 w
      let sb := operandBytes b0 sc
      let arr := if quartered then
          { b.arr with qShadow := b.arr.qShadow.set quadrant.val (fillQuad wb sb (b.arr.qShadow.get quadrant)) quadrant.isLt }
        else { b.arr with shadow := fillWhole wb sb b.arr.shadow }
      let last := t + (if quartered then 63 else 127)
      let b := consume dw last (consume ds last b)
      { b with arr := arr, num := { b.num with t2w := b.num.t2w || fillHasBadT2 kdbl (dElem w.desc == 1) wb },
               fl := { b.fl with fills := b.fl.fills ++ [{ l0 := t, quartered, quadrant, sig }] } }
    | _, _ => b
  | _ => b
where
  /-- The accumulator rows that a pass issued at t reads as acc_in for its row r: those written by t + r. -/
  passRowsUpTo (acc : Map AccRow) (b0 : BrickSt) (t r : Nat) : Map AccRow :=
    b0.fl.passes.foldl (fun a p =>
      if p.rowAt r ≤ t + r ∨ (p.quartered ∧ p.rowAt r ≤ t + 2 * r) then
        let row := p.rows.getD r (Vector.replicate 128 0, false)
        accFlagPut p.quartered p.dst r row.2 (accPut p.quartered p.dst r row a)
      else a) acc

end Sys2Proof.Machine
end

