-- ==== Sys2Proof/Machine/BrickIssue.lean ====
section
/-!
DEFINITION. The issue of one bundle in one brick: fetch, halt conditions and their precedence, waits, holds, the effects of the
six slots on the state before the bundle, and the signals (R208, R213 to R220, R241, R252, R269, R270).
-/

namespace Sys2Proof.Machine

open Sys2Proof

/-! ### The load and store slots (R227, R228, R267, R268) -/

/-- The private copy of a descriptor at START, with src and dst replaced by registers where they are named (R268). -/
def privateCopy (b : BrickSt) (d : Fin 16) (rsSrc rsDst : SReg) : Vector DWord 4 :=
  let c := b.descs.get d
  let put := fun (w : DWord) (r : SReg) => if r = 0 then w else (w &&& 0xFFFF000000000000#64) ||| (getS b r).setWidth 64
  (c.set 0 (put (c.get 0) rsSrc)).set 1 (put (c.get 1) rsDst)

/-- Whether a device address rather than a BMEM address is meant: kind 1 with a source beyond 23 bits (R227). -/
def fromDevice (c : Vector DWord 4) : Bool := dKind c == 1 && bits 39 38 (dSrc c) != 0

/-- The reserved fields and values of a private copy (R227, R228). -/
def copyReserved (c : Vector DWord 4) : Bool :=
  decide (10 ≤ dKind c) || dfield c 0 50 48 != 0 || dfield c 3 15 0 != 0
  || (dTranspose c && !((dKind c == 1 || dKind c == 3) && decide (dElem c ≤ 1)))
  || badAddr (dKind c == 1) (dSrc c) || badAddr (dKind c == 7) (dDst c)
  || (dKind c == 8 && decide (dDst c / 512 ≠ 0 ∨ dDst c % 32 ≠ 0)) || (dKind c == 9 && decide (dSrc c / 512 ≠ 0 ∨ dSrc c % 32 ≠ 0))
  || (dTranspose c && badTurn)
where
  /-- Whether an address has a reserved bit set: bits [47:40]; a BMEM address with a bit above 22; an SRAM address with a bit of [35:28];
  any other space where only BMEM may stand (R227, R298, R299). -/
  badAddr (device : Bool) (a : Nat) : Bool :=
    bits 47 40 a != 0 || (bits 39 38 a == 0 && bits 37 23 a != 0) || (bits 39 38 a == 3 && bits 35 28 a != 0)
    || (!device && bits 39 38 a != 0)
  /-- The combinations with transpose that R311 reserves. -/
  badTurn : Bool :=
    !(dRowLen c == 32 || dRowLen c == 64) || dCount1 c % tileOf c != 0
    || (bits 39 38 (dSrc c) == 0 && (dStride1 c != (dRowLen c : Int) || dSrc c % (tileOf c * dRowLen c) != 0))

/-- The alignment conditions of a private copy (R228). -/
def copyMisaligned (c : Vector DWord 4) : Bool :=
  let ring := dKind c == 8 || dKind c == 9
  (!(ring && dKind c == 9) && dSrc c % 32 != 0) || (!(dKind c == 8) && dDst c % 32 != 0)
  || dStride1 c % 32 != 0 || dStride2 c % 32 != 0 || dRowLen c % 32 != 0 || dCount1 c == 0 || dCount2 c == 0

/-- The halt conditions of a START (R228, R268). -/
def startHalts (b : BrickSt) (store : Bool) (d : Fin 16) (rsSrc rsDst : SReg) : List HaltCond :=
  let c := privateCopy b d rsSrc rsDst
  let k := dKind c
  cond (if store then !(decide (6 ≤ k) && decide (k ≤ 8)) && decide (k < 10)
        else !((decide (1 ≤ k) && decide (k ≤ 5)) || k == 9) && decide (k < 10)) 0x01 1
  ++ cond (copyReserved c) 0x02 0
  ++ cond (copyMisaligned c) 0x05 (BitVec.ofNat 32 (dSrc c))
  ++ cond (store && (decide (65536 ≤ dSrc c))) 0x06 (BitVec.ofNat 32 (dSrc c))
  ++ cond (!(win b (dWin c)).valid) 0x06 (BitVec.ofNat 32 (dSrc c))

/-- Whether a START is held: the descriptor's previous stream still runs, or the ring limits of R288 are reached. -/
def startHeld (b : BrickSt) (d : Fin 16) (rsSrc rsDst : SReg) : Bool :=
  let k := dKind (privateCopy b d rsSrc rsDst)
  let running := fun kind => (b.fl.streams.filter (fun s => dKind s.2.desc == kind)).length
  (mapFind d.val b.fl.streams).isSome || (k == 8 && decide (1 ≤ running 8)) || (k == 9 && decide (2 ≤ running 9))

/-- START: the engine takes its private copy; kinds 2 to 5 arm their descriptor (R228, R267). -/
def startEffect (b0 : BrickSt) (sig : BitVec 6) (store : Bool) (d : Fin 16) (rsSrc rsDst : SReg) (b : BrickSt) : BrickSt :=
  let st : Stream :=
    { desc := privateCopy b0 d rsSrc rsDst, pc := b0.r.pc, sig := sig, armedAt := b0.r.cycle, inStoreSlot := store }
  { b with fl := { b.fl with streams := mapSet d.val st b.fl.streams } }

/-! ### Halt conditions of a bundle -/

/-- The conditions of a slot that its encoding alone shows: a reserved bit, an unknown identifier (R214, R252). -/
def encodingHalts (s : Slot) : List HaltCond :=
  cond s.rsv 0x02 0 ++ cond (decide (48 ≤ s.wait.toNat)) 0x03 (s.wait.setWidth 32)
  ++ cond (decide (48 ≤ s.sig.toNat)) 0x03 (s.sig.setWidth 32)

/-- The conditions of a slot's operation on the state before the bundle. -/
def opHalts (hasButtress : Bool) (b : BrickSt) (bundle : List Slot) (s : Slot) : List HaltCond :=
  match s.op with
  | .start store d rsSrc rsDst =>
    startHalts b store d rsSrc rsDst
    ++ cond (store && bundle.any (fun t => match t.op with
        | .start false d' _ _ => d' == d
        | _ => false)) 0x01 1
  | op => scalarHalts b op ++ vectorHalts b op ++ matrixHalts hasButtress b op

/-- The number of a slot position (R247). -/
def slotNum : SlotPos → Fin 8
  | .sync => 0
  | .scalar => 1
  | .vector => 2
  | .matrix => 3
  | .load => 4
  | .store => 5

/-- The lowest code wins; among equal codes the slot nearest the top of the bundle (R241). -/
def worst (cs : List (Nat × Fin 8 × Word)) : Option (Nat × Fin 8 × Word) :=
  cs.foldl (fun best c => match best with
    | none => some c
    | some b => if c.1 < b.1 ∨ (c.1 = b.1 ∧ c.2.1 < b.2.1) then some c else some b) none

/-- Every halt condition of a bundle with its slot. -/
def bundleHalts (hasButtress : Bool) (b : BrickSt) (bundle : List Slot) (withOps : Bool) : List (Nat × Fin 8 × Word) :=
  bundle.flatMap (fun s => (encodingHalts s ++ if withOps then opHalts hasButtress b bundle s else []).map
    (fun c => (c.1, slotNum s.pos, c.2)))

/-! ### Issue -/

/-- What becomes of a bundle that comes up for issue. -/
inductive Issued where
  | halted (b : BrickSt)
  | stalled (b : BrickSt) (waits : List (BitVec 6)) (replay : Bool)
  | done (b : BrickSt)
  deriving DecidableEq, Repr

/-- The waits that a bundle names. -/
def bundleWaits (bundle : List Slot) : List (BitVec 6) := (bundle.map (·.wait)).filter (· != 0)

/-- The operation of one slot position, if the bundle has it. -/
def slotOp (bundle : List Slot) (p : SlotPos) : Option Slot := bundle.find? (fun s => s.pos == p)

/-- Whether some START of the bundle is held (R213, R228). -/
def anyHeld (b : BrickSt) (bundle : List Slot) : Bool :=
  bundle.any (fun s => match s.op with
    | .start _ d rsSrc rsDst => startHeld b d rsSrc rsDst
    | _ => false)

/-- The cycle until which the matrix engine holds the bundle (R185). -/
def bundleHold (b : BrickSt) (bundle : List Slot) : Nat := (bundle.map (fun s => matrixHold b s.op)).foldl max 0

/-- The effect of one slot, all slots reading the brick as it stood before the bundle (R269). -/
def slotEffect (b0 : BrickSt) (b : BrickSt) (s : Slot) : BrickSt :=
  match s.pos, s.op with
  | .vector, .nop => signalAt b0.r.cycle s.sig b
  | .matrix, .nop => signalAt b0.r.cycle s.sig b
  | .load, .nop => signalAt b0.r.cycle s.sig b
  | .store, .nop => signalAt b0.r.cycle s.sig b
  | .vector, op => vectorEffect b0 s.sig op b
  | .matrix, op => matrixEffect b0 s.sig op b
  | _, .start store d rsSrc rsDst => startEffect b0 s.sig store d rsSrc rsDst b
  | pos, op =>
    let b := scalarEffect b0 s.sig op b
    match scalarSigAt pos op with
    | some k => signalAt (b0.r.cycle + k) s.sig b
    | none => b

/-- Whether a bundle closes a replay. -/
def isReplay (bundle : List Slot) : Bool := bundle.any (fun s => s.op == .replay)

/-- The TRAP immediate of a bundle, if it carries one. -/
def trapOf (bundle : List Slot) : Option (BitVec 12) :=
  bundle.findSome? (fun s => match s.op with
    | .trap imm => some imm
    | _ => none)

/-- The timer value that a bundle's TMR sets at issue + 1 (R259). -/
def timerSet (b0 : BrickSt) (bundle : List Slot) : Option Word :=
  bundle.findSome? (fun s => match s.op with
    | .tmr x => some (getS b0 x)
    | _ => none)

/-- Issue a bundle whose waits are satisfied, on which no condition and no hold applies: the waits are consumed, every slot
takes effect, the pc moves on, one cycle passes (two to the target of a taken branch, R208). A REPLAY takes the pending sets and
goes to the entry; a TRAP is entered with the next bundle as the return address (R234). -/
def issueNow (b0 : BrickSt) (bundle : List Slot) : BrickSt :=
  let waited := (bundleWaits bundle).foldl consumeWait b0
  let base := setPc (b0.r.pc + 1) waited
  let b := bundle.foldl (slotEffect b0) base
  let b := if isReplay bundle then replayTake b else b
  let n := if bundle.any (fun s => jumps b0 s.op) then 2 else 1
  let b := advance n b
  let b := match timerSet b0 bundle with
    | some v => { b with r := { b.r with timer := v } }
    | none => b
  match trapOf bundle with
  | some imm => excEntry causeTrap (imm.setWidth 32) (b0.r.pc + 1) b0.r.pc b
  | none => b

/-- One bundle comes up for issue at the brick's pc: fetch (R208), conditions (R241), waits and holds (R213), effect. -/
def issueBundle (hasButtress : Bool) (b : BrickSt) (bundle : List Slot) : Issued :=
  if !fetchOk b b.r.pc then .halted (haltBrick 0x0D 6 b.r.pc (fetchInfo b b.r.pc) 0 b)
  else
    match worst (bundleHalts hasButtress b bundle false) with
    | some c =>
      let c := if waitsOk b (bundleWaits bundle) then (worst (bundleHalts hasButtress b bundle true)).getD c else c
      .halted (haltBrick (BitVec.ofNat 8 c.1) c.2.1 b.r.pc c.2.2 0 b)
    | none =>
      if !waitsOk b (bundleWaits bundle) then .stalled b (bundleWaits bundle) false
      else if isReplay bundle && (fullWins b).isEmpty then .stalled b [] true
      else if anyHeld b bundle then .stalled b [] false
      else
        let b := advanceTo (bundleHold b bundle) b
        match worst (bundleHalts hasButtress b bundle true) with
        | some c => .halted (haltBrick (BitVec.ofNat 8 c.1) c.2.1 b.r.pc c.2.2 0 b)
        | none => .done (issueNow b bundle)

end Sys2Proof.Machine
end

