-- ==== Sys2Proof/Machine/Hash.lean ====
section
/-!
DEFINITION. The published functions that the block uses by name: SHA-384 (FIPS 180-4), SipHash-2-4 (R66), the CRC-32 of IEEE 802.3
and CRC-32C. Their constants and steps are PRESUMED from those publications (log 11).
-/

namespace Sys2Proof.Machine

open Sys2Proof

/-! ### SHA-384 -/

/-- The round constants of the 64-bit SHA-2 functions. -/
def shaK : List DWord :=
  [0x428a2f98d728ae22#64, 0x7137449123ef65cd#64, 0xb5c0fbcfec4d3b2f#64, 0xe9b5dba58189dbbc#64, 0x3956c25bf348b538#64, 0x59f111f1b605d019#64, 0x923f82a4af194f9b#64, 0xab1c5ed5da6d8118#64]
  ++ [0xd807aa98a3030242#64, 0x12835b0145706fbe#64, 0x243185be4ee4b28c#64, 0x550c7dc3d5ffb4e2#64, 0x72be5d74f27b896f#64, 0x80deb1fe3b1696b1#64, 0x9bdc06a725c71235#64, 0xc19bf174cf692694#64]
  ++ [0xe49b69c19ef14ad2#64, 0xefbe4786384f25e3#64, 0x0fc19dc68b8cd5b5#64, 0x240ca1cc77ac9c65#64, 0x2de92c6f592b0275#64, 0x4a7484aa6ea6e483#64, 0x5cb0a9dcbd41fbd4#64, 0x76f988da831153b5#64]
  ++ [0x983e5152ee66dfab#64, 0xa831c66d2db43210#64, 0xb00327c898fb213f#64, 0xbf597fc7beef0ee4#64, 0xc6e00bf33da88fc2#64, 0xd5a79147930aa725#64, 0x06ca6351e003826f#64, 0x142929670a0e6e70#64]
  ++ [0x27b70a8546d22ffc#64, 0x2e1b21385c26c926#64, 0x4d2c6dfc5ac42aed#64, 0x53380d139d95b3df#64, 0x650a73548baf63de#64, 0x766a0abb3c77b2a8#64, 0x81c2c92e47edaee6#64, 0x92722c851482353b#64]
  ++ [0xa2bfe8a14cf10364#64, 0xa81a664bbc423001#64, 0xc24b8b70d0f89791#64, 0xc76c51a30654be30#64, 0xd192e819d6ef5218#64, 0xd69906245565a910#64, 0xf40e35855771202a#64, 0x106aa07032bbd1b8#64]
  ++ [0x19a4c116b8d2d0c8#64, 0x1e376c085141ab53#64, 0x2748774cdf8eeb99#64, 0x34b0bcb5e19b48a8#64, 0x391c0cb3c5c95a63#64, 0x4ed8aa4ae3418acb#64, 0x5b9cca4f7763e373#64, 0x682e6ff3d6b2b8a3#64]
  ++ [0x748f82ee5defb2fc#64, 0x78a5636f43172f60#64, 0x84c87814a1f0ab72#64, 0x8cc702081a6439ec#64, 0x90befffa23631e28#64, 0xa4506cebde82bde9#64, 0xbef9a3f7b2c67915#64, 0xc67178f2e372532b#64]
  ++ [0xca273eceea26619c#64, 0xd186b8c721c0c207#64, 0xeada7dd6cde0eb1e#64, 0xf57d4f7fee6ed178#64, 0x06f067aa72176fba#64, 0x0a637dc5a2c898a6#64, 0x113f9804bef90dae#64, 0x1b710b35131c471b#64]
  ++ [0x28db77f523047d84#64, 0x32caab7b40c72493#64, 0x3c9ebe0a15c9bebc#64, 0x431d67c49c100d4c#64, 0x4cc5d4becb3e42b6#64, 0x597f299cfc657e2a#64, 0x5fcb6fab3ad6faec#64, 0x6c44198c4a475817#64]

/-- The initial hash value of SHA-384. -/
def shaInit : List DWord :=
  [0xcbbb9d5dc1059ed8#64, 0x629a292a367cd507#64, 0x9159015a3070dd17#64, 0x152fecd8f70e5939#64, 0x67332667ffc00b31#64, 0x8eb44a8768581511#64, 0xdb0c2e0d64f98fa7#64, 0x47b5481dbefa4fa4#64]

/-- The schedule of a block: 16 words extended to 80. -/
def shaSchedule (w : List DWord) : List DWord :=
  ((List.range 64).foldl (fun (acc : List DWord) _ =>
    let x15 := acc.getD 14 0
    let x2 := acc.getD 1 0
    let s0 := x15.rotateRight 1 ^^^ x15.rotateRight 8 ^^^ (x15 >>> 7)
    let s1 := x2.rotateRight 19 ^^^ x2.rotateRight 61 ^^^ (x2 >>> 6)
    (acc.getD 15 0 + s0 + acc.getD 6 0 + s1) :: acc) w.reverse).reverse

/-- One round on the eight working words. -/
def shaRound (v : List DWord) (kw : DWord) : List DWord :=
  match v with
  | [a, b, c, d, e, f, g, h] =>
    let s1 := e.rotateRight 14 ^^^ e.rotateRight 18 ^^^ e.rotateRight 41
    let ch := (e &&& f) ^^^ (~~~e &&& g)
    let t1 := h + s1 + ch + kw
    let s0 := a.rotateRight 28 ^^^ a.rotateRight 34 ^^^ a.rotateRight 39
    let mj := (a &&& b) ^^^ (a &&& c) ^^^ (b &&& c)
    [t1 + s0 + mj, a, b, c, d + t1, e, f, g]
  | v => v

/-- One block of 128 bytes. -/
def shaBlock (h : List DWord) (blk : List Byte) : List DWord :=
  let w := (List.range 16).map (fun i => BitVec.ofNat 64 (beNat ((blk.drop (8 * i)).take 8)))
  let r := (List.zipWith (· + ·) shaK (shaSchedule w)).foldl shaRound h
  List.zipWith (· + ·) h r

/-- The padded message. -/
def shaPad (m : List Byte) : List Byte :=
  let z := (111 + 128 - m.length % 128) % 128
  m ++ [0x80#8] ++ List.replicate z 0 ++ beBytes 16 (m.length * 8)

/-- SHA-384 of a byte string: 48 bytes. -/
def sha384 (m : List Byte) : List Byte :=
  let p := shaPad m
  let h := (List.range (p.length / 128)).foldl (fun h i => shaBlock h ((p.drop (128 * i)).take 128)) shaInit
  (h.take 6).flatMap (fun w => beBytes 8 w.toNat)

/-- SHA-384 as a 384-bit number, first byte highest. -/
def sha384Word (m : List Byte) : BitVec 384 := BitVec.ofNat 384 (beNat (sha384 m))

/-! ### SipHash-2-4 (R66) -/

/-- The four words of SipHash's state. -/
structure Sip where
  v0 : DWord
  v1 : DWord
  v2 : DWord
  v3 : DWord
  deriving DecidableEq, Repr

/-- One SipRound. -/
def sipRound (s : Sip) : Sip :=
  let v0 := s.v0 + s.v1
  let v1 := s.v1.rotateLeft 13 ^^^ v0
  let v0 := v0.rotateLeft 32
  let v2 := s.v2 + s.v3
  let v3 := s.v3.rotateLeft 16 ^^^ v2
  let v0 := v0 + v3
  let v3 := v3.rotateLeft 21 ^^^ v0
  let v2 := v2 + v1
  let v1 := v1.rotateLeft 17 ^^^ v2
  let v2 := v2.rotateLeft 32
  ⟨v0, v1, v2, v3⟩

/-- A message word taken in. -/
def sipWord (s : Sip) (m : DWord) : Sip :=
  let s := sipRound (sipRound { s with v3 := s.v3 ^^^ m })
  { s with v0 := s.v0 ^^^ m }

/-- The words of a message with its length byte. -/
def sipWords (m : List Byte) : List DWord :=
  let n := m.length
  let full := (List.range (n / 8)).map (fun i => BitVec.ofNat 64 (leNat ((m.drop (8 * i)).take 8)))
  full ++ [BitVec.ofNat 64 (leNat (m.drop (8 * (n / 8))) + (n % 256) * 2 ^ 56)]

/-- Four finalisation rounds. -/
def sipFour (s : Sip) : Sip := sipRound (sipRound (sipRound (sipRound s)))

/-- The state after the message, for an output of 8 or 16 bytes. -/
def sipState (wide : Bool) (key : BitVec 128) (m : List Byte) : Sip :=
  let k0 : DWord := key.setWidth 64
  let k1 : DWord := (key >>> 64).setWidth 64
  let s : Sip := ⟨k0 ^^^ 0x736f6d6570736575#64, k1 ^^^ 0x646f72616e646f6d#64 ^^^ (if wide then 0xee else 0),
    k0 ^^^ 0x6c7967656e657261#64, k1 ^^^ 0x7465646279746573#64⟩
  let s := (sipWords m).foldl sipWord s
  sipFour { s with v2 := s.v2 ^^^ (if wide then 0xee else 0xff) }

/-- SipHash-2-4 with 64-bit output, read as a little-endian integer. -/
def sip64 (key : BitVec 128) (m : List Byte) : DWord :=
  let s := sipState false key m
  s.v0 ^^^ s.v1 ^^^ s.v2 ^^^ s.v3

/-- SipHash-2-4 with 128-bit output, read as a little-endian integer. -/
def sip128 (key : BitVec 128) (m : List Byte) : BitVec 128 :=
  let s := sipState true key m
  let lo := s.v0 ^^^ s.v1 ^^^ s.v2 ^^^ s.v3
  let s2 := sipFour { s with v1 := s.v1 ^^^ 0xdd }
  let hi := s2.v0 ^^^ s2.v1 ^^^ s2.v2 ^^^ s2.v3
  (hi.setWidth 128 <<< 64) ||| lo.setWidth 128

/-! ### Cyclic redundancy checks -/

/-- One byte of a reflected CRC under a polynomial. -/
def crcByte (poly : Word) (c : Word) (b : Byte) : Word :=
  (List.range 8).foldl (fun c _ => if c.getLsbD 0 then (c >>> 1) ^^^ poly else c >>> 1) (c ^^^ b.setWidth 32)

/-- The CRC-32 of IEEE 802.3 over bytes. -/
def crc32 (m : List Byte) : Word := ~~~(m.foldl (crcByte 0xEDB88320#32) 0xFFFFFFFF#32)

/-- CRC-32C (Castagnoli) over bytes. -/
def crc32c (m : List Byte) : Word := ~~~(m.foldl (crcByte 0x82F63B78#32) 0xFFFFFFFF#32)

end Sys2Proof.Machine
end

