-- ==== Sys2Proof/Machine/Parser.lean ====
section
/-!
DEFINITION. The parser: state and transition words, the walk of R44, key templates, features, and the checks of the parse section
(chapter 2, R64).
-/

namespace Sys2Proof.Machine

open Sys2Proof

/-- Bits [hi:lo] of a 128-bit word. -/
def qf (w : QWord) (hi lo : Nat) : Nat := bits hi lo w.toNat

/-! ### Parse states (Table 2) -/

/-- select_off. -/
def pSelOff (w : QWord) : Nat := qf w 87 82
/-- select_len. -/
def pSelLen (w : QWord) : Nat := qf w 81 80
/-- extract_off. -/
def pExtOff (w : QWord) : Nat := qf w 63 58
/-- extract_len. -/
def pExtLen (w : QWord) : Nat := qf w 57 52
/-- extract_dest. -/
def pExtDest (w : QWord) : Nat := qf w 51 43
/-- trans_base. -/
def pTransBase (w : QWord) : Nat := qf w 111 100
/-- trans_count. -/
def pTransCount (w : QWord) : Nat := qf w 99 95
/-- frag_check. -/
def pFrag (w : QWord) : Nat := qf w 25 24

/-- A header byte of the slice. -/
def hb (hdr : List Byte) (i : Nat) : Nat := (hdr.getD i 0).toNat

/-- The header length of a state (len_kind, Table 2). -/
def headerLen (w : QWord) (hdr : List Byte) (pos : Nat) : Nat :=
  let b := hb hdr (pos + qf w 41 36)
  match qf w 35 34 with
  | 0 => qf w 33 26
  | 1 => (b % 16) * 4
  | 2 => b * 8 + 8
  | _ => (b / 16) * 4

/-- The select field: 0, 1 or 2 bytes, big-endian. -/
def selectField (w : QWord) (hdr : List Byte) (pos : Nat) : Nat :=
  match pSelLen w with
  | 0 => 0
  | 1 => hb hdr (pos + pSelOff w)
  | _ => hb hdr (pos + pSelOff w) * 256 + hb hdr (pos + pSelOff w + 1)

/-- Where a state leads: a kind (0 NEXT, 1 ACCEPT, 2 SLOW) and the next state; the first transition that matches, else the
default (R42). -/
def pNext (ps : ParseSec) (w : QWord) (sel : Nat) : Nat × Nat :=
  let v := sel &&& qf w 79 64
  match ((ps.trans.drop (pTransBase w)).take (pTransCount w)).find? (fun t => bits 31 16 t.toNat == v) with
  | some t => (bits 7 6 t.toNat, bits 15 8 t.toNat)
  | none => (qf w 119 118, qf w 127 120)

/-- Whether a header is a fragment (frag_check, R41): IPv4 with MF or an offset, or an IPv6 Fragment header. -/
def fragTest (w : QWord) (hdr : List Byte) (pos : Nat) : Bool :=
  match pFrag w with
  | 1 => bit 5 (hb hdr (pos + 6)) || (hb hdr (pos + 6) % 32 * 256 + hb hdr (pos + 7)) != 0
  | 2 => true
  | _ => false

/-- The slow-path reasons (R51). -/
inductive SlowReason where
  | parseError | depth | window | unknown | fragment
  deriving DecidableEq, Repr

/-- The counter number of a slow-path reason (R62). -/
def SlowReason.num : SlowReason → Fin 5
  | .parseError => 0
  | .depth => 1
  | .window => 2
  | .unknown => 3
  | .fragment => 4

/-- The extraction buffer: bytes by position; a position not listed is not extracted (R45). -/
abbrev ExtBuf := Map Byte

/-- What a walk ends in. -/
inductive Parsed where
  | accept (state : Nat) (buf : ExtBuf) (cut : Bool)
  | slow (r : SlowReason)
  deriving DecidableEq, Repr

/-- The run of a state copied to the buffer, but for bytes at or beyond the window (R44, R45). -/
def copyRun (w : QWord) (hdr : List Byte) (pos window : Nat) (buf : ExtBuf) : ExtBuf :=
  (List.range (pExtLen w)).foldl (fun m i =>
    let a := pos + pExtOff w + i
    if a < window then mapSet (pExtDest w + i) (hdr.getD a 0) m else mapDel (pExtDest w + i) m) buf

/-- The walk of R44 with `fuel` headers left: each turn is one header. -/
def walk (ps : ParseSec) (hdr : List Byte) (window : Nat) : Nat → Nat → Nat → ExtBuf → Parsed
  | 0, _, _, _ => .slow .depth
  | fuel + 1, state, pos, buf =>
    let w := mapGet 0 ps.states state
    if pos + pSelOff w + pSelLen w > window ∨ (qf w 35 34 ≠ 0 ∧ pos + qf w 41 36 + 1 > window) then .slow .window
    else
      let len := headerLen w hdr pos
      if len = 0 ∨ len < pSelOff w + pSelLen w then .slow .parseError
      else if pos + len > 176 then .slow .window
      else
        let buf := copyRun w hdr pos window buf
        if pExtLen w > 0 ∧ pos + pExtOff w + pExtLen w > window then
          (if bit 23 w.toNat then .accept state buf true else .slow .window)
        else if pFrag w = 1 ∧ pos + 8 > window then .slow .window
        else if fragTest w hdr pos then .slow .fragment
        else
          let (kind, next) := pNext ps w (selectField w hdr pos)
          if kind = 1 then .accept state buf false
          else if kind = 2 then .slow .unknown
          else walk ps hdr window fuel next (pos + len) buf

/-- The window of a slice: min(176, header byte count) (R40). -/
def parseWindow (hdrCount : Nat) : Nat := min 176 hdrCount

/-- Parse a slice from state 0, at most 16 headers deep (R44). -/
def parseSlice (ps : ParseSec) (hdr : List Byte) (hdrCount : Nat) : Parsed :=
  walk ps hdr (parseWindow hdrCount) 16 0 0 []

/-! ### Keys (R64, R65) -/

/-- Range i of a template: buffer offset and length. -/
def tRange (t : QWord) (i : Nat) : Nat × Nat :=
  let r := qf t (127 - 16 * i) (112 - 16 * i)
  (bits 15 7 r, bits 6 1 r)

/-- The buffer positions a template's key takes, in order. -/
def keyPositions (t : QWord) : List Nat :=
  (List.range 7).flatMap (fun i => rangeUp (tRange t i).1 (tRange t i).2)
where
  /-- Consecutive positions. -/
  rangeUp (lo n : Nat) : List Nat := (List.range n).map (· + lo)

/-- The template of an accepting state, if its map entry is valid. -/
def templateOf (ps : ParseSec) (state : Nat) : Option QWord := (mapFind state ps.accMap).bind (fun i => ps.templates[i]?)

/-- The flow key: the partition identifier, big-endian with its upper 6 bits 0, then the ranges (R64); none where a byte was not
extracted or no template is valid (R65). -/
def flowKey (ps : ParseSec) (state : Nat) (buf : ExtBuf) (part : Part) : Option (List Byte) :=
  (templateOf ps state).bind (fun t =>
    ((keyPositions t).mapM (fun p => mapFind p buf)).map (fun bs => beBytes 2 part.val ++ bs))

/-- The TCP flags byte that a template names, when flags_en is 1 and it was extracted (R73). -/
def flagsByte (ps : ParseSec) (state : Nat) (buf : ExtBuf) : Option Byte :=
  (templateOf ps state).bind (fun t => if bit 6 t.toNat then mapFind (qf t 15 7) buf else none)

/-! ### Features (R49, R50, R558) -/

/-- A feature: 16 bits and its missing flag. -/
structure Feat where
  v : BitVec 16 := 0
  missing : Bool := true
  deriving DecidableEq, Repr

/-- A feature as an integer under its signed bit (R50). -/
def featInt (signed : Bool) (f : Feat) : Int := if signed then f.v.toInt else f.v.toNat

/-- A flow-entry field by its number (Table 5a): unsigned value, reduction W, needs history. -/
def flowField (e : FlowEntry) (n : Nat) : Option (Nat × Bool × Bool) :=
  match n with
  | 0 => some (e.lastClass.toNat, false, true)
  | 1 => some (b2n e.seqMode, false, false)
  | 2 => some (e.meanSize.toNat, false, false)
  | 3 => some (e.pktCount.toNat, false, false)
  | 4 => some (e.byteCount.toNat, false, false)
  | 5 => some (e.firstTime.toNat, true, false)
  | 6 => some (e.timeStamp.toNat, true, false)
  | 7 => some (e.minSize.toNat, false, false)
  | 8 => some (e.maxSize.toNat, false, false)
  | 25 => some (e.t2Last.toNat, true, true)
  | n =>
    if 9 ≤ n ∧ n ≤ 16 then some ((e.iatHist.toList.getD (n - 9) 0).toNat, false, true)
    else if 17 ≤ n ∧ n ≤ 24 then some ((e.tcpFlags.toList.getD (n - 17) 0).toNat, false, false)
    else if 26 ≤ n ∧ n ≤ 33 then some (bits (16 * (n - 26) + 15) (16 * (n - 26)) e.t2State.toNat, false, true)
    else if 34 ≤ n ∧ n ≤ 41 then some (bits (16 * (n - 34) + 15) (16 * (n - 34)) e.spState.toNat, false, true)
    else none

/-! ### The slice descriptor (R408) -/

/-- A field of the descriptor. -/
def df (d : BitVec 128) (hi lo : Nat) : Nat := bits hi lo d.toNat
/-- tag. -/
def dTag (d : BitVec 128) : BitVec 24 := BitVec.ofNat 24 (df d 23 0)
/-- feed. -/
def dFeed (d : BitVec 128) : Nat := df d 31 24
/-- arrival. -/
def dArrival (d : BitVec 128) : Word := BitVec.ofNat 32 (df d 63 32)
/-- steering hash. -/
def dSteer (d : BitVec 128) : Nat := df d 79 64
/-- partition. -/
def dPart (d : BitVec 128) : Part := Fin.ofNat 1024 (df d 89 80)
/-- wire_len. -/
def dWireLen (d : BitVec 128) : Nat := df d 103 90
/-- deadline. -/
def dDeadline (d : BitVec 128) : Nat := df d 115 104
/-- hdr_count. -/
def dHdrCount (d : BitVec 128) : Nat := df d 123 116
/-- flags: trunc in bit 0, fcs_bad in bit 1. -/
def dFlags (d : BitVec 128) : Nat := df d 125 124
/-- The reserved flag bits. -/
def dReserved (d : BitVec 128) : Nat := df d 127 126

/-- Descriptor field number n of feature kind 4 (R49). -/
def descField (d : BitVec 128) (n : Nat) : Nat :=
  match n with
  | 0 => dFeed d
  | 1 => dWireLen d
  | 2 => dHdrCount d
  | 3 => dDeadline d
  | _ => dFlags d

/-- One feature from its word, the features before it, the buffer, the snapshot and the descriptor (Table 5). -/
def feature (words : List Word) (buf : ExtBuf) (snap : FlowEntry) (d : BitVec 128) (before : List Feat) (w : Word) : Feat :=
  let n := w.toNat
  let a := bits 27 19 n
  let sh := bits 9 6 n
  let at' := fun i => before.getD i {}
  let signedOf := fun i => bit 28 (words.getD i 0).toNat
  match bits 31 29 n with
  | 1 =>
    match mapFind a buf, mapFind (a + 1) buf with
    | some x, some y => { v := BitVec.ofNat 16 ((x.toNat * 256 + y.toNat) >>> sh), missing := false }
    | _, _ => {}
  | 2 =>
    match mapFind a buf with
    | some x => { v := BitVec.ofNat 16 (x.toNat >>> sh), missing := false }
    | none => {}
  | 3 =>
    match flowField snap a with
    | none => {}
    | some (v, wrap, hist) =>
      if hist ∧ snap.pktCount.toNat < 2 then {}
      else if wrap then { v := BitVec.ofNat 16 (v >>> sh), missing := false }
      else { v := BitVec.ofNat 16 (min (v >>> sh) 0xFFFF), missing := false }
  | 4 => { v := BitVec.ofNat 16 (descField d a >>> sh), missing := false }
  | 5 =>
    let x := at' a
    let i := featInt (signedOf a) x
    if x.missing ∨ i ≤ 0 then {} else { v := BitVec.ofNat 16 (Nat.log2 i.toNat), missing := false }
  | 6 =>
    let x := at' a
    let b := bits 18 10 n
    let y := at' b
    if x.missing ∨ y.missing then {}
    else
      let r := featInt (signedOf a) x - featInt (signedOf b) y
      let r := if bit 28 n then clampInt (-32768) 32767 r else clampInt 0 65535 r
      { v := BitVec.ofInt 16 r, missing := false }
  | _ => {}

/-- The features of a slice, in ascending index (R49). -/
def features (ps : ParseSec) (buf : ExtBuf) (snap : FlowEntry) (d : BitVec 128) : List Feat :=
  ps.features.foldl (fun fs w => fs ++ [feature ps.features buf snap d fs w]) []

/-! ### Checks of the section (R40, R43, R64) -/

/-- Whether a state word breaks R43. -/
def badState (ps : ParseSec) (w : QWord) : Bool :=
  qf w 119 118 == 3 || qf w 117 112 != 0 || qf w 94 88 != 0 || pSelLen w == 3 || bit 42 w.toNat || pFrag w == 3
  || qf w 22 0 != 0 || decide (16 < pTransCount w) || decide (32 < pExtLen w) || decide (512 < pExtDest w + pExtLen w)
  || decide (4096 < pTransBase w + pTransCount w) || decide (ps.trans.length < pTransBase w + pTransCount w)
  || (qf w 119 118 == 0 && (mapFind (qf w 127 120) ps.states).isNone)

/-- Whether a transition word breaks R43. -/
def badTrans (ps : ParseSec) (t : Word) : Bool :=
  bits 7 6 t.toNat == 3 || bits 5 0 t.toNat != 0 || (bits 7 6 t.toNat == 0 && (mapFind (bits 15 8 t.toNat) ps.states).isNone)

/-- Whether a key template breaks R64. -/
def badTemplate (t : QWord) : Bool :=
  qf t 5 0 != 0 || (List.range 7).any (fun i => bit (112 - 16 * i) t.toNat || decide (62 < (tRange t i).2)
    || ((tRange t i).2 != 0 && decide (512 < (tRange t i).1 + (tRange t i).2)))
  || decide (62 < ((List.range 7).map (fun i => (tRange t i).2)).sum)

/-- Whether the feature word of an index breaks R43. -/
def badFeature (i : Nat) (w : Word) : Bool :=
  let n := w.toNat
  let a := bits 27 19 n
  let k := bits 31 29 n
  bits 5 0 n != 0 || k == 7 || (k == 1 && a == 511) || (k == 3 && decide (41 < a)) || (k == 4 && decide (4 < a))
  || ((k == 5 || k == 6) && decide (i ≤ a)) || (k == 6 && decide (i ≤ bits 18 10 n))

/-- Whether the parse section is refused with ST_PARSE (R40, R43). -/
def parseRefused (ps : ParseSec) : Bool :=
  decide (256 < ps.states.length) || decide (4096 < ps.trans.length) || decide (64 < ps.templates.length)
  || decide (512 < ps.features.length) || (mapFind 0 ps.states).isNone || ps.states.any (fun p => decide (255 < p.1))
  || ps.states.any (fun p => badState ps p.2) || ps.trans.any (badTrans ps) || ps.templates.any badTemplate
  || ps.accMap.any (fun p => decide (ps.templates.length ≤ p.2) || decide (255 < p.1))
  || (ps.features.zipIdx).any (fun p => badFeature p.2 p.1)
  || decide (ps.fragTimeoutNs < 1000000) || decide (60000000000 < ps.fragTimeoutNs)

end Sys2Proof.Machine
end

