-- ==== Sys2Proof/Machine/FlowTable.lean ====
section
/-!
DEFINITION. The flow table of one P-die: digests, entries, lookup, the counting update, insertion, eviction, ageing, merges and
commits (chapter 3).
-/

namespace Sys2Proof.Machine

open Sys2Proof

/-! ### Digests and times (R66, R69) -/

/-- Buckets of a hot tier (R63). -/
def hotBuckets : Nat := 786432

/-- The digest of a key (R66): bits [127:17] of SipHash-2-4-128, 1 in place of 0. -/
def keyDigest (kd : QWord) (key : List Byte) : BitVec 111 :=
  let d : BitVec 111 := (sip128 kd key >>> 17).setWidth 111
  if d = 0 then 1 else d

/-- The bucket index of a key (R66). -/
def keyBucket (kb : QWord) (key : List Byte) : Nat := ((sip64 kb key).toNat / 2 ^ 32 * hotBuckets) / 2 ^ 32

/-- The time-stamp of a wall-counter value: bits [41:10] (R69). -/
def timeStampOf (wall : DWord) : Word := (wall >>> 10).setWidth 32

/-- The age of a time-stamp (R69). -/
def ageOf (now t : Word) : Nat := (now - t).toNat

/-- Whether time a is earlier than time b (R69). -/
def earlier (a b : Word) : Bool := decide (1 ≤ (b - a).toNat) && decide ((b - a).toNat < 2 ^ 31)

/-! ### Partition parameters -/

/-- What the flow table reads of a partition (R77, R79, R80, R89): warm says that the warm tier is in use for it. -/
structure FlowParams where
  idleS : Nat := 0
  warm : Bool := false
  random : Bool := false
  gen : BitVec 6 := 0
  quota : Nat := 0
  deriving DecidableEq, Repr

/-- What every access takes: the parameters of each partition, the flow-geometry epoch and the time-stamp. -/
structure FlowCtx where
  params : Part → FlowParams
  geom : BitVec 16
  ts : Word
  wall : DWord

/-- The idle timeout in time-stamp units (R80). -/
def idleUnits (idleS : Nat) : Nat := idleS * 1000000000 / 1024

/-- Whether an entry is treated as EMPTY for a stale generation or flow-geometry epoch (R70). -/
def stale (c : FlowCtx) (e : FlowEntry) : Bool := e.gen != (c.params e.part).gen || e.epoch != c.geom

/-- Whether an entry has reached its partition's idle timeout (R80). -/
def aged (c : FlowCtx) (e : FlowEntry) : Bool :=
  (c.params e.part).idleS != 0 && decide (idleUnits (c.params e.part).idleS ≤ ageOf c.ts e.timeStamp)

/-! ### Counters of a P-die -/

/-- A counter raised by n; 48 bits (R62). -/
def cntAdd (k n : Nat) (m : Map (BitVec 48)) : Map (BitVec 48) := mapMod 0 k (fun v => v + BitVec.ofNat 48 n) m

/-- A P-die counter raised: PKT_CNT_n at n, FLW_CNT_n at 100 + n, TRE_CNT_n at 200 + n. -/
def pcnt (k n : Nat) (p : PDie) : PDie := { p with cnt := cntAdd k n p.cnt }

/-! ### The counting update (R73, R74) -/

/-- A 16-bit count saturated. -/
def sat16 (n : Nat) : BitVec 16 := BitVec.ofNat 16 (min n 0xFFFF)

/-- A 64-bit count saturated. -/
def sat64 (n : Nat) : DWord := BitVec.ofNat 64 (min n (2 ^ 64 - 1))

/-- The histogram bin of a gap (R74). -/
def iatBin (g : Nat) : Fin 8 :=
  if g = 0 then 0 else if 4096 ≤ g then 7 else Fin.ofNat 8 (Nat.log2 g / 2 + 1)

/-- The mean size of the counts. -/
def meanOf (pkts bytes : DWord) : BitVec 16 :=
  if pkts = 0 then 0 else sat16 (rnaDiv bytes.toNat pkts.toNat).toNat

/-- The counting update of one packet (R73). -/
def countPacket (w : Nat) (ts : Word) (flags : Option Byte) (e : FlowEntry) : FlowEntry :=
  let e := if e.pktCount = 0 then { e with firstTime := ts, minSize := sat16 w, maxSize := sat16 w }
    else
      let b := iatBin (ageOf ts e.timeStamp)
      { e with iatHist := e.iatHist.set b.val (sat16 ((e.iatHist.get b).toNat + 1)) b.isLt
               minSize := if w < e.minSize.toNat then sat16 w else e.minSize
               maxSize := if e.maxSize.toNat < w then sat16 w else e.maxSize }
  let pkts := sat64 (e.pktCount.toNat + 1)
  let bytes := sat64 (e.byteCount.toNat + w)
  let tcp := match flags with
    | none => e.tcpFlags
    | some f => Vector.ofFn (fun i : Fin 8 => if f.getLsbD i.val then sat16 ((e.tcpFlags.get i).toNat + 1) else e.tcpFlags.get i)
  { e with pktCount := pkts, byteCount := bytes, meanSize := meanOf pkts bytes, timeStamp := ts, tcpFlags := tcp }

/-! ### Merges (R84) -/

/-- Bytes 16 to 127 of an entry (Table 2). -/
def entryBody (e : FlowEntry) : List Byte :=
  [BitVec.ofNat 8 (b2n e.young * 128 + b2n e.seqMode * 64), e.lastClass.setWidth 8]
  ++ leBytes 2 (e.gen.toNat * 1024 + e.part.val) ++ leBytes 2 e.epoch.toNat ++ leBytes 2 e.meanSize.toNat
  ++ leBytes 8 e.pktCount.toNat ++ leBytes 8 e.byteCount.toNat ++ leBytes 4 e.firstTime.toNat ++ leBytes 4 e.timeStamp.toNat
  ++ leBytes 2 e.minSize.toNat ++ leBytes 2 e.maxSize.toNat
  ++ leBytes 4 (match e.seqCtx with
      | some c => 2 ^ 31 + c.toNat
      | none => 0)
  ++ e.iatHist.toList.flatMap (fun v => leBytes 2 v.toNat) ++ e.tcpFlags.toList.flatMap (fun v => leBytes 2 v.toNat)
  ++ leBytes 8 e.t2Last.toNat ++ leBytes 16 e.t2State.toNat ++ leBytes 16 e.spState.toNat

/-- Whether the first differing byte of two strings is larger in the first. -/
def firstDiffLarger : List Byte → List Byte → Bool
  | a :: s, b :: t => if a = b then firstDiffLarger s t else decide (b.toNat < a.toNat)
  | _, _ => false

/-- Whether entry a is the later entry of two (R84). -/
def isLater (a b : FlowEntry) : Bool :=
  if earlier b.timeStamp a.timeStamp then true
  else if earlier a.timeStamp b.timeStamp then false
  else firstDiffLarger ((entryBody a).drop 1) ((entryBody b).drop 1)

/-- The merge of two entries of one flow (R84). -/
def mergeEntries (a b : FlowEntry) : FlowEntry :=
  let later := if isLater a b then a else b
  let other := if isLater a b then b else a
  let pkts := sat64 (a.pktCount.toNat + b.pktCount.toNat)
  let bytes := sat64 (a.byteCount.toNat + b.byteCount.toNat)
  { later with
    pktCount := pkts, byteCount := bytes, meanSize := meanOf pkts bytes
    iatHist := Vector.ofFn (fun i => sat16 ((a.iatHist.get i).toNat + (b.iatHist.get i).toNat))
    tcpFlags := Vector.ofFn (fun i => sat16 ((a.tcpFlags.get i).toNat + (b.tcpFlags.get i).toNat))
    minSize := if a.minSize.toNat ≤ b.minSize.toNat then a.minSize else b.minSize
    maxSize := if a.maxSize.toNat ≤ b.maxSize.toNat then b.maxSize else a.maxSize
    firstTime := if earlier a.firstTime b.firstTime then a.firstTime
      else if earlier b.firstTime a.firstTime then b.firstTime else other.firstTime
    seqCtx := match later.seqCtx with
      | some c => some c
      | none => other.seqCtx }

/-! ### Lookup (R71, R72) -/

/-- A bucket of the hot tier. -/
def bucketOf (p : PDie) (i : Nat) : Bucket := mapGet {} p.hot i

/-- Put a bucket back. -/
def putBucket (i : Nat) (b : Bucket) (p : PDie) : PDie := { p with hot := mapSet i b p.hot }

/-- The position (slots 0 to 3, then links 4 to 7) of the entry that a digest of a partition finds, not treated as EMPTY. -/
def findEntry (c : FlowCtx) (b : Bucket) (digest : BitVec 111) (part : Part) : Option Nat :=
  (List.range 8).find? (fun i => match mapFind i b.pos with
    | some e => e.digest == digest && e.part == part && !stale c e
    | none => false)

/-- The entries of a bucket dropped at a position; the link of an overflow position is freed. -/
def dropPos (i : Nat) (b : Bucket) : Bucket := { pos := mapDel i b.pos, link := mapDel i b.link }

/-- Every entry of a P-die that a predicate holds of. -/
def hotCount (p : PDie) (q : FlowEntry → Bool) : Nat :=
  (p.hot.map (fun b => (b.2.pos.filter (fun e => q e.2)).length)).sum

/-- The entries a partition holds on a P-die (R77). -/
def heldBy (c : FlowCtx) (p : PDie) (part : Part) : Nat := hotCount p (fun e => e.part == part && !stale c e)

/-- A partition's quota share on one P-die (R77). -/
def quotaShare (quota : Nat) : Nat := ceilDiv quota 4

/-- Overflow indices in use. -/
def ovfUsed (p : PDie) : List Nat := p.hot.flatMap (fun b => b.2.link.map (·.2))

/-- The lowest free overflow index; the store has 65,536 (R63). -/
def freeOvf (p : PDie) : Option Nat :=
  let used := ovfUsed p
  if 65536 ≤ used.length then none else (List.range (used.length + 1)).find? (fun i => !used.contains i)

/-- One advance of the eviction register (R76). -/
def lfsrNext (l : Word) : Word :=
  (l <<< 1) ||| (if (l.getLsbD 31 ^^ l.getLsbD 21) ^^ (l.getLsbD 1 ^^ l.getLsbD 0) then 1 else 0)

/-- The candidates of an eviction in position order (R76). -/
def candidates (c : FlowCtx) (b : Bucket) (onlyPart : Option Part) : List (Nat × FlowEntry) :=
  (List.range 8).filterMap (fun i => match mapFind i b.pos with
    | some e => if !e.young && !stale c e && (onlyPart == none || onlyPart == some e.part) then some (i, e) else none
    | none => none)

/-- The candidate of greatest age, the lowest position on a tie (R76). -/
def oldestOf (ts : Word) (cs : List (Nat × FlowEntry)) : Option (Nat × FlowEntry) :=
  cs.foldl (fun best x => match best with
    | none => some x
    | some b => if ageOf ts b.2.timeStamp < ageOf ts x.2.timeStamp then some x else some b) none

/-- A new entry before its counting update (R75). -/
def newEntry (c : FlowCtx) (digest : BitVec 111) (part : Part) : FlowEntry :=
  { digest, young := true, gen := (c.params part).gen, part, epoch := c.geom }

/-- Where an insertion goes. -/
inductive Place where
  | slot (i : Nat) (reclaim : Bool)
  | overflow (i idx : Nat) (reclaim : Bool)
  | victim (i : Nat) (e : FlowEntry)
  | none
  deriving DecidableEq, Repr

/-- The place of an insertion (R75 to R77); `same` is the slot that an aged entry of the same lookup has just left (R80). -/
def placeFor (c : FlowCtx) (p : PDie) (b : Bucket) (part : Part) (same : Option Nat) : Place :=
  let share := quotaShare (c.params part).quota
  let below := decide (heldBy c p part < share)
  let isEmpty := fun i => match mapFind i b.pos with
    | some e => stale c e
    | none => true
  let taken := fun i => (mapFind i b.pos).isSome
  if share = 0 then .none
  else if below then
    match same with
    | some i => if i < 4 then .slot i false else .overflow i (mapGet 0 b.link i) false
    | none =>
      match (List.range 4).find? isEmpty with
      | some i => .slot i (taken i)
      | none =>
        match (rangeFrom 4 4).find? (fun i => taken i && isEmpty i) with
        | some i => .overflow i (mapGet 0 b.link i) true
        | none =>
          match (rangeFrom 4 4).find? (fun i => !taken i), freeOvf p with
          | some i, some idx => .overflow i idx false
          | _, _ => evict none
  else evict (some part)
where
  /-- The victim among the candidates under the inserting partition's policy. -/
  evict (only : Option Part) : Place :=
    let cs := candidates c b only
    if (c.params part).random then
      match cs[if cs.length = 0 then 0 else p.lfsr.toNat % cs.length]? with
      | some x => .victim x.1 x.2
      | none => .none
    else
      match oldestOf c.ts cs with
      | some x => .victim x.1 x.2
      | none => .none

/-- An evicted entry: demoted when the warm tier is in use for its partition, dropped otherwise (R79). -/
def evicted (c : FlowCtx) (e : FlowEntry) (p : PDie) : PDie × Option FlowEntry :=
  if (c.params e.part).warm then (pcnt 103 1 p, some { e with young := false }) else (pcnt 104 1 p, none)

/-- What an access gives: the P-die, the snapshot after the slice's own counting update (R85), where the entry is, whether it was
a hit, and an entry to demote. -/
structure FlowResult where
  p : PDie
  snap : FlowEntry
  ref : FlowRef
  hit : Bool
  demote : Option FlowEntry := none

/-- A transient entry: its own counting update alone (R78). -/
def transient (w : Nat) (ts : Word) (flags : Option Byte) (part : Part) : FlowEntry := countPacket w ts flags { part }

/-- Put a new entry in place, start its warm probe, and count it (R75, R83). -/
def insertEntry (c : FlowCtx) (p : PDie) (bi i : Nat) (link : Option Nat) (digest : BitVec 111) (part : Part) (w : Nat)
    (flags : Option Byte) (nowNs : Nat) : PDie × FlowEntry :=
  let b := bucketOf p bi
  let warm := (c.params part).warm
  let e := countPacket w c.ts flags { newEntry c digest part with young := warm }
  let b' : Bucket := { pos := mapSet i e b.pos, link := match link with
    | some idx => mapSet i idx b.link
    | none => b.link }
  let p := pcnt 101 1 (putBucket bi b' p)
  let p := if link.isSome then pcnt 102 1 p else p
  let p := if warm then
      { p with probes := p.probes ++ [{ id := p.nextProbe, bucket := bi, digest, part, gen := e.gen, geom := e.epoch, sentNs := nowNs }],
               nextProbe := p.nextProbe + 1 }
    else p
  (p, e)

/-- An access of one slice of a keyed flow (R71 to R80). -/
def flowAccess (c : FlowCtx) (p : PDie) (key : List Byte) (kd kb : QWord) (part : Part) (w : Nat) (flags : Option Byte)
    (nowNs : Nat) : FlowResult :=
  let digest := keyDigest kd key
  let bi := keyBucket kb key
  let b := bucketOf p bi
  let ref : FlowRef := { tracked := true, digest, bucket := bi, part, gen := (c.params part).gen, geom := c.geom }
  let found := findEntry c b digest part
  match found.bind (fun i => (mapFind i b.pos).map (fun e => (i, e))) with
  | some (i, e) =>
    if aged c e then
      let p := pcnt 105 1 (putBucket bi (dropPos i b) p)
      miss p digest bi ref (some i)
    else
      let e := countPacket w c.ts flags e
      { p := pcnt 100 1 (putBucket bi { b with pos := mapSet i e b.pos } p), snap := e, ref, hit := true }
  | none => miss p digest bi ref none
where
  /-- The access goes on as a miss. -/
  miss (p : PDie) (digest : BitVec 111) (bi : Nat) (ref : FlowRef) (same : Option Nat) : FlowResult :=
    match placeFor c p (bucketOf p bi) part same with
    | .none => { p := pcnt 106 1 p, snap := transient w c.ts flags part, ref := { ref with tracked := false }, hit := false }
    | .slot i reclaim =>
      let p := if reclaim then pcnt 113 1 p else p
      let r := insertEntry c p bi i none digest part w flags nowNs
      { p := r.1, snap := r.2, ref, hit := false }
    | .overflow i idx reclaim =>
      let p := if reclaim then pcnt 113 1 p else p
      let r := insertEntry c p bi i (some idx) digest part w flags nowNs
      { p := r.1, snap := r.2, ref, hit := false }
    | .victim i e =>
      let (p, d) := evicted c e { p with lfsr := lfsrNext p.lfsr }
      let r := insertEntry c p bi i none digest part w flags nowNs
      { p := r.1, snap := r.2, ref, hit := false, demote := d }

/-! ### Commits (R86 to R88) -/

/-- A commit of any kind: it finds the entry by digest, partition and generation, or is discarded and counted (R88). -/
def commitEntry (c : FlowCtx) (r : FlowRef) (f : FlowEntry → FlowEntry) (p : PDie) : PDie :=
  if !r.tracked then p
  else if r.geom != c.geom then pcnt 112 1 p
  else
    let b := bucketOf p r.bucket
    match (List.range 8).find? (fun i => match mapFind i b.pos with
        | some e => e.digest == r.digest && e.part == r.part && e.gen == r.gen && !stale c e
        | none => false) with
    | some i => putBucket r.bucket { b with pos := mapMod {} i f b.pos } p
    | none => pcnt 112 1 p

/-- The entry that a reference names, if it is there. -/
def peekEntry (c : FlowCtx) (r : FlowRef) (p : PDie) : Option FlowEntry :=
  if !r.tracked || r.geom != c.geom then none
  else
    let b := bucketOf p r.bucket
    (List.range 8).findSome? (fun i => match mapFind i b.pos with
      | some e => if e.digest == r.digest && e.part == r.part && e.gen == r.gen && !stale c e then some e else none
      | none => none)

/-- A tier-2 write of t2_state (R87): it applies only if t_in is above t2_last; one discarded while t2_last lies above the wall
counter is counted as lost. -/
def commitT2 (c : FlowCtx) (r : FlowRef) (tIn : DWord) (v : BitVec 128) (p : PDie) : PDie :=
  match peekEntry c r p with
  | some e =>
    if e.t2Last.toNat < tIn.toNat then commitEntry c r (fun e => { e with t2State := v, t2Last := tIn }) p
    else if c.wall.toNat < e.t2Last.toNat then pcnt 112 1 p else p
  | none => if r.tracked then pcnt 112 1 p else p

/-! ### Sweeping and warm replies (R81, R83) -/

/-- Sweep one bucket: entries aged or treated as EMPTY are dropped and counted. -/
def sweepBucket (c : FlowCtx) (bi : Nat) (p : PDie) : PDie :=
  let b := bucketOf p bi
  let p := b.pos.foldl (fun p x => if stale c x.2 then pcnt 113 1 p else if aged c x.2 then pcnt 105 1 p else p) p
  let gone := (b.pos.filter (fun x => stale c x.2 || aged c x.2)).map (·.1)
  let b' := gone.foldl (fun b i => dropPos i b) b
  if gone = [] then p else putBucket bi b' p

/-- A warm reply for a probe: within 2 us a hit is merged into the entry and the entry becomes ESTABLISHED; an entry that has left
the table discards the reply (R83). -/
def warmReply (c : FlowCtx) (pr : WarmProbe) (hit : Option FlowEntry) (p : PDie) : PDie :=
  let p := { p with probes := p.probes.filter (fun q => q.id != pr.id) }
  let r : FlowRef := { tracked := true, digest := pr.digest, bucket := pr.bucket, part := pr.part, gen := pr.gen, geom := pr.geom }
  match peekEntry c r p with
  | none => pcnt 110 1 p
  | some _ =>
    match hit with
    | some w => pcnt 108 1 (commitEntry c r (fun e => { mergeEntries e w with young := false, epoch := e.epoch, gen := e.gen }) p)
    | none => pcnt 109 1 (commitEntry c r (fun e => { e with young := false }) p)

/-- Two microseconds without a reply: the entry becomes ESTABLISHED (R83). -/
def warmTimeout (c : FlowCtx) (pr : WarmProbe) (p : PDie) : PDie :=
  let r : FlowRef := { tracked := true, digest := pr.digest, bucket := pr.bucket, part := pr.part, gen := pr.gen, geom := pr.geom }
  match peekEntry c r p with
  | some _ => commitEntry c r (fun e => { e with young := false }) p
  | none => p

end Sys2Proof.Machine
end

