-- ==== Sys2Proof/Machine/Trees.lean ====
section
/-!
DEFINITION. The tree pipeline: node tests, class sums, scores, the verdict map, and the checks of an ensemble section (chapter 4).
-/

namespace Sys2Proof.Machine

open Sys2Proof

/-! ### Node words (R99 to R102) -/

/-- Where one visit leads: the leaf or node index, and which counter it raises (R102). -/
structure Visit where
  leaf : Bool
  idx : Nat
  missing : Nat := 0
  unknown : Nat := 0
  deriving DecidableEq, Repr

/-- The direction of a node for a slice: left, or the default direction with the counters it raises (R100, R101). -/
def nodeGoes (feats : List Feat) (signed : Nat → Bool) (bitmaps : List DWord) (w : DWord) : Bool × Nat × Nat :=
  let n := w.toNat
  let f := bits 63 55 n
  let x := feats.getD f {}
  let v := featInt (signed f) x
  let dflt := !bit 52 n
  let th : BitVec 16 := BitVec.ofNat 16 (bits 51 36 n)
  let t : Int := if signed f then th.toInt else th.toNat
  match bits 54 53 n with
  | 3 => (dflt, 0, 0)
  | 2 =>
    if x.missing then (dflt, 1, 0)
    else if v < 0 ∨ 64 ≤ v then (dflt, 0, 1)
    else ((bitmaps.getD (bits 47 36 n) 0).getLsbD v.toNat, 0, 0)
  | 1 => if x.missing then (dflt, 1, 0) else (decide (v ≤ t), 0, 0)
  | _ => if x.missing then (dflt, 1, 0) else (decide (v < t), 0, 0)

/-- Walk one tree down the levels: the leaf index reached and the counters raised. A level 11 node has two leaves (R107). -/
def walkTree (feats : List Feat) (signed : Nat → Bool) (bitmaps : List DWord) : List (List DWord) → Nat → Nat × Nat × Nat
  | [], i => (i, 0, 0)
  | lv :: rest, i =>
    let w := lv.getD i 0
    let (left, m, u) := nodeGoes feats signed bitmaps w
    let n := w.toNat
    let leaf := if left then bit 35 n else bit 34 n
    let ref := if left then bits 33 17 n else bits 16 0 n
    if leaf then (ref, m, u)
    else
      let r := walkTree feats signed bitmaps rest ref
      (r.1, m + r.2.1, u + r.2.2)

/-- The leaf codes of a class summed over the trees (R103, R104). -/
def classSum (e : Ensemble) (leafIdx : List Nat) (c : Nat) : Int :=
  leafIdx.foldl (fun s i => s + codeInt 4 (bits (4 * c + 3) (4 * c) (e.leaves.getD i 0).toNat)) 0

/-- The scaled score of a class: RNA_FP32(sum times scale) (R104). -/
def classScore (e : Ensemble) (sum : Int) (c : Nat) : Word :=
  match (fpRead fp32 (e.scales.getD c 0).toNat).1 with
  | .fin v => (rna32 (dyMul (dyInt sum) v)).1
  | _ => 0

/-- The order of scores for the top class: NaN below every number, -0 equal to +0 (R105). -/
def scoreLess (a b : Word) : Bool :=
  match (fpRead fp32 a.toNat).1, (fpRead fp32 b.toNat).1 with
  | _, .nan => false
  | .nan, _ => true
  | .zero _, .zero _ => false
  | x, y => fpLess x y

/-- The top class: the greatest score, the lower index on a tie (R105). -/
def topClass (scores : List Word) : Nat :=
  (scores.zipIdx.foldl (fun (best : Nat × Word) x => if scoreLess best.2 x.1 then (x.2, x.1) else best)
    (0, scores.getD 0 0)).1

/-- The score carried in a verdict: clamp(RNA(score * 256)) (R105). -/
def scoreQ (s : Word) : BitVec 16 :=
  match (fpRead fp32 s.toNat).1 with
  | .nan => 0
  | .inf neg => if neg then BitVec.ofInt 16 (-32768) else 32767
  | .zero _ => 0
  | .fin v => BitVec.ofInt 16 (clampInt (-32768) 32767 (rnaInt (dyMul v ⟨1, 8⟩)))

/-- What tier 1 gives a slice. -/
structure Tier1 where
  top : Nat
  q : BitVec 16
  missing : Nat
  unknown : Nat
  twoPasses : Bool
  deriving DecidableEq, Repr

/-- Whether an ensemble runs in two passes (R108). -/
def recirculates (e : Ensemble) : Bool := e.passes == 2 && decide (512 < e.trees1 + e.trees2)

/-- Tier 1 over all trees of both passes. -/
def runTrees (e : Ensemble) (feats : List Feat) (signed : Nat → Bool) : Tier1 :=
  let walks := (List.range (e.trees1 + e.trees2)).map (fun i => walkTree feats signed e.bitmaps e.levels i)
  let leafIdx := walks.map (·.1)
  let scores := (List.range e.nClasses).map (fun c => classScore e (classSum e leafIdx c) c)
  let top := topClass scores
  { top, q := scoreQ (scores.getD top 0), missing := (walks.map (·.2.1)).sum, unknown := (walks.map (·.2.2)).sum,
    twoPasses := recirculates e }

/-! ### Verdict maps (R113, R114) -/

/-- A signed 16-bit field. -/
def s16 (n : Nat) : Int := (BitVec.ofNat 16 n).toInt

/-- The band of a score in a class entry (R113). -/
def bandOf (w : QWord) (q : BitVec 16) : Nat :=
  let v := q.toInt
  if v < s16 (qf w 79 64) then 0 else if v < s16 (qf w 95 80) then 1 else if v < s16 (qf w 111 96) then 2 else 3

/-- The rule that a map gives a top class and score. -/
def ruleOf (vmap : List QWord) (top : Nat) (q : BitVec 16) : Nat :=
  let w := vmap.getD top 0
  qf w (16 * bandOf w q + 15) (16 * bandOf w q)

/-- The outcome of a rule: 0 FINAL, 1 ESCALATE, 2 SEQUENCE (R114). -/
def rOutcome (r : Nat) : Nat := bits 15 14 r
/-- The enrol bit. -/
def rEnrol (r : Nat) : Bool := bit 13 r
/-- The action. -/
def rAction (r : Nat) : BitVec 4 := BitVec.ofNat 4 (bits 11 8 r)
/-- The fallback action. -/
def rFallback (r : Nat) : BitVec 4 := BitVec.ofNat 4 (bits 7 4 r)

/-- Whether a rule is refused (R114): `only` is a map that may hold FINAL rules alone. -/
def badRule (only hasT2 : Bool) (r : Nat) : Bool :=
  rOutcome r == 3 || bit 12 r || bits 3 0 r != 0 || decide (4 < bits 11 8 r) || decide (4 < bits 7 4 r)
  || (rOutcome r == 0 && bits 7 4 r != 0) || (rOutcome r == 1 && !hasT2) || (only && (rOutcome r != 0 || rEnrol r))

/-- Whether a verdict map is refused (R113, R114). -/
def badMap (only hasT2 : Bool) (n : Nat) (m : List QWord) : Bool :=
  m.length != 16 || (m.zipIdx).any (fun p =>
    let w := p.1
    if n ≤ p.2 then w != 0
    else qf w 127 112 != 0 || decide (s16 (qf w 95 80) < s16 (qf w 79 64)) || decide (s16 (qf w 111 96) < s16 (qf w 95 80))
      || (List.range 4).any (fun b => badRule only hasT2 (qf w (16 * b + 15) (16 * b))))

/-! ### The ensemble section (R106, R107) -/

/-- Whether a node of a level breaks R107. -/
def badNode (e : Ensemble) (l : Nat) (w : DWord) : Bool :=
  let n := w.toNat
  let next := (e.levels.getD (l + 1) []).length
  let badRef := fun (leaf : Bool) (r : Nat) => if leaf then decide (e.leaves.length ≤ r) else decide (next ≤ r)
  (l == 11 && !(bit 35 n && bit 34 n)) || badRef (bit 35 n) (bits 33 17 n) || badRef (bit 34 n) (bits 16 0 n)
  || (bits 54 53 n == 2 && (decide (e.bitmaps.length ≤ bits 47 36 n) || bits 51 48 n != 0))
  || (bits 54 53 n == 3 && (bits 63 55 n != 0 || bits 51 36 n != 0))

/-- The limit of a scale: 2 to the 16 (R107). -/
def badScale32 (s : Word) : Bool :=
  !isFinite32 s || dyLt ⟨1, 16⟩ (magnitude s)

/-- Whether an ensemble section is refused (R107, R113, R114). -/
def ensembleRefused (hasT2 : Bool) (e : Ensemble) : Bool :=
  e.nClasses == 0 || decide (16 < e.nClasses) || !(e.passes == 1 || e.passes == 2) || decide (512 < e.trees1)
  || (e.passes == 1 && e.trees2 != 0) || (e.passes == 2 && (e.trees2 == 0 || decide (512 < e.trees2)))
  || decide (4096 < e.bitmaps.length) || decide (131072 < e.leaves.length) || e.levels.length != 12 || e.scales.length != 16
  || (e.levels.getD 0 []).length != e.trees1 + e.trees2 || e.levels.any (fun l => decide (65536 < l.length))
  || decide (65535 < e.escLimit)
  || (e.levels.zipIdx).any (fun l => l.1.any (badNode e l.2))
  || e.leaves.any (fun w => (List.range 16).any (fun c => decide (e.nClasses ≤ c) && bits (4 * c + 3) (4 * c) w.toNat != 0))
  || e.scales.any badScale32 || badMap false hasT2 e.nClasses e.vmap

/-- The tree words an ensemble takes on one P-die (R111). -/
def treeWords (e : Ensemble) : Nat := (e.levels.map List.length).sum + e.leaves.length + e.bitmaps.length

/-- The default bank sizes (Table 1 of the tree chapter). -/
def defaultBanks : List Nat := [8, 8, 8, 16, 16, 24, 24, 32, 32, 32, 32, 24]

/-- The bank sizes in force: the geometry section's, or the defaults where it is empty (R97). -/
def bankSizes (g : List Nat) : List Nat := if g.isEmpty then defaultBanks else g

/-- Whether a geometry section is refused (R97). -/
def geomRefused (g : List Nat) : Bool :=
  !g.isEmpty && (g.length != 12 || g.sum != 256 || g.any (fun n => n == 0 || decide (64 < n)))

/-! ### Token buckets (R52, R115) -/

/-- A bucket refilled at a rate per microsecond up to a depth, levels counted in thousandths. -/
def refill (rate depth nowNs : Nat) (b : TokenBucket) : TokenBucket :=
  { level := min (depth * 1000) (b.level + rate * (nowNs - b.atNs)), atNs := nowNs }

/-- Take one token: the bucket after it, and whether it had one. -/
def takeToken (rate depth nowNs : Nat) (b : TokenBucket) : TokenBucket × Bool :=
  let b := refill rate depth nowNs b
  if 1000 ≤ b.level then ({ b with level := b.level - 1000 }, true) else (b, false)

end Sys2Proof.Machine
end

