-- ==== Sys2Proof/Machine/Ops.lean ====
section
/-!
DEFINITION. The named operations of the device: access to each unit, counters, records of events, faults and audit, rings and
vectors, epochs and the production of verdicts.
-/

namespace Sys2Proof.Machine

open Sys2Proof

/-! ### Units -/

/-- A brick by its physical number (C-die times 16 plus brick). -/
def brickAt (s : State) (b : Nat) : BrickSt := mapGet {} s.bricks b
/-- A brick put back. -/
def putBrick (b : Nat) (x : BrickSt) (s : State) : State := { s with bricks := mapSet b x s.bricks }
/-- A brick changed. -/
def modBrick (b : Nat) (f : BrickSt → BrickSt) (s : State) : State := putBrick b (f (brickAt s b)) s

/-- A P-die. -/
def pdieAt (s : State) (p : Nat) : PDie := mapGet {} s.pdies p
/-- A P-die put back. -/
def putPdie (p : Nat) (x : PDie) (s : State) : State := { s with pdies := mapSet p x s.pdies }
/-- A P-die changed. -/
def modPdie (p : Nat) (f : PDie → PDie) (s : State) : State := putPdie p (f (pdieAt s p)) s

/-- An L-die. -/
def ldieAt (s : State) (l : Nat) : LDieQ := mapGet {} s.ldies l
/-- An L-die put back. -/
def putLdie (l : Nat) (x : LDieQ) (s : State) : State := { s with ldies := mapSet l x s.ldies }
/-- An L-die changed. -/
def modLdie (l : Nat) (f : LDieQ → LDieQ) (s : State) : State := putLdie l (f (ldieAt s l)) s

/-- An S-die. -/
def sdieAt (s : State) (i : Nat) : SDie := mapGet {} s.sdies i
/-- An S-die put back. -/
def putSdie (i : Nat) (x : SDie) (s : State) : State := { s with sdies := mapSet i x s.sdies }
/-- An S-die changed. -/
def modSdie (i : Nat) (f : SDie → SDie) (s : State) : State := putSdie i (f (sdieAt s i)) s

/-- A partition. -/
def partAt (s : State) (p : Nat) : PartSt := mapGet {} s.parts p
/-- A partition put back. -/
def putPart (p : Nat) (x : PartSt) (s : State) : State := { s with parts := mapSet p x s.parts }
/-- A partition changed. -/
def modPart (p : Nat) (f : PartSt → PartSt) (s : State) : State := putPart p (f (partAt s p)) s

/-- The model side of a partition. -/
def modelAt (s : State) (p : Nat) : ModelSt := mapGet {} s.models p
/-- The model side of a partition put back. -/
def putModel (p : Nat) (x : ModelSt) (s : State) : State := { s with models := mapSet p x s.models }
/-- The model side of a partition changed. -/
def modModel (p : Nat) (f : ModelSt → ModelSt) (s : State) : State := putModel p (f (modelAt s p)) s

/-- The time since power-on in nanoseconds. -/
def nowNs (s : State) : Nat := s.time.now

/-! ### Counters (R62, R422, R317, R347, R444, R479) -/

/-- A P-die counter raised: PKT_CNT_n at n, FLW_CNT_n at 100 + n, TRE_CNT_n at 200 + n. -/
def cntPdie (p k n : Nat) (s : State) : State := modPdie p (pcnt k n) s
/-- LNK_CNT_k of an L-die raised. -/
def cntLdie (l k n : Nat) (s : State) : State := modLdie l (fun x => { x with cnt := cntAdd k n x.cnt }) s
/-- An S-die counter raised: STR_CNT_n at n, STR_CNT_SEQ_n at 100 + n. -/
def cntSdie (i k n : Nat) (s : State) : State := modSdie i (fun x => { x with cnt := cntAdd k n x.cnt }) s
/-- A partition counter raised. -/
def cntPart (p k n : Nat) (s : State) : State := modPart p (fun x => { x with cnt := cntAdd k n x.cnt }) s
/-- A warden fault counter raised. -/
def cntWdn (k n : Nat) (s : State) : State := { s with flt := { s.flt with cnt := cntAdd k n s.flt.cnt } }

/-! ### Free values -/

/-- A free value: nothing constrains it (log 3). The second part is the state with the count of free values advanced. -/
def takeFree (s : State) : DWord × State := (Config.freeWord s.freeIx, { s with freeIx := s.freeIx + 1 })

/-! ### The structure in force (R19, R385, R423) -/

/-- The contents of a structure epoch; what is no longer held reads as the running contents. -/
def secsOf (s : State) (e : Word) : StructSections := mapGet s.st.running s.st.contents e.toNat

/-- The entry of a partition in a PARTITIONS section. -/
def partCfg (x : StructSections) (p : Nat) : Option PartCfg := x.parts.parts.find? (fun c => c.part.val == p)

/-- Whether the function of a partition exists (R423): the PF's always, a VF's while NumVFs covers it (0 while VF Enable is 0). -/
def fnExists (s : State) (p : Nat) : Bool := decide (p ≤ s.dev.numVfs)

/-- Whether a partition is defined by a section and its function exists (R423). -/
def enabledIn (s : State) (x : StructSections) (p : Nat) : Bool := (partCfg x p).isSome && fnExists s p

/-- Whether a partition is enabled under the running image (R423). -/
def partEnabled (s : State) (p : Nat) : Bool := enabledIn s s.st.running p

/-- Whether a partition is fenced by a reset (R36, R439). -/
def fenced (s : State) (p : Nat) : Bool := (partAt s p).resetStep != 0

/-- The action of a source-5 or source-7 verdict under a structure epoch (R16, R33): the partition's default action, or the
unassigned-partition action. The register holds the current epoch's value (R37, log 20). -/
def defaultAction (s : State) (e : Word) (p : Nat) : BitVec 4 :=
  let x := secsOf s e
  if enabledIn s x p then
    let reg := if e = s.st.epoch then (partAt s p).cascade else ((partCfg x p).map (fun (c : PartCfg) => c.cascade)).getD 0
    BitVec.ofNat 4 (bits 19 16 reg.toNat)
  else x.parts.unassigned

/-- provisional_en of a partition under a structure epoch (R29, R37). -/
def provisionalEn (s : State) (e : Word) (p : Nat) : Bool :=
  if e = s.st.epoch then bit 8 (partAt s p).cascade.toNat
  else bit 8 (((partCfg (secsOf s e) p).map (fun (c : PartCfg) => c.cascade)).getD 0).toNat

/-! ### INT_N and interrupts (R542, R434, R435) -/

/-- A DEV_INT_STATUS bit set. -/
def raiseInt (i : Nat) (s : State) : State :=
  { s with dev := { s.dev with intStatus := s.dev.intStatus ||| (1#6 <<< i) } }

/-- The enables of DEV_INT_STATUS: bits 1 and 0 are fixed at 1. -/
def intEnable (s : State) : BitVec 6 := (s.dev.intEn.setWidth 6 <<< 2) ||| 3#6

/-- Whether INT_N is asserted (R542). -/
def intN (s : State) : Bool := (s.dev.intStatus &&& intEnable s) != 0 || s.dev.mgmtInt

/-- Whether a function may issue requests (R426). -/
def fnActive (x : PartSt) : Bool := !x.d3hot && x.busMaster

/-- A vector of a partition. -/
def vecAt (x : PartSt) (v : Nat) : VecSt := mapGet {} x.vecs v
/-- A vector changed. -/
def modVec (v : Nat) (f : VecSt → VecSt) (x : PartSt) : PartSt := { x with vecs := mapMod {} v f x.vecs }

/-- A ring of a partition; ring 5's moderation count resets to 1 (Table 11 of the partition chapter). -/
def ringAt (x : PartSt) (r : Nat) : RingSt := mapGet { count := if r = 5 then 1 else 64 } x.rings r
/-- A ring put back. -/
def putRing (r : Nat) (y : RingSt) (x : PartSt) : PartSt := { x with rings := mapSet r y x.rings }
/-- A ring changed. -/
def modRing (r : Nat) (f : RingSt → RingSt) (x : PartSt) : PartSt := putRing r (f (ringAt x r)) x

/-- The vector that signals a ring (Table 5 of the partition chapter). -/
def ringVec (r : Nat) : Nat := if r = 5 then 0 else r + 1

/-- The ring that a vector signals, if one. -/
def vecRing (v : Nat) : Option Nat := if v = 0 then some 5 else if v ≤ 5 then some (v - 1) else none

/-- Send a vector's message: it covers every entry written so far (R435). -/
def sendVec (p v : Nat) (s : State) : State :=
  let x := modVec v (fun y => { y with pend := false, held := false, lastNs := some (nowNs s) }) (partAt s p)
  let x := match vecRing v with
    | some r => modRing r (fun y => { y with since := 0 }) x
    | none => x
  { putPart p x s with out := { s.out with messages := s.out.messages ++ [(p, v)] } }

/-- Whether a vector's gap has run out (R435). -/
def gapOver (s : State) (x : PartSt) (v : Nat) : Bool :=
  match (vecAt x v).lastNs with
  | some t => decide (t + x.minGapNs ≤ nowNs s)
  | none => true

/-- A vector asks (R435): masked, it becomes pending; within its gap or while the function may not send, it is held; else it sends. -/
def askVec (p v : Nat) (s : State) : State :=
  let x := partAt s p
  if x.resetStep != 0 then s
  else if (vecAt x v).mask then putPart p (modVec v (fun y => { y with pend := true }) x) s
  else if !fnActive x || !gapOver s x v then putPart p (modVec v (fun y => { y with held := true }) x) s
  else sendVec p v s

/-! ### Rings (R429 to R431) -/

/-- Bytes of an entry of a ring. -/
def entryBytes (r : Nat) : Nat := if r = 4 then 32 else 16

/-- Whether a ring is full. -/
def ringFull (y : RingSt) : Bool := decide (2 ^ y.size ≤ (y.prod - y.cons).toNat)

/-- Write one record to a ring that has room: the record, then prod, then moderation (R430, R435). -/
def ringPut (p r : Nat) (rec : List Byte) (s : State) : State :=
  let x := partAt s p
  let y := ringAt x r
  let at_ := y.base.toNat + (y.prod.toNat % 2 ^ y.size) * entryBytes r
  let prod := y.prod + 1
  let y := { y with prod := prod, since := y.since + 1, oldestNs := if y.since = 0 then nowNs s else y.oldestNs }
  let x := putRing r y { x with ringNew := x.ringNew ||| (1#8 <<< r) }
  let s := { putPart p x s with
    out := { s.out with writes := s.out.writes ++ [(at_, rec), (y.wb.toNat, leBytes 8 prod.toNat)] } }
  if y.count ≤ y.since then askVec p (ringVec r) s else s

/-- event_lost set with its count and vector 6 (R431, R434). -/
def loseEvent (p : Nat) (s : State) : State :=
  let was := (partAt s p).eventLost
  let s := cntPart p 10 1 (modPart p (fun x => { x with eventLost := true }) s)
  if was then s else askVec p 6 s

/-- A record bound for a ring (R431). -/
def ringRecord (p r : Nat) (rec : List Byte) (s : State) : State :=
  let x := partAt s p
  let y := ringAt x r
  if r = 5 then
    if !fnActive x then cntPart p 9 1 s
    else if !y.enable || ringFull y || x.resetStep != 0 then loseEvent p s
    else ringPut p r rec s
  else if !y.enable || !fnActive x then cntPart p 9 1 s
  else if y.spilling && ringFull y then cntPart p 8 1 s
  else if x.resetStep != 0 || ringFull y || !y.waiting.isEmpty then
    putPart p (putRing r { y with waiting := y.waiting ++ [(rec, nowNs s)] } x) s
  else ringPut p r rec (putPart p (putRing r { y with spilling := false } x) s)

/-- The records waiting for a ring written in arrival order while it has room; `fuel` is how many. -/
def ringDrain (p r : Nat) : Nat → State → State
  | 0, s => s
  | n + 1, s =>
    let y := ringAt (partAt s p) r
    if (partAt s p).resetStep != 0 || ringFull y then s
    else match y.waiting with
      | [] => s
      | w :: rest => ringDrain p r n (ringPut p r w.1 (modPart p (modRing r (fun z => { z with waiting := rest })) s))

/-! ### Events (R433) -/

/-- The bytes of an event record. -/
def eventBytes (wall : DWord) (code : Nat) (p : Nat) (detail : Nat) : List Byte :=
  leBytes 8 wall.toNat ++ [BitVec.ofNat 8 code, 0] ++ leBytes 2 p ++ leBytes 4 detail

/-- An event of a partition, to its own ring 5; one of the device, to partition 0's. -/
def event (p code detail : Nat) (s : State) : State := ringRecord p 5 (eventBytes s.time.wall code p detail) s

/-! ### The fault record (R478) -/

/-- A fault record appended to the ring of 1,024. -/
def faultRecord (kind cls det action : Nat) (unit : Word) (part halt : Nat) (detail : Word) (s : State) : State :=
  let f := s.flt
  let rec_ := leBytes 8 s.time.wall.toNat ++ [BitVec.ofNat 8 kind, BitVec.ofNat 8 cls, BitVec.ofNat 8 det, BitVec.ofNat 8 action]
    ++ leBytes 4 unit.toNat ++ leBytes 2 part ++ [BitVec.ofNat 8 halt, 0] ++ leBytes 4 detail.toNat
    ++ leBytes 4 f.repairGen.toNat ++ leBytes 4 f.head.toNat
  { s with flt := { f with records := mapSet (f.head.toNat % 1024) rec_ f.records, head := f.head + 1 } }

/-- The key of a unit: kind times 2 to the 32 plus the unit field (R478). -/
def unitKey (kind : Nat) (unit : Word) : Nat := kind * 2 ^ 32 + unit.toNat

/-- A unit's pointing state. -/
def unitAt (s : State) (k : Nat) : UnitSt := mapGet {} s.flt.units k

/-- A unit's pointing state changed. -/
def modUnit (k : Nat) (f : UnitSt → UnitSt) (s : State) : State :=
  { s with flt := { s.flt with units := mapMod {} k f s.flt.units } }

/-- The unit field of a physical brick (R478). -/
def brickUnit (b : Nat) : Word := BitVec.ofNat 32 (b / 16 * 2 ^ 16 + b % 16 * 2 ^ 8)

/-! ### The audit record (R511, R512) -/

/-- The number of a path in an audit record. -/
def pathNum : Path → Nat
  | .pf => 0
  | .mctp => 1
  | .vf _ => 0

/-- The session open on a path. -/
def sessionOf (s : State) (p : Path) : Option Session :=
  match p with
  | .vf _ => none
  | p => mapFind (pathNum p) s.auth.sessions

/-- The role of a path's session: 0 where none is open. -/
def roleOf (s : State) (p : Path) : Nat := ((sessionOf s p).map (·.role)).getD 0

/-- An audit record appended to the tail with its chain value (R511 to R513); with the tail full it waits for space. -/
def auditRaw (role path action : Nat) (keyId : DWord) (target : Nat) (result : Nat) (detail : List Byte) (s : State) : State :=
  let a := s.auth
  if 256 ≤ a.tail.length then
    { s with auth := { a with waiting := a.waiting ++ [{ role, path, action, keyId, target, result, detail }] } }
  else
  let body := leBytes 8 s.time.wall.toNat ++ leBytes 4 a.head.toNat ++ [BitVec.ofNat 8 role, BitVec.ofNat 8 path]
    ++ leBytes 2 action ++ leBytes 8 keyId.toNat ++ leBytes 4 target ++ [BitVec.ofNat 8 result, 0, 0, 0]
    ++ (detail ++ List.replicate 16 0).take 16
  let link := (sha384 (beBytes 16 a.chain.toNat ++ body)).take 16
  { s with auth := { a with tail := a.tail ++ [body ++ link], head := a.head + 1, chain := BitVec.ofNat 128 (beNat link) } }

/-- The audit record of a command on a path (R511). -/
def audit (p : Path) (action target result : Nat) (detail : List Byte) (s : State) : State :=
  match sessionOf s p with
  | some x => auditRaw x.role (pathNum p) action x.keyId target result detail s
  | none => auditRaw 4 (pathNum p) action 0 target result detail s

/-- The audit record of an event of the device (Table 5 of the role chapter). -/
def auditDevice (action target result : Nat) (detail : List Byte) (s : State) : State :=
  auditRaw 0 3 action 0 target result detail s

/-- The record of a command refused for its role: at most one in a millisecond on a path, the rest counted (R511). -/
def auditRefused (p : Path) (action target : Nat) (s : State) : State :=
  match mapFind (pathNum p) s.auth.lastRefused with
  | some t =>
    if nowNs s < t + 1000000 then
      { s with auth := { s.auth with suppressed := if s.auth.suppressed = 255 then 255 else s.auth.suppressed + 1 } }
    else rec_ s
  | none => rec_ s
where
  /-- The record itself. -/
  rec_ (s : State) : State :=
    let s := audit p action target 2 [] s
    { s with auth := { s.auth with lastRefused := mapSet (pathNum p) (nowNs s) s.auth.lastRefused } }

/-- Whether the audit tail is full: a command that finds it so is not carried out (R513). -/
def auditFull (s : State) : Bool := decide (256 ≤ s.auth.tail.length)

/-- The roles that Table 2 of the role chapter marks: bit 1 operator, bit 2 installer, bit 3 maker. -/
def operatorRights : Nat := 6
def installerRights : Nat := 4

/-- Whether a path's session has one of the marked roles (R507). -/
def allowed (s : State) (p : Path) (rights : Nat) : Bool := bit (roleOf s p) rights && roleOf s p != 0

/-- The time of a session's last command renewed (R505). -/
def touchSession (p : Path) (s : State) : State :=
  match sessionOf s p with
  | some x => { s with auth := { s.auth with sessions := mapSet (pathNum p) { x with lastNs := nowNs s } s.auth.sessions } }
  | none => s

/-- A privileged command with what its record says (R507, R511, R513): from a VF it is ignored; with the tail full it is answered busy and not
carried out, and its record waits; outside its role it has the refusal's effect and a refusal record; else its effect and its record, with result 0, or 3 where `ok`
says that the unit refuses it for another reason. -/
def commandWith (p : Path) (rights action target : Nat) (ok : State → Bool) (detail : List Byte) (refused : State → State)
    (effect : State → State) (s : State) : State :=
  match p with
  | .vf _ => s
  | p =>
    if auditFull s then audit p action target 3 detail s
    else if allowed s p rights then
      let s := touchSession p s
      effect (audit p action target (if ok s then 0 else 3) detail s)
    else refused (auditRefused p action target s)

/-- A privileged command that its unit never refuses, with an empty detail. -/
def command (p : Path) (rights action target : Nat) (refused : State → State) (effect : State → State) (s : State) : State :=
  commandWith p rights action target (fun _ => true) [] refused effect s

/-! ### EPO registers and scheduled instants (R543) -/

/-- A T_c broadcast. -/
def scheduleTc (t : DWord) (kind : Fin 3) (p : Part) (s : State) : State :=
  { s with dev := { s.dev with sched := s.dev.sched ++ [(t, kind, p)] } }

/-- A T_c passes. -/
def passTc (t : DWord) (kind : Fin 3) (p : Part) (s : State) : State :=
  { s with dev := { s.dev with lastTc := t, lastKind := kind, lastPart := p,
                               sched := s.dev.sched.filter (fun x => !(x.2.1 == kind && x.2.2 == p)) } }

/-- The next instant that may be a T_c (R364, R382, R388, log 37): 5 us from now, and 10 us after every T_c scheduled or passed. -/
def nextInstant (s : State) : DWord :=
  let last := s.dev.sched.foldl (fun m x => max m (x.1.toNat + 10000)) (if s.dev.lastTc = 0 then 0 else s.dev.lastTc.toNat + 10000)
  BitVec.ofNat 64 (max (s.time.wall.toNat + 5000) last)

/-- The earliest T_c scheduled, 0 where none is. -/
def nextTc (s : State) : DWord :=
  s.dev.sched.foldl (fun m x => if m = 0 ∨ x.1.toNat < m.toNat then x.1 else m) 0

/-! ### Epochs in flight (R20, R366, R384) -/

/-- One model epoch of a partition changed. -/
def modEpoch (p : Nat) (e : BitVec 16) (f : ModelEpoch → ModelEpoch) (s : State) : State :=
  modModel p (fun m => { m with epochs := m.epochs.map (fun x => if x.num = e then f x else x) }) s

/-- A resident model epoch by number. -/
def epochAt (s : State) (p : Nat) (e : BitVec 16) : Option ModelEpoch := (modelAt s p).epochs.find? (fun x => x.num == e)

/-- The active epoch of a partition. -/
def activeEpoch (s : State) (p : Nat) : Option ModelEpoch := (modelAt s p).epochs.find? (fun x => x.st == .active)

/-- The active epoch's number, 0 where none is active. -/
def activeNum (s : State) (p : Nat) : BitVec 16 := ((activeEpoch s p).map (·.num)).getD 0

/-- The draining epoch of a partition. -/
def drainingEpoch (s : State) (p : Nat) : Option ModelEpoch := (modelAt s p).epochs.find? (fun x => x.st == .draining)

/-- A draining epoch whose count has reached zero is retired (R365, R366). -/
def retireIfDone (x : ModelEpoch) : ModelEpoch := if x.st == .draining && x.inflight == 0 then { x with st := .retired } else x

/-- The in-flight counts raised for a stamped slice (R20). -/
def raiseInflight (p : Nat) (e : BitVec 16) (se : Word) (s : State) : State :=
  let s := modEpoch p e (fun x => { x with inflight := x.inflight + 1 }) s
  { s with st := { s.st with inflight := mapMod 0 se.toNat (· + 1) s.st.inflight } }

/-- A draining structure epoch whose count has reached zero is retired, and its sections are freed (R384). -/
def retireStruct (s : State) : State :=
  match s.st.draining with
  | some e => if mapGet 0 s.st.inflight e.toNat = 0 then
      { s with st := { s.st with draining := none, contents := mapDel e.toNat s.st.contents, inflight := mapDel e.toNat s.st.inflight } }
    else s
  | none => s

/-- The brick identifiers on which a partition is placed. -/
def placedOn (b : PartBond) : List Nat := (b.pallet.flatten ++ b.seqGroups).flatMap (fun (g : Group) => g.bricks)

/-- Whether a brick in the quartered layout that carries a partition also carries another whose old epoch drains: the brick holds at most the old
and the new merged schedule (R283). -/
def scheduleHeld (s : State) (p : Nat) : Bool :=
  let bond := s.st.running.bond.parts
  let mine := (bond.filter (fun b => b.part.val == p)).flatMap placedOn
  bond.any (fun b => b.part.val != p && (modelAt s b.part.val).epochs.any (fun e => e.st == .draining)
    && (placedOn b).any (fun k => mine.contains k && s.st.running.layout.getD k 0 == 1))

/-- The T_c of the first waiting commit of a partition broadcast, once no epoch of it drains (R364) nor one of a partition that shares its merged
schedule (R283); log 37: the next instant that may be one. -/
def broadcastTc (p : Nat) (s : State) : State :=
  let m := modelAt s p
  if m.epochs.any (fun e => e.st == .draining) || scheduleHeld s p then s
  else match m.load.commits with
    | c :: rest =>
      if c.tc.isSome then s
      else
        let t := nextInstant s
        scheduleTc t 0 (Fin.ofNat 1024 p) (putModel p { m with load := { m.load with commits := { c with tc := some t } :: rest } } s)
    | [] => s

/-- The in-flight counts lowered (R20), and epochs retired whose count reaches zero. -/
def lowerInflight (p : Nat) (e : BitVec 16) (se : Word) (s : State) : State :=
  let s := broadcastTc p (modEpoch p e (fun x => retireIfDone { x with inflight := x.inflight - 1 }) s)
  retireStruct { s with st := { s.st with inflight := mapMod 0 se.toNat (· - 1) s.st.inflight } }

/-! ### Ports and feeds (R397, R398) -/

/-- A port. -/
def portAt (s : State) (p : Nat) : PortSt := mapGet {} s.link.ports p
/-- A port put back. -/
def putPort (p : Nat) (x : PortSt) (s : State) : State := { s with link := { s.link with ports := mapSet p x s.link.ports } }
/-- A port changed. -/
def modPort (p : Nat) (f : PortSt → PortSt) (s : State) : State := putPort p (f (portAt s p)) s

/-- Whether a port is UP or DEGRADED (R399). -/
def portUp (x : PortSt) : Bool := x.st.val == 2 || x.st.val == 3

/-- The FEEDS entry of a port's local feed. -/
def feedOf (s : State) (port loc : Nat) : Option FeedCfg :=
  s.st.running.feeds.feeds.find? (fun f => f.port.val == port && f.loc == loc)

/-- The FEEDS entry of a device feed. -/
def feedCfg (s : State) (f : Nat) : Option FeedCfg := s.st.running.feeds.feeds.find? (fun c => c.feed.val == f)

/-- Whether a device feed is up: its port is (R399). -/
def feedUp (s : State) (f : Nat) : Bool :=
  match feedCfg s f with
  | some c => portUp (portAt s c.port.val)
  | none => false

/-! ### Deadlines and verdicts (R31 to R35) -/

/-- The age of a slice and whether it is counted as skewed (R31). -/
def sliceAge (s : State) (d : BitVec 128) : Nat × Bool :=
  let a := (s.time.wall.setWidth 32 - dArrival d).toNat
  if 2 ^ 31 ≤ a then (0, true) else (a, false)

/-- Whether a slice has expired (R31). -/
def expired (s : State) (d : BitVec 128) : Bool := dDeadline d != 0 && decide (dDeadline d * 64 ≤ (sliceAge s d).1)

/-- What a unit gives for a slice: source, action, class, score, and what a late verdict would carry (R33). -/
structure Answer where
  source : Nat
  action : BitVec 4
  cls : BitVec 8 := 0
  score : BitVec 16 := 0
  absent : Bool := false
  lateAction : BitVec 4 := 0
  lateCls : BitVec 8 := 0
  lateScore : BitVec 16 := 0
  deriving DecidableEq, Repr

/-- The verdict that a primary or final answer becomes under the order of R34: 7 for a slice that a reset fences or aborts, 5, 6 for an
expired slice (7 while its partition is being reset), then the answer's own source. A slice that finishes while its partition drains
keeps its own source (R439). -/
def settle (s : State) (st : Stamped) (a : Answer) : Answer :=
  let p := (dPart st.s.desc).val
  let reset : Answer := { source := 7, action := defaultAction s st.structEpoch p }
  if a.source = 7 || st.s.fenced then reset
  else if a.source = 5 then { source := 5, action := a.action }
  else if expired s st.s.desc || a.source = 6 then
    (if fenced s p then reset else { source := 6, action := a.lateAction, cls := a.lateCls, score := a.lateScore })
  else { a with absent := a.absent && (a.source == 1 || a.source == 2) }

/-- The epoch field of a verdict: 0 for the unassigned-partition action (R16, R410). -/
def epochField (s : State) (st : Stamped) (a : Answer) : BitVec 16 :=
  if a.source = 5 ∧ !enabledIn s (secsOf s st.structEpoch) (dPart st.s.desc).val then 0 else st.modelEpoch

/-- A verdict handed to mortar for its L-die. -/
def emit (s : State) (st : Stamped) (a : Answer) (final prov : Bool) : State :=
  let v : Verdict :=
    { tag := dTag st.s.desc, feed := st.s.feed, source := BitVec.ofNat 4 a.source, action := a.action, cls := a.cls, final, prov,
      skew := st.skew, absent := a.absent, score := a.score, epoch := epochField s st a, tIn := st.s.tIn,
      part := dPart st.s.desc, lid := st.lid,
      orphan := !feedUp s st.s.feed.val }
  modLdie st.ldie.val (fun l => { l with egress := l.egress ++ [v] }) s

/-- The primary or final verdict of a slice (R20, R34, R444): produced once, counted for its partition, the in-flight counts
lowered. -/
def finalVerdict (st : Stamped) (a : Answer) (s : State) : State :=
  let a := settle s st a
  let p := (dPart st.s.desc).val
  let s := emit s st a true false
  let s := cntPart p a.source 1 s
  let s := if a.source = 7 then modPart p (fun x => { x with resetAnswered := x.resetAnswered + 1 }) s else s
  lowerInflight p st.modelEpoch st.structEpoch s

/-- The provisional verdict of a slice (R29): source 0 with the tier-1 result; the ledger notes it. -/
def provisionalVerdict (st : Stamped) (a : Answer) (s : State) : State := emit s st { a with source := 0, absent := false } false true

/-- The source-5 answer of a slice (R33). -/
def defaultAnswer (s : State) (st : Stamped) : Answer :=
  { source := 5, action := defaultAction s st.structEpoch (dPart st.s.desc).val }

/-! ### Loops' bounds (R390 to R392) -/

/-- The device range of a loop (Table 8 of the structure chapter), the grade's envelope for the power cap. -/
def loopRange (s : State) (i : Nat) : Nat × Nat :=
  match i with
  | 0 => (500, 1000)
  | 1 => (0, 60)
  | 2 => (500, 1000)
  | 3 => (100, match s.dev.grade.val with
      | 0 => 600
      | 1 => 400
      | _ => 260)
  | 4 => (100, 10000)
  | 5 => (250, 63750)
  | 6 => (1, 255)
  | 7 => (0, 1)
  | 8 => (1, 86400)
  | 9 => (512, 65536)
  | 10 => (10, 10000)
  | 11 => (1, 256)
  | 12 => (2, 16)
  | 13 => (1, 16)
  | 14 => (1, 8)
  | 15 => (100, 10000)
  | 16 => (0, 20)
  | _ => (0, 0)

/-- The device-default installer bounds (Tables 6 and 8). -/
def loopDefault (s : State) (i : Nat) : Nat × Nat :=
  match i with
  | 0 => (700, 1000)
  | 1 => (10, 40)
  | 2 => (700, 1000)
  | 4 => (250, 1000)
  | 5 => (1000, 4000)
  | 6 => (1, 64)
  | 16 => (0, 15)
  | i => loopRange s i

/-- Whether a loop is one per partition (Table 8). -/
def perPartition (i : Nat) : Bool := i == 4 || i == 5 || (decide (7 ≤ i) && decide (i ≤ 15))

/-- The installer's bound of a loop (R390). -/
def installerBound (s : State) (i p : Nat) : Nat × Nat :=
  match s.st.running.bounds.find? (fun b => b.index == i && (!perPartition i || b.part == p)) with
  | some b => (b.lo, b.hi)
  | none => loopDefault s i

/-- The key of a loop: index and, where it is one per partition, the partition. -/
def loopKey (i p : Nat) : Nat := if perPartition i then i * 1024 + p else i * 1024

/-- The operator's default of a re-tempering bound (Table 6 of the quantiser chapter); lo = hi. -/
def retemperDefault (i : Nat) : Nat :=
  match i with
  | 7 => 0
  | 8 => 600
  | 9 => 4096
  | 10 => 200
  | 11 => 64
  | 12 => 6
  | 13 => 8
  | 14 => 4
  | _ => 2000

/-- The operator's bound of a loop: as stored, else the installer's, or for re-tempering its default within the installer's. -/
def operatorBound (s : State) (i p : Nat) : Nat × Nat :=
  match mapFind (loopKey i p) s.loops.opBounds with
  | some b => b
  | none =>
    let (lo, hi) := installerBound s i p
    if 7 ≤ i ∧ i ≤ 15 then let v := clampNat lo hi (retemperDefault i); (v, v) else (lo, hi)

/-- The effective bounds of a loop (R391). -/
def effectiveBound (s : State) (i p : Nat) : Nat × Nat :=
  let x := installerBound s i p
  let o := operatorBound s i p
  (max x.1 o.1, min x.2 o.2)

/-- Whether a loop's instance is clamped now, noted for the pinned test (R392): since when it has been clamped, or free. -/
def noteClamp (k : Nat) (clamped : Bool) (s : State) : State :=
  let l := s.loops
  if clamped then
    { s with loops := { l with freeSince := mapDel k l.freeSince,
                               clampSince := if (mapFind k l.clampSince).isSome then l.clampSince else mapSet k (nowNs s) l.clampSince } }
  else
    { s with loops := { l with clampSince := mapDel k l.clampSince,
                               freeSince := if (mapFind k l.freeSince).isSome then l.freeSince else mapSet k (nowNs s) l.freeSince } }

/-- A loop's output: its wish clamped (R392). -/
def loopOutput (i p wish : Nat) (s : State) : State :=
  let b := effectiveBound s i p
  let s := { s with loops := { s.loops with wish := mapSet (loopKey i p) wish s.loops.wish } }
  noteClamp (loopKey i p) (decide (clampNat b.1 b.2 wish ≠ wish)) s

end Sys2Proof.Machine
end

