-- ==== Sys2Proof/Machine/BrickDev.lean ====
section
/-!
DEFINITION. Bricks inside the device: courses and freezes, the issue of the bundles that the queue presents, halts, streams, the
course ring, and the results that land (chapters 7 to 9).
-/

namespace Sys2Proof.Machine

open Sys2Proof

/-! ### Courses, freezes and halts (R221, R222, R242, R245) -/

/-- The bricks of a physical C-die. -/
def courseBricks (c : Nat) : List Nat := (List.range 16).map (fun k => c * 16 + k)

/-- The logical course that a physical C-die carries: the maps of re-homing first, else its own number (R8). -/
def physCdie (s : State) (course : Nat) : Option Nat :=
  match mapFind course s.flt.courses with
  | some (some j) => some j.val
  | some none => none
  | none => some course

/-- The physical brick of a brick identifier (R8), or of the standby brick that stands in its place (R460). -/
def physBrick (s : State) (id : Nat) : Option Nat :=
  let k := mapGet id s.flt.subst id
  (physCdie s (k / 16)).map (fun j => j * 16 + k % 16)

/-- Whether the grade carries the buttress (R3). -/
def hasButtress (s : State) : Bool := s.dev.grade != 2
/-- Whether the grade carries the context streamer (R3). -/
def hasStreamer (s : State) : Bool := s.dev.grade != 2

/-- Freeze one brick of a course: it keeps the state it was frozen from (R221). -/
def freezeBrick (b : BrickSt) : BrickSt :=
  if b.c.lockstep && clocked b then
    { b with c := { b.c with phase := .frozen, frozenFrom := b.c.phase },
             perf := { b.perf with frozenCycles := 0, traces := b.perf.traces ++ [(6, 0xFFFF, leBytes 8 b.r.cycle)] } }
  else b

/-- Freeze the lock-step bricks of a course. -/
def freezeCourse (c : Nat) (s : State) : State := (courseBricks c).foldl (fun s b => modBrick b freezeBrick s) s

/-- Whether a frozen brick's own stall has cleared. -/
def stallOver (b : BrickSt) : Bool :=
  waitsOk b b.c.stallWaits && (!b.c.stallReplay || !(fullWins b).isEmpty) && !b.c.stallHandler

/-- Whether a brick holds its course frozen: a halted brick until it is fenced, or one whose stall has not cleared (R242). -/
def holdsCourse (b : BrickSt) : Bool :=
  b.c.lockstep && (b.c.phase == .halted || (b.c.phase == .frozen && !stallOver b))

/-- End the freeze of one brick. -/
def thawBrick (b : BrickSt) : BrickSt :=
  if b.c.lockstep && b.c.phase == .frozen then
    { b with c := { b.c with phase := b.c.frozenFrom, stallWaits := [], stallReplay := false, stallSlots := [], stallReason := 0 },
             perf := { b.perf with traces := b.perf.traces ++ [(7, 0xFFFF, leBytes 8 b.perf.frozenCycles)] } }
  else b

/-- End a course freeze once the stall of every stalling brick has cleared: all resume in the same cycle (R221). -/
def thawCourse (c : Nat) (s : State) : State :=
  if (courseBricks c).any (fun b => holdsCourse (brickAt s b)) then s
  else (courseBricks c).foldl (fun s b => modBrick b thawBrick s) s

/-- The pallets that run on a brick are reported failed over VC2 (R242, R454). -/
def failPalletsOn (b : Nat) (s : State) : State :=
  let mark := fun (p : Pallet) => if p.bricks.contains b then { p with failed := true } else p
  { s with pdies := s.pdies.map (fun x => (x.1, { x.2 with inflight := mapAll mark x.2.inflight })),
           sdies := s.sdies.map (fun x => (x.1, { x.2 with seqPallets := x.2.seqPallets.map (fun p =>
             if p.bricks.contains b then { p with failed := true } else p) })) }

/-- A brick that has halted: its pallets fail, and in lock-step mode the rest of its course freezes (R242). -/
def afterHalt (b : Nat) (x : BrickSt) (s : State) : State :=
  let s := failPalletsOn b (putBrick b x s)
  if x.c.lockstep then freezeCourse (b / 16) s else s

/-- Whether a brick may be halted (R245). -/
def haltable (b : BrickSt) : Bool := clocked b || b.c.phase == .frozen

/-- A brick halted by the device (R240). -/
def haltDev (b : Nat) (reason : Byte) (slot : Fin 8) (pc : BitVec 13) (info : Word) (s : State) : State :=
  afterHalt b (haltBrick reason slot pc info 0 (brickAt s b)) s

/-- A brick halted by one of its streams, whose descriptor names the window (R451); `poison` says that a poisoned line did it (R450). -/
def haltStream (b : Nat) (reason : Byte) (slot : Fin 8) (st : Stream) (info : Word) (poison : Bool) (s : State) : State :=
  modBrick b (fun x => { x with c := { x.c with haltWin := some (dWin st.desc), haltPoison := poison } }) (haltDev b reason slot st.pc info s)

/-- The window that an operation names, if it names one (R451). -/
def namedWin (x : BrickSt) : SlotOp → Option (Fin 4)
  | .ld _ _ _ w _ => some w
  | .st _ _ _ w _ => some w
  | .prd _ w _ _ => some w
  | .vlut _ _ _ w => some w
  | .vld _ w _ => some w
  | .qnt _ _ _ _ _ w => some w
  | .qscan _ _ _ _ _ w => some w
  | .matmul m => some (dWin (x.descs.get m.da))
  | .matmulQ m => some m.quadrant
  | .wfill dw _ _ _ _ => some (dWin (x.descs.get dw))
  | .start _ d _ _ => some (dWin (x.descs.get d))
  | _ => none

/-- A brick halted by a slot of its bundle: the window that the slot names. -/
def haltedBy (bundle : List Slot) (x : BrickSt) : BrickSt :=
  { x with c := { x.c with haltWin := (bundle.find? (fun t => slotNum t.pos == x.c.haltSlot)).bind (fun t => namedWin x t.op) } }

/-! ### Engine counters (R519, R520) -/

/-- Whether a slot holds something other than NOP. -/
def slotBusy (x : Slot) : Bool := x.op != .nop

/-- The number of a slot's engine: 0 sync, 1 scalar, 2 vector, 3 matrix, 4 load, 5 store. -/
def engineOf (p : SlotPos) : Nat := (slotNum p).val

/-- Whether an engine has an operation in progress. -/
def enginePending (b : BrickSt) (e : Nat) : Bool :=
  match e with
  | 1 => !b.fl.loads.isEmpty
  | 2 => !b.fl.vecs.isEmpty || !b.fl.quants.isEmpty
  | 3 => !b.fl.passes.isEmpty || !b.fl.fills.isEmpty
  | 4 => b.fl.streams.any (fun x => !x.2.inStoreSlot)
  | 5 => b.fl.streams.any (fun x => x.2.inStoreSlot)
  | _ => false

/-- n cycles counted for every engine: busy where it issues or has work in progress, stalled where the stalled bundle holds a non-NOP in
its slot, idle else (R519). -/
def countEngines (n : Nat) (issuing stalled : List Nat) (b : BrickSt) : BrickSt :=
  { b with perf := { b.perf with engines := (List.range 6).foldl (fun m e =>
      let c := if issuing.contains e || enginePending b e then 0 else if stalled.contains e then 1 else 2
      mapMod 0 (3 * e + c) (fun v => (v + n) % 2 ^ 48) m) b.perf.engines } }

/-- n cycles in which the brick issued nothing, under a stall reason (R520). -/
def countStall (n reason : Nat) (b : BrickSt) : BrickSt :=
  { b with perf := { b.perf with stalls := mapMod 0 reason (fun v => (v + n) % 2 ^ 48) b.perf.stalls } }

/-! ### Ring sends (R287, R288) -/

/-- The 64-byte chunks of a byte string; `n` is how many. -/
def chunks64 : Nat → List Byte → List (List Byte)
  | 0, _ => []
  | n + 1, bs => bs.take 64 :: chunks64 n (bs.drop 64)

/-- The chunks of a send put on their way to the destination brick of the same course. -/
def ringSend (b d : Nat) (s : State) : State :=
  match mapFind d (brickAt s b).fl.streams with
  | some st =>
    if dKind st.desc ≠ 8 then s
    else
      let bytes := (List.range (dTotal st.desc)).map (fun i => memByte (brickAt s b).m.staging (dAddr st.desc (dSrc st.desc) i))
      let dest := b / 16 * 16 + bits 8 5 (dDst st.desc)
      modBrick dest (fun x => { x with fl := { x.fl with ringIn := x.fl.ringIn ++ (chunks64 (bytes.length / 64) bytes).map (fun c => (b, c)) } }) s
  | none => s

/-! ### Waking and issue -/

/-- An IDLE brick whose pending sets pass the stamp check takes them and runs; a stamp that fails halts it (R230, R231, R245). -/
def wakeBrick (b : Nat) (s : State) : State :=
  let x := brickAt s b
  if x.c.phase == .idle && !(fullWins x).isEmpty then
    match replayStampFail x with
    | some st => afterHalt b (haltBrick 0x0D 0 x.r.pc st 0 x) s
    | none => putBrick b (replayTake { x with c := { x.c with phase := .running, lastIssueNs := nowNs s, replayBeats := x.c.replayBeats } }) s
  else s

/-- Whether a lock-step brick stands at its REPLAY with a pending set. -/
def atReplay (x : BrickSt) : Bool := (x.c.phase == .idle || x.c.stallReplay) && !(fullWins x).isEmpty

/-- The bricks of a dispatch group leave their REPLAY in the same cycle (R285): each takes its sets once all of them have one. -/
def wakeGroup (bs : List Nat) (s : State) : State :=
  if bs.all (fun b => atReplay (brickAt s b)) then
    let s := bs.foldl (fun s b => modBrick b (fun x =>
      if x.c.stallReplay then { x with c := { x.c with phase := .idle, stallReplay := false, stallSlots := [] } } else x) s) s
    bs.foldl (fun s b => wakeBrick b s) s
  else s

/-- The stall reason of a bundle (Table 1 of the observation chapter): a flag, a counter, or a hold. -/
def stallReasonOf (b : BrickSt) (waits : List (BitVec 6)) (replay : Bool) : Fin 8 :=
  if replay then 5
  else match waits.find? (fun w => !waitOk b w 1) with
    | some w => if w.toNat < 32 then 3 else 4
    | none => 2

/-- A bundle that stalls: in lock-step mode the course freezes, an independent brick at a REPLAY without a set goes IDLE, another
waits for the bundle to be presented again (R221, R230, R245). -/
def stallBrick (b : Nat) (x : BrickSt) (bundle : List Slot) (waits : List (BitVec 6)) (replay : Bool) (s : State) : State :=
  let x := countStall 1 (stallReasonOf x waits replay).val x
  let x := { x with c := { x.c with stallWaits := waits, stallReplay := replay, stallReason := stallReasonOf x waits replay,
                                    stallSlots := (bundle.filter slotBusy).map (·.pos) } }
  if x.c.lockstep then freezeCourse (b / 16) (putBrick b x s)
  else if replay then putBrick b { x with c := { x.c with phase := .idle, stallReplay := false } } s
  else putBrick b x s

/-- A bundle comes up for issue in a running brick. An asynchronous exception goes first: between bundles in independent mode, at the
REPLAY alone in lock-step mode, whose place the entry takes (R234, R239). -/
def presentBundle (b : Nat) (bundle : List Slot) (s : State) : State :=
  let x := brickAt s b
  if x.c.phase != .running then s
  else
    let y := if !x.c.lockstep || isReplay bundle then takeAsync x else x
    if y.c.phase == .halted then afterHalt b y s
    else if x.c.lockstep && y.r.excDepth != x.r.excDepth then
      freezeCourse (b / 16) (putBrick b { y with c := { y.c with stallHandler := true } } s)
    else
      match issueBundle (hasButtress s) y bundle with
      | .halted z => afterHalt b (haltedBy bundle z) s
      | .stalled z waits replay => stallBrick b z bundle waits replay s
      | .done z =>
        let n := z.r.cycle - y.r.cycle
        let z := countEngines n ((bundle.filter slotBusy).map (fun t => engineOf t.pos)) [] z
        let z := { z with c := { z.c with lastIssueNs := nowNs s, stallWaits := [], stallReplay := false, stallSlots := [],
                                          stallHandler := z.c.stallHandler && z.r.excDepth != 0 } }
        let s := putBrick b z s
        let s := bundle.foldl (fun s t => match t.op with
          | .start true d _ _ => ringSend b d.val s
          | _ => s) s
        if z.c.phase == .halted then afterHalt b (haltedBy bundle z) s else s

/-- One slot of a bundle: the slots are gathered until the one that ends the bundle, which then comes up for issue (R213, R250). -/
def issueSlot (c : BCtl) (pos : SlotPos) (op : SlotOp) (s : State) : State :=
  let b := c.brick.val
  let bundle := (brickAt s b).fl.bundle.filter (fun t => t.pos != pos) ++ [{ pos, wait := c.wait, sig := c.sig, rsv := c.rsv, op }]
  let clear := fun (l : List Slot) => modBrick b (fun x => { x with fl := { x.fl with bundle := l } }) s
  if c.more then clear bundle else presentBundle b bundle (clear [])

/-! ### Landing commands (R219) -/

/-- Let a clocked brick run on to a cycle, if one is given. -/
def runTo (b : Nat) (t : Option Nat) (s : State) : State :=
  let x := brickAt s b
  match t with
  | some t => if clocked x then putBrick b (advanceTo t x) s else s
  | none => s

/-! ### Streams (R219, R227, R287, R288, R299) -/

/-- The bytes of one chunk of a stream: its chunk field, or the whole stream. -/
def chunkBytes (d : Vector DWord 4) : Nat := if dChunk d = 0 then dTotal d else dChunk d * 256

/-- Raise a stream's signal now: at once in a frozen brick, else visible from the next cycle (R218, R222). -/
def streamSignal (id : BitVec 6) (b : BrickSt) : BrickSt := if clocked b then signalAt b.r.cycle id b else raiseSig id b

/-- A stream's progress by n bytes: the stream ends with its last byte, and the signal is raised where the progress ends a chunk. -/
def streamMoved (d n : Nat) (st : Stream) (b : BrickSt) : BrickSt :=
  let moved := st.moved + n
  let total := dTotal st.desc
  let ends := decide (total ≤ moved)
  let crossed := dChunk st.desc != 0 && decide (st.moved / chunkBytes st.desc < moved / chunkBytes st.desc)
  let b := { b with fl := { b.fl with streams := if ends then mapDel d b.fl.streams
                                                 else mapSet d { st with moved, buf := st.buf.drop n } b.fl.streams } }
  let b := if ends then streamTrace d { st with moved } b else b
  if ends || crossed then streamSignal st.sig b else b

/-- The slot number of a stream's START. -/
def streamSlot (st : Stream) : Fin 8 := if st.inStoreSlot then 5 else 4

/-- The bytes that a chunk reads and writes in BMEM lie in the window (R211), and those it reads in loaded pages (R210): the halt where
they do not. -/
def chunkHalt (b : BrickSt) (st : Stream) (lo n : Nat) : Option (Byte × Word) :=
  let w := dWin st.desc
  let k := dKind st.desc
  let srcB := (k == 1 && !fromDevice st.desc)
  let dstB := k == 1 || k == 6
  let outside := fun (base : Nat) => ((List.range n).map (fun i => dAddr st.desc base (lo + i))).find? (fun a => !bmemInside b w a 1)
  let dense := ((List.range n).map (fun i => dDst st.desc + lo + i)).find? (fun a => !bmemInside b w a 1)
  match (if srcB then outside (dSrc st.desc) else none), (if dstB then dense else none) with
  | some a, _ => some (0x06, BitVec.ofNat 32 a)
  | none, some a => some (0x06, BitVec.ofNat 32 a)
  | none, none =>
    if srcB then ((List.range n).map (fun i => dAddr st.desc (dSrc st.desc) (lo + i))).findSome? (fun a =>
      (unloadedIn b a 1).map (fun u => ((0x07 : Byte), BitVec.ofNat 32 u)))
    else none

/-- The source bytes of a chunk, turned where transpose is set (R310). -/
def chunkSource (b : BrickSt) (st : Stream) (lo n : Nat) : List Byte :=
  match dKind st.desc with
  | 1 =>
    if fromDevice st.desc then st.buf.take n
    else
      let all := streamForm st.desc ((List.range (dTotal st.desc)).map (fun i => memByte b.m.bmem (dAddr st.desc (dSrc st.desc) i)))
      (all.drop lo).take n
  | _ => (List.range n).map (fun i => memByte b.m.staging (dAddr st.desc (dSrc st.desc) (lo + i)))

/-- One chunk of a stream arrives at its destination (R219): kinds 1 and 6 write BMEM, consecutively from dst; for kind 7 the home S-die
has acknowledged the chunk. A chunk whose bytes have not arrived or been acknowledged yet, and a stream that only arms an operand, do
nothing. -/
def chunkDone (b d : Nat) (s : State) : State :=
  let x := brickAt s b
  match mapFind d x.fl.streams with
  | none => s
  | some st =>
    let k := dKind st.desc
    let n := min (chunkBytes st.desc) (dTotal st.desc - st.moved)
    if !(k == 1 || k == 6 || k == 7) then s
    else if (k == 7 || fromDevice st.desc) && st.arrived < st.moved + n then
      match st.bad with
      | some (_, r, info) => haltStream b r (streamSlot st) st info (r == 0x0C) s
      | none => s
    else
      match chunkHalt x st st.moved n with
      | some (r, info) => haltStream b r (streamSlot st) st info false s
      | none =>
        let y := if k == 7 then x else bmemWrite (dDst st.desc + st.moved) (chunkSource x st st.moved n) x
        thawCourse (b / 16) (putBrick b (streamMoved d n st y) s)

/-- A ring chunk arrives at a brick (R287, R288): a running receive from its source writes it to BMEM; without one it is discarded and
sets lost. The sender's stream counts it as written. -/
def ringArrive (b : Nat) (s : State) : State :=
  let x := brickAt s b
  match x.fl.ringIn with
  | [] => s
  | (src, bytes) :: rest =>
    let x := { x with fl := { x.fl with ringIn := rest } }
    let s := match x.fl.streams.find? (fun p => dKind p.2.desc == 9 && bits 8 5 (dSrc p.2.desc) == src % 16) with
      | some (d, st) =>
        let lo := dDst st.desc + st.moved
        if !bmemInside x (dWin st.desc) lo 64 then
          haltStream b 0x06 (streamSlot st) st (BitVec.ofNat 32 lo) false (putBrick b x s)
        else putBrick b (streamMoved d 64 st (bmemWrite lo bytes x)) s
      | none => putBrick b { x with c := { x.c with ringLost := true } } s
    modBrick src (fun y => match y.fl.streams.find? (fun p => dKind p.2.desc == 8) with
      | some (d, st) => streamMoved d 64 st y
      | none => y) s

/-! ### The array's errors (R198 to R203) -/

/-- The BRK_CAP_HASH of a brick (R282, Table 6 of the Hykai chapter): bytes 0 to 3 of SHA-384 over its capability record. -/
def capHashOf (s : State) (x : BrickSt) : Word :=
  let whole := !x.arr.layout
  let wa := if whole then 0 else quadWidth x.arr 0
  let wb := if whole then 0 else quadWidth x.arr 1
  let rec_ : List Byte := [BitVec.ofNat 8 s.dev.grade.val, BitVec.ofNat 8 (b2n x.arr.layout),
      BitVec.ofNat 8 (if whole then wholeWidth x.arr else 0), BitVec.ofNat 8 wa, BitVec.ofNat 8 wb,
      BitVec.ofNat 8 (b2n (hasButtress s) + 2 * b2n (hasStreamer s) + 4 * b2n (s.dev.grade != 2)), 1, 0]
    ++ leBytes 4 s.dev.xlateRev.toNat ++ leBytes 4 s.dev.revision.toNat ++ List.replicate 16 0
  BitVec.ofNat 32 (leNat ((sha384 rec_).take 4))

/-- The unit field of a column group (R478). -/
def groupUnit (b : Nat) (g : Nat) : Word := brickUnit b ||| BitVec.ofNat 32 g

/-- The slow-path slices whose program ran on a brick answered with source 5 and counted in PKT_CNT_SLOW_EXCESS (R456). -/
def answerSlowOn (b : Nat) (s : State) : State :=
  let mine := s.pdies.flatMap (fun (x : Nat × PDie) => (x.2.slow.filter (fun w => w.brick == b)).map (fun w => (x.1, w.st)))
  let s := { s with pdies := mapAll (fun (x : PDie) => { x with slow := x.slow.filter (fun w => w.brick != b) }) s.pdies }
  mine.foldl (fun s q => finalVerdict q.2 (defaultAnswer s q.2) (cntPdie q.1 6 1 s)) s

/-- A brick fenced by the warden: every lease it held returns to the routers, the slow-path slices it had are answered, and its course runs on
without it (R452, R456, R461). -/
def fenceBrick (b : Nat) (s : State) : State :=
  let x := brickAt s b
  if x.c.phase == .off || x.c.phase == .retired then s
  else
    let k := unitKey 0 (brickUnit b)
    let n := (s.flt.leases.filter (fun l => l.holder == k)).length
    let s := answerSlowOn b (failPalletsOn b (putBrick b { x with c := { x.c with phase := .fenced }, fl := {} } s))
    let s := cntWdn 6 n { s with flt := { s.flt with leases := s.flt.leases.filter (fun l => l.holder != k) } }
    thawCourse (b / 16) s

/-- A brick retired in the repair map (R245, R460). -/
def retireBrick (b : Nat) (s : State) : State :=
  let s := modBrick b (fun x => { x with c := { x.c with phase := .retired } }) s
  { s with flt := { s.flt with retiredBricks := if s.flt.retiredBricks.contains b then s.flt.retiredBricks else s.flt.retiredBricks ++ [b],
                               repairGen := s.flt.repairGen + 1 },
           dev := { s.dev with capsGen := s.dev.capsGen + 1 } }

/-- Column groups retired (R202): the brick is narrowed and rebuilt while fenced; a third group retires its array and the brick. -/
def retireGroups (b : Nat) (gs : List (Fin 16)) (s : State) : State :=
  let x := brickAt s b
  let n := x.arr.retired.val + gs.length
  let mask := gs.foldl (fun (m : BitVec 16) g => m &&& ~~~(1#16 <<< g.val)) x.arr.colMask
  let s := fenceBrick b s
  let s := cntWdn 1 1 (raiseInt 4 s)
  if n < 3 then
    let s := modBrick b (fun x => { x with arr := { x.arr with colMask := mask, retired := Fin.ofNat 4 n, state := 1, suspect := [], reruns := 0 } }) s
    let s := { s with flt := { s.flt with retiredGroups := mapSet b (~~~mask) s.flt.retiredGroups, repairGen := s.flt.repairGen + 1 } }
    gs.foldl (fun s g => faultRecord 1 1 4 3 (groupUnit b g.val) 0xFFFF 0 0 s) s
  else
    let s := modBrick b (fun x => { x with arr := { x.arr with state := 2, suspect := [], reruns := 0 } }) s
    faultRecord 0 1 4 7 (brickUnit b) 0xFFFF 0 0 (retireBrick b s)

/-- The transient faults of a unit within the last second with one more; the sixteenth makes the fault lasting (R449). -/
def noteTransient (k : Nat) (s : State) : State × Bool :=
  let ts := (unitAt s k).transients.filter (fun t => decide (nowNs s < t + 1000000000)) ++ [nowNs s]
  (cntWdn 0 1 (modUnit k (fun u => { u with transients := ts }) s), decide (16 ≤ ts.length))

/-- The first error of some groups cleared by a re-run: counted in BRK_ARRAY_ERR and by the warden; the sixteenth in a second retires the
group (R201, R449). -/
def clearSuspect (b : Nat) (gs : List (Fin 16)) (s : State) : State :=
  gs.foldl (fun s g =>
    let s := modBrick b (fun x => { x with arr := { x.arr with transient := if x.arr.transient = 0xFFFF then x.arr.transient else x.arr.transient + 1,
                                                               suspect := x.arr.suspect.filter (· != g) } }) s
    let (s, lasting) := noteTransient (unitKey 1 (groupUnit b g.val)) s
    if lasting then retireGroups b [g] s else faultRecord 1 0 4 0 (groupUnit b g.val) 0xFFFF 0 0 s) s

/-- A pass in which the checkers find errors (R200, R201): it is discarded and its pallet fails. A group that errs again in the re-run is
lasting; another begins its own retry; after three re-runs the brick is pointed as a whole. -/
def arrayError (b : Nat) (gs : List (Fin 16)) (kind : Fin 8) (s : State) : State :=
  let x := brickAt s b
  let old := x.arr.suspect
  let again := gs.filter (fun g => old.contains g)
  let fresh := gs.filter (fun g => !old.contains g)
  let s := failPalletsOn b (putBrick b { x with
    fl := { x.fl with passes := x.fl.passes.drop 1 },
    arr := { x.arr with lastGroup := gs.headD 0, lastKind := kind, suspect := fresh, reruns := x.arr.reruns + 1 } } s)
  if !again.isEmpty then retireGroups b again s
  else if 3 ≤ x.arr.reruns then
    faultRecord 0 1 4 1 (brickUnit b) 0xFFFF 0 0 (cntWdn 1 1 (raiseInt 4 (fenceBrick b s)))
  else clearSuspect b old s

end Sys2Proof.Machine
end

