-- ==== Sys2Proof/Machine/Ingress.lean ====
section
/-!
DEFINITION. Slices at the L-dies: acceptance into the elastic buffer, the descriptor checks, steering and stamping (chapter 1).
-/

namespace Sys2Proof.Machine

open Sys2Proof

/-- The answer of every meaning. -/
abbrev Out := Host.Outcome State Fault Refusal

/-! ### Trace records (R524) -/

/-- The trace ring of a die: that of S-die i for P-die and L-die i, of S-die (j mod 4) for C-die j. -/
def traceRingOf (dieKind die : Nat) : Nat := if dieKind = 0 then die % 4 else die

/-- A trace record put on VC6, if the ring is enabled and the kind is selected. -/
def trace (kind dieKind die lane part : Nat) (data : List Byte) (s : State) : State :=
  if s.obs.ringOn && bit (kind - 1) s.obs.kinds.toNat then
    let rec_ := leBytes 8 s.time.wall.toNat ++ [BitVec.ofNat 8 kind, BitVec.ofNat 8 dieKind, BitVec.ofNat 8 die, BitVec.ofNat 8 lane]
      ++ leBytes 2 part ++ [0, 0] ++ (data ++ List.replicate 16 0).take 16
    { s with obs := { s.obs with traceWait := s.obs.traceWait ++ [(rec_, nowNs s)] } }
  else s

/-! ### Streams and credits of a port (R403, R404, R409) -/

/-- The key of a stream or a credit of a port: flit type or class times 16 plus the local feed or peer. -/
def pkey (ty loc : Nat) : Nat := ty * 16 + loc

/-- The record length of a local feed: that of the port's last training (R409), else its FEEDS entry's. -/
def reclenOf (s : State) (port loc : Nat) : Nat :=
  match mapFind loc (portAt s port).reclens with
  | some n => n
  | none => ((feedOf s port loc).map (·.reclen)).getD 128

/-- The L-die of a device port. -/
def ldieOfPort (p : Nat) : Nat := p / 16

/-- Whether a pause holds release and credits (R17, R58). -/
def paused (s : State) : Bool := s.st.pause.isSome

/-- Flit bodies that the slices of a feed take in the elastic buffer (R404). -/
def feedBodies (s : State) (l f : Nat) : Nat :=
  ceilDiv (((ldieAt s l).elastic.filter (fun x => x.feed.val == f)).map (fun x => 16 + x.hdr.length)).sum 244

/-- Flit bodies in an L-die's elastic buffer. -/
def elasticBodies (s : State) (l : Nat) : Nat := ceilDiv (((ldieAt s l).elastic).map (fun x => 16 + x.hdr.length)).sum 244

/-- The SLICE credit grant of a feed, scaled by the lanes its port has in service (R404, R407). -/
def grantOf (s : State) (c : FeedCfg) : Nat :=
  let x := portAt s c.port.val
  if x.lanesCfg.isEmpty then c.credits else c.credits * x.lanesUp.length / x.lanesCfg.length

/-- Credits of a feed returned to the partner, but for those held back: during a pause, while the feed's share is full, or beyond the
scaled grant (R403, R404). -/
def returnCredits (c : FeedCfg) (s : State) : State :=
  let x := portAt s c.port.val
  let k := pkey 0 c.loc
  let owed := mapGet 0 x.owed k
  let granted := mapGet 0 x.granted k
  let used := feedBodies s (ldieOfPort c.port.val) c.feed.val
  if paused s || decide (c.credits ≤ used) then s
  else
    let n := min owed (grantOf s c - granted)
    putPort c.port.val { x with owed := mapSet k (owed - n) x.owed, granted := mapSet k (granted + n) x.granted } s

/-! ### Acceptance (R14, R15) -/

/-- The checks of Table 2 that the record alone decides: 0 header count, 1 feed, 3 flags. -/
def recordCheck (reclen : Nat) (feed : Nat) (d : BitVec 128) : Option (Fin 4) :=
  if reclen - 16 < dHdrCount d then some 0
  else if dFeed d ≠ feed then some 1
  else if dReserved d ≠ 0 then some 3
  else none

/-- A slice taken into an elastic buffer. -/
def acceptSlice (l : Nat) (x : Slice) (s : State) : State :=
  let s := modLdie l (fun q => { q with elastic := q.elastic ++ [x] }) s
  trace 1 3 l 0 (dPart x.desc).val (leBytes 4 (dTag x.desc).toNat ++ [BitVec.ofNat 8 x.feed.val]) s

/-- SLICE_IN (R14, R408): a whole slice record of a local feed's stream enters the elastic buffer. -/
def execSliceIn (port : LPort) (feed : Local) (s : State) : Out :=
  match feedOf s port.val feed.val with
  | none => .next s
  | some c =>
    let n := reclenOf s port.val feed.val
    let k := pkey 2 feed.val
    let stream := mapGet [] (portAt s port.val).rx k
    if stream.length < n then .next s
    else
      let d := BitVec.ofNat 128 (leNat (stream.take 16))
      let s := modPort port.val (fun x => { x with rx := mapSet k (stream.drop n) x.rx }) s
      .next (acceptSlice (ldieOfPort port.val)
        { feed := c.feed, desc := d, hdr := (stream.take n).drop 16, tIn := s.time.wall, fail := recordCheck n c.feed.val d } s)

/-! ### Steering and stamping (R16 to R20, R36, R46, R457) -/

/-- The P-die that the steering table names for a hash: entry e is e mod 4 until a table is written (R46). -/
def steerOf (q : LDieQ) (hash : Nat) : Die :=
  let e := hash % 256
  match q.steer[e]? with
  | some b => Fin.ofNat 4 b.toNat
  | none => Fin.ofNat 4 e

/-- The first check of Table 2 that a slice fails under its stamped epoch. -/
def sliceCheck (s : State) (e : Word) (x : Slice) : Option (Fin 4) :=
  match x.fail with
  | some 3 => if enabledIn s (secsOf s e) (dPart x.desc).val then some 3 else some 2
  | some k => some k
  | none => if enabledIn s (secsOf s e) (dPart x.desc).val then none else some 2

/-- A slice stamped: its epochs, its P-die, its ledger entry, the in-flight counts (R17, R20, R457). A clock-skewed slice is counted
(R31). -/
def stampSlice (l : Nat) (x : Slice) (s : State) : Stamped × State :=
  let p := (dPart x.desc).val
  let q := ldieAt s l
  let skew := dDeadline x.desc != 0 && (sliceAge s x.desc).2
  let st : Stamped :=
    { s := { x with fenced := fenced s p }, structEpoch := s.st.epoch, modelEpoch := activeNum s p,
      pdie := steerOf q (dSteer x.desc), skew, ldie := Fin.ofNat 4 l, lid := q.nextLid }
  let e : LedgerEntry :=
    { lid := q.nextLid, tag := dTag x.desc, feed := x.feed, part := dPart x.desc, arrival := dArrival x.desc,
      deadline := dDeadline x.desc, tIn := x.tIn, epoch := st.modelEpoch, structEpoch := st.structEpoch, pdie := none }
  let s := putLdie l { q with ledger := q.ledger ++ [e], nextLid := q.nextLid + 1 } s
  let s := if skew then cntLdie l 4 1 s else s
  (st, raiseInflight p st.modelEpoch st.structEpoch s)

/-- A ledger entry's P-die noted. -/
def ledgerTo (l lid : Nat) (p : Die) (s : State) : State :=
  modLdie l (fun q => { q with ledger := q.ledger.map (fun e => if e.lid = lid then { e with pdie := some p } else e) }) s

/-- SLICE_RELEASE (R17): the oldest slice leaves the elastic buffer while no pause holds it and a ledger entry is free. A slice of a fenced
partition is answered with source 7, one that fails a check or whose partition has no model epoch with source 5, and every other goes to
its P-die. -/
def execSliceRelease (l : Die) (s : State) : Out :=
  let q := ldieAt s l.val
  match q.elastic with
  | [] => .next s
  | x :: rest =>
    if paused s || decide (327680 ≤ q.ledger.length) || q.lost then .next s
    else
      let s := putLdie l.val { q with elastic := rest } s
      let s := match feedCfg s x.feed.val with
        | some c => returnCredits c s
        | none => s
      let fail := sliceCheck s s.st.epoch x
      let (st, s) := stampSlice l.val x s
      let s := match fail with
        | some k => cntLdie l.val k.val 1 s
        | none => s
      if fail.isSome || st.s.fenced || st.modelEpoch == 0 then .next (finalVerdict st (defaultAnswer s st) s)
      else
        let s := ledgerTo l.val st.lid st.pdie s
        .next (modPdie st.pdie.val (fun p => { p with inbox := p.inbox ++ [st] }) s)

end Sys2Proof.Machine
end

