-- ==== Sys2Proof/Machine/BrickRegs.lean ====
section
/-!
DEFINITION. The registers of a brick as the driver reads and writes them (R144, R172, R173, R205, R206, R247 to R249, R296, R532).
-/

namespace Sys2Proof.Machine

open Sys2Proof

/-- A register as a read finds it: its width in bytes and its value. -/
structure Reg where
  width : Nat
  val : Nat
  deriving DecidableEq, Repr

/-- A 4-byte register. -/
def r4 (v : Nat) : Option Reg := some ⟨4, v % 2 ^ 32⟩
/-- An 8-byte register. -/
def r8 (v : Nat) : Option Reg := some ⟨8, v % 2 ^ 64⟩

/-- The code of a brick state (Table 10). -/
def phaseCode : BrickPhase → Nat
  | .off => 0
  | .reset => 1
  | .idle => 2
  | .running => 3
  | .frozen => 4
  | .halted => 5
  | .fenced => 6
  | .retired => 7

/-- BRK_STATE (Table 10). -/
def brkState (x : BrickSt) : Nat :=
  x.c.haltReason.toNat * 2 ^ 24 + x.c.haltSlot.val * 2 ^ 16 + x.r.excDepth.toNat * 2 ^ 8 + phaseCode x.c.phase

/-- BRK_CTL (Table 11). -/
def brkCtl (x : BrickSt) : Nat := bitAt 1 x.c.lockstep + bitAt 0 x.r.ie

/-- BRK_HALT_PC (Table 12). -/
def brkHaltPc (x : BrickSt) : Nat := x.c.lastReason.toNat * 2 ^ 24 + x.c.haltPc.toNat

/-- BRK_SYNC_STATUS (Table 18). -/
def brkSync (x : BrickSt) : Nat := bitAt 1 x.c.counterSat + bitAt 0 x.c.flagOverrun

/-- BRK_NUM_STATUS (R144). -/
def brkNum (x : BrickSt) : Nat := bitAt 3 x.num.flush + bitAt 2 x.num.overflow + bitAt 1 x.num.invalid + bitAt 0 x.num.t2w

/-- BRK_ARRAY_CFG (R205). -/
def brkArrayCfg (x : BrickSt) : Nat := bitAt 24 x.arr.layout + wholeWidth x.arr * 2 ^ 16 + x.arr.state.val * 2 ^ 12

/-- BRK_ARRAY_ERR (R206). -/
def brkArrayErr (x : BrickSt) : Nat :=
  x.arr.transient.toNat * 2 ^ 32 + min 2 x.arr.retired.val * 2 ^ 16 + x.arr.lastGroup.val * 2 ^ 8 + x.arr.lastKind.val * 2 ^ 4

/-- BRK_REGION_n (Table 20). -/
def brkRegion (r : Region) : Nat := r.stamp.toNat * 2 ^ 32 + bitAt 31 r.valid + r.length * 2 ^ 13 + r.base.toNat

/-- BRK_WIN_w (Table 21). -/
def brkWin (w : Win) : Nat :=
  bitAt 63 w.valid + w.part.val * 2 ^ 53 + w.bmemPages * 2 ^ 38 + w.bmemBase * 2 ^ 27 + w.dmemLen * 2 ^ 16 + w.dmemBase * 2 ^ 8

/-- BRK_PARAM_STATUS (Table 22). -/
def brkParamStatus (x : BrickSt) : Nat :=
  ((List.finRange 4).map (fun w => (x.params.get w).patched.toNat * 2 ^ (16 * w.val))).sum

/-- BRK_BARRIER_b (R296). -/
def brkBarrier (x : BrickSt) (b : Fin 4) : Nat := bitAt 31 (x.barriers.get b).1 + (x.barriers.get b).2.toNat

/-- One word of a BRK_QSTAT slot (R173). -/
def qstatWord (q : StatSlot) (w : Nat) : Nat :=
  match w with
  | 0 => q.sumX2.toNat
  | 1 => q.sumE2.toNat
  | 2 => q.epoch.toNat * 2 ^ 48 + q.count.toNat
  | _ => q.part.val * 2 ^ 54 + bitAt 53 q.valid + q.set.val * 2 ^ 48 + q.clamped.toNat * 2 ^ 24 + q.nonfinite.toNat

/-- A register of a brick at an offset from the brick base; none where no register is named. -/
def brkReg (x : BrickSt) (o : Nat) : Option Reg :=
  if o = 0 then r4 (brkState x)
  else if o = 4 then r4 (brkCtl x)
  else if o = 8 then r4 (brkHaltPc x)
  else if o = 0xC then r4 x.c.haltPrior.toNat
  else if o = 0x10 then r4 x.c.haltInfo.toNat
  else if o = 0x20 then r4 x.c.stkLo.toNat
  else if o = 0x24 then r4 x.c.stkHi.toNat
  else if o = 0x28 then r4 x.c.excVec.toNat
  else if o = 0x30 then r4 (x.c.wdogLimitUs % 16)
  else if o = 0x40 then r4 (brkSync x)
  else if o = 0x48 then r4 x.c.capHash.toNat
  else if o = 0x50 then r4 (b2n x.c.ringLost)
  else if o = 0x54 then r4 (x.c.replayBeats % 256)
  else if 0x100 ≤ o ∧ o < 0x140 ∧ o % 8 = 0 then r8 (brkRegion (x.regions.get (Fin.ofNat 8 ((o - 0x100) / 8))))
  else if 0x200 ≤ o ∧ o < 0x240 ∧ o % 16 = 0 then r8 (brkWin (x.wins.get (Fin.ofNat 4 ((o - 0x200) / 16))))
  else if o = 0x280 then r8 (brkParamStatus x)
  else if 0x300 ≤ o ∧ o < 0x320 ∧ o % 8 = 0 then r4 (brkBarrier x (Fin.ofNat 4 ((o - 0x300) / 8)))
  else if o = 0x400 then r4 (brkNum x)
  else if o = 0x408 then r4 (bitAt 1 x.vec.qsnapDone + bitAt 0 x.vec.qsnapBusy)
  else if o = 0x410 then r4 (brkArrayCfg x)
  else if o = 0x414 then r4 x.arr.colMask.toNat
  else if o = 0x418 then r8 (brkArrayErr x)
  else if 0x800 ≤ o ∧ o < 0x1000 ∧ o % 8 = 0 then
    r8 (qstatWord (mapGet {} x.vec.snap ((o - 0x800) / 32)) ((o - 0x800) % 32 / 8))
  else if o = 0x1000 then r4 (bitAt 1 x.perf.snapDone)
  else if 0x1008 ≤ o ∧ o < 0x1098 ∧ o % 8 = 0 then r8 (mapGet 0 x.perf.snapEngines ((o - 0x1008) / 8) % 2 ^ 48)
  else if 0x1100 ≤ o ∧ o < 0x1130 ∧ o % 8 = 0 then r8 (mapGet 0 x.perf.snapStalls ((o - 0x1100) / 8) % 2 ^ 48)
  else if o = 0x1180 then r8 x.perf.eccCorr.toNat
  else if o = 0x1188 then r8 x.perf.eccRetry.toNat
  else none

/-- The RCLR registers of a brick cleared by a read (R206, R532). -/
def brkClear (o : Nat) (x : BrickSt) : BrickSt :=
  if o = 0x418 then { x with arr := { x.arr with transient := 0 } }
  else if o = 0x1180 then { x with perf := { x.perf with eccCorr := 0 } }
  else if o = 0x1188 then { x with perf := { x.perf with eccRetry := 0 } }
  else x

/-- Request a statistics snapshot (R172): an idle brick copies at once, another at the next pallet boundary. -/
def qstatSnap (x : BrickSt) : BrickSt :=
  if x.c.phase == .idle then { x with vec := { x.vec with snap := x.vec.stats, qsnapDone := true, qsnapBusy := false } }
  else { x with vec := { x.vec with qsnapDone := false, qsnapBusy := true } }

/-- The cycle counters copied (R532). -/
def perfSnap (x : BrickSt) : BrickSt :=
  { x with perf := { x.perf with snapEngines := x.perf.engines, snapStalls := x.perf.stalls, snapDone := true } }

/-- A write to a register of a brick: the W1C fields and the snapshot requests; everything else is read-only (R247). -/
def brkWrite (o v : Nat) (x : BrickSt) : BrickSt :=
  if o = 0x40 then { x with c := { x.c with counterSat := x.c.counterSat && !bit 1 v, flagOverrun := x.c.flagOverrun && !bit 0 v } }
  else if o = 0x50 then { x with c := { x.c with ringLost := x.c.ringLost && !bit 0 v } }
  else if o = 0x400 then
    { x with num := { flush := x.num.flush && !bit 3 v, overflow := x.num.overflow && !bit 2 v,
                      invalid := x.num.invalid && !bit 1 v, t2w := x.num.t2w && !bit 0 v } }
  else if o = 0x408 then (if bit 0 v then qstatSnap x else x)
  else if o = 0x1000 then (if bit 0 v then perfSnap x else x)
  else x

end Sys2Proof.Machine
end

