-- ==== Sys2Proof/Machine/Rubble.lean ====
section
/-!
DEFINITION. The rubble snapshot: the dump of a hung brick and of its course (R526 to R530).
-/

namespace Sys2Proof.Machine

open Sys2Proof

/-- The bricks in a snapshot's scope (R526): the hung brick, and in lock-step mode every brick of its course. -/
def rubbleScope (s : State) (b : Nat) : List Nat := if (brickAt s b).c.lockstep then courseBricks (b / 16) else [b]

/-- The logical identifier of a physical brick (R8): its own C-die's course, or the course that was moved to it. -/
def brickIdOf (s : State) (b : Nat) : Nat :=
  match (List.range 16).find? (fun c => physCdie s c == some (b / 16)) with
  | some c => c * 16 + b % 16
  | none => b

/-- The wait identifier of a slot of the bundle at the program counter (Table 1 of the bundle chapter). -/
def imemWait (x : BrickSt) (slot : Nat) : BitVec 6 :=
  let w := leNat (memBytes x.m.imem (32 * x.r.pc.toNat) 32)
  BitVec.ofNat 6 (w / 2 ^ ([250, 226, 186, 130, 82, 34].getD slot 0))

/-- A parameter set as 16 little-endian words. -/
def paramBytes (f : Fin 16 → DWord) : List Byte := (List.finRange 16).flatMap (fun i => leBytes 8 (f i).toNat)

/-- A BRICK section (Table 7). -/
def rubbleBrick (now : Nat) (x : BrickSt) : List Byte :=
  let w4 := fun v => leBytes 4 v
  let regs := [brkState x, brkCtl x, brkHaltPc x, x.c.haltPrior.toNat, x.c.haltInfo.toNat, x.c.stkLo.toNat, x.c.stkHi.toNat,
    x.c.excVec.toNat, x.c.wdogLimitUs, x.c.capHash.toNat, brkArrayCfg x, x.arr.colMask.toNat, x.c.replayBeats, brkSync x,
    b2n x.c.ringLost, brkNum x].flatMap w4
  let pcs := w4 x.r.pc.toNat ++ w4 (x.r.excDepth.toNat * 2 + b2n x.r.ie) ++ w4 x.r.timer.toNat ++ w4 0
    ++ leBytes 8 x.r.cycle ++ leBytes 8 (now - x.c.lastIssueNs)
  let waits := (List.range 6).flatMap (fun i =>
    [(imemWait x i).setWidth 8, BitVec.ofNat 8 (b2n (waitOk x (imemWait x i) 1))])
  let hold : Byte := if x.c.stallReplay || !x.c.stallWaits.isEmpty || x.c.stallReason.val = 2 then
    BitVec.ofNat 8 x.c.stallReason.val else 0xFF
  let syncs := w4 x.r.flags.toNat ++ x.r.counters.toList ++ List.replicate 12 0
  let head := regs ++ pcs ++ memBytes x.m.imem (32 * x.r.pc.toNat) 32 ++ (waits ++ [hold] ++ List.replicate 19 0) ++ syncs
    ++ List.replicate 0x40 0
  let sregs := (List.finRange 32).flatMap (fun i => w4 (getS x i).toNat) ++ List.replicate 0x80 0
  let params := (List.finRange 4).flatMap (fun w => paramBytes (fun i => (x.params.get w).vals.get i))
  let pend := (List.finRange 4).flatMap (fun w => paramBytes (fun i =>
    (((x.params.get w).pending.bind (mapFind i.val)).getD 0)))
  let pflags := (List.finRange 4).flatMap (fun w => match (x.params.get w).pending with
      | some m => leBytes 2 ((m.map (fun e => 2 ^ e.1)).sum % 2 ^ 16)
      | none => [0, 0])
    ++ leBytes 8 (brkParamStatus x) ++ List.replicate 0xF0 0
  let words := fun (d : Vector DWord 4) => d.toList.flatMap (fun v => leBytes 8 v.toNat)
  let descs := x.descs.toList.flatMap words
  let runs := (List.range 16).flatMap (fun d => match mapFind d x.fl.streams with
    | some st => words st.desc
    | none => List.replicate 32 0)
  let moved := (List.range 16).flatMap (fun d => leBytes 8 (match mapFind d x.fl.streams with
    | some st => st.moved
    | none => 0))
  let tables := x.regions.toList.flatMap (fun r => leBytes 8 (brkRegion r)) ++ x.wins.toList.flatMap (fun v => leBytes 8 (brkWin v))
    ++ (List.finRange 4).flatMap (fun i => leBytes 8 (brkBarrier x i))
  let perf := (List.range 18).flatMap (fun i => leBytes 8 (mapGet 0 x.perf.engines i))
    ++ (List.range 6).flatMap (fun i => leBytes 8 (mapGet 0 x.perf.stalls i))
  let lo := x.c.stkLo.toNat
  head ++ sregs ++ params ++ pend ++ pflags ++ descs ++ runs ++ moved ++ tables ++ perf
    ++ List.replicate 832 0 ++ memBytes x.m.dmem lo (x.c.stkHi.toNat + 1 - lo)

/-- An entry of the QUEUES section (Table 8). -/
def queueEntry (kind vc router : Nat) (holder : Word) (count left head : Nat) : List Byte :=
  [BitVec.ofNat 8 kind, BitVec.ofNat 8 vc] ++ leBytes 2 router ++ leBytes 4 holder.toNat ++ leBytes 2 count
    ++ leBytes 2 (min left 0xFFFF) ++ leBytes 4 head

/-- The QUEUES section: the dispatchers' open pallets, the leases and the barrier arrivals. -/
def rubbleQueues (s : State) : List Byte :=
  s.pdies.flatMap (fun x => x.2.open_.flatMap (fun p =>
    queueEntry 2 0xFF x.1 (BitVec.ofNat 32 (x.1 * 2 ^ 16)) p.rows.length 0 p.seqNo))
  ++ s.flt.leases.flatMap (fun l =>
    let left := (l.until_ - nowNs s) / 8
    match l.kind.val with
    | 0 => queueEntry 3 1 0 (BitVec.ofNat 32 l.holder) 1 left 0
    | 1 => queueEntry 4 2 0 (BitVec.ofNat 32 l.holder) 1 left l.pallet
    | 2 => queueEntry 5 4 0 (BitVec.ofNat 32 l.holder) 1 left l.pallet
    | 6 => queueEntry 7 0xFF 0 (BitVec.ofNat 32 l.holder) 1 left 0
    | _ => [])
  ++ s.bricks.flatMap (fun b => (List.range 4).flatMap (fun i =>
    if b.2.fl.arrivals.getLsbD i then queueEntry 6 0xFF 0 (brickUnit b.1) 1 0 i else []))

/-- The MAP section of a brick: one entry for each valid code region, whose Hykai word and stage nothing constrains (R294, log 3). -/
def rubbleMap (s : State) (x : BrickSt) : List Byte × State :=
  (x.regions.toList.zipIdx).foldl (fun (acc : List Byte × State) r =>
    if r.1.valid then
      let f := takeFree acc.2
      (acc.1 ++ leBytes 8 (bits 21 0 f.1.toNat * 2 ^ 42 + r.2 * 2 ^ 39 + r.1.base.toNat * 2 ^ 26
        + (r.1.base.toNat + r.1.length - 1) % 2 ^ 13 * 2 ^ 13), f.2)
    else acc) ([], s)

/-- The FAULTS section: the 32 newest fault records, oldest first. -/
def rubbleFaults (s : State) : List Byte :=
  let n := min 32 s.flt.head.toNat
  (List.range n).flatMap (fun i => mapGet [] s.flt.records ((s.flt.head.toNat - n + i) % 1024))

/-- A section padded to the next 64-byte boundary. -/
def pad64 (bs : List Byte) : List Byte := bs ++ List.replicate ((64 - bs.length % 64) % 64) 0

/-- The directory and the sections laid out from an offset: kind, unit, contents. -/
def rubbleLayout : Nat → List (Nat × Nat × List Byte) → List Byte × List Byte
  | _, [] => ([], [])
  | at_, (kind, unit, bs) :: rest =>
    let next := rubbleLayout (at_ + (pad64 bs).length) rest
    ([BitVec.ofNat 8 kind, 0] ++ leBytes 2 unit ++ leBytes 4 at_ ++ leBytes 4 bs.length ++ leBytes 4 0 ++ next.1, pad64 bs ++ next.2)

/-- The dump of a hang (R530) and the state with the free values it read; `missing` drops the QUEUES section (Table 5). -/
def rubbleDump (b : Nat) (missing : Bool) (s : State) : List Byte × State :=
  let x := brickAt s b
  let scope := rubbleScope s b
  let maps := scope.foldl (fun (acc : List (Nat × Nat × List Byte) × State) k =>
    let m := rubbleMap acc.2 (brickAt s k)
    (acc.1 ++ [(3, brickIdOf s k, m.1)], m.2)) ([], s)
  let secs := scope.map (fun k => (1, brickIdOf s k, rubbleBrick (nowNs s) (brickAt s k)))
    ++ (if missing then [] else [(2, 0xFFFF, rubbleQueues s)]) ++ maps.1 ++ [(4, 0xFFFF, rubbleFaults s)]
  let n := secs.length
  let first := (64 + 16 * n + 63) / 64 * 64
  let lay := rubbleLayout first secs
  let body := pad64 lay.1 ++ lay.2
  let head := leBytes 4 0x42555252 ++ [1, BitVec.ofNat 8 (bitAt 0 missing + bitAt 2 x.c.lockstep)] ++ leBytes 2 n
    ++ leBytes 8 (64 + body.length) ++ leBytes 8 s.time.wall.toNat ++ leBytes 2 (brickIdOf s b) ++ [BitVec.ofNat 8 (b / 16), 0]
    ++ leBytes 4 s.flt.repairGen.toNat ++ leBytes 4 s.st.epoch.toNat ++ leBytes 4 s.flt.head.toNat
    ++ leBytes 8 (nowNs s - x.c.lastIssueNs) ++ List.replicate 12 0
  (head ++ leBytes 4 (crc32c body).toNat ++ body, maps.2)

/-- The snapshot latched at a watchdog's expiry (R527, R529): into a free slot, or skipped and counted. -/
def latchRubble (b : Nat) (s : State) : State :=
  match (List.range 4).find? (fun i => (mapFind i s.obs.rubble).isNone) with
  | none => { s with obs := { s.obs with skipCnt := s.obs.skipCnt + 1 } }
  | some i =>
    let missing := s.obs.rubble.any (fun r => !r.2.written)
    let d := rubbleDump b missing s
    let s := d.2
    { s with obs := { s.obs with rubble := mapSet i { brick := Fin.ofNat 288 b, bytes := d.1 } s.obs.rubble,
                                 latched := if s.obs.latched = 255 then 255 else s.obs.latched + 1 } }

end Sys2Proof.Machine
end

