-- ==== Sys2Proof/Machine/BrickEvents.lean ====
section
/-!
DEFINITION. The meanings of the events of bricks: landings, exceptions' causes, barriers, streams, hangs, resets and snapshots.
-/

namespace Sys2Proof.Machine

open Sys2Proof




/-! ### Landings (R219, R223, R226, R256) -/

/-- SCALAR_LOAD_RESULT (R256): the oldest DMEM load in flight lands at its cycle and raises its signal. -/
def execScalarLoadResult (brick : Brick) (s : State) : Out :=
  .next (runTo brick.val ((brickAt s brick.val).fl.loads.head?.map (·.due)) s)

/-- VECTOR_RESULT_WRITE (R223): the oldest vector result in flight lands at issue + 4. -/
def execVectorResultWrite (brick : Brick) (s : State) : Out :=
  .next (runTo brick.val ((brickAt s brick.val).fl.vecs.head?.map (·.due)) s)

/-- QUANTISE_DONE (R226): the oldest quantise result in flight lands at issue + 6. -/
def execQuantiseDone (brick : Brick) (s : State) : Out :=
  .next (runTo brick.val ((brickAt s brick.val).fl.quants.head?.map (·.due)) s)

/-- PASS_COMPLETE (R219, R200): the oldest pass writes its last row and raises its signal, or the checkers find it in error. -/
def execPassComplete (brick : Brick) (check : PassCheck) (s : State) : Out :=
  match (brickAt s brick.val).fl.passes with
  | [] => .next s
  | p :: _ =>
    match check with
    | .clean => .next (runTo brick.val (some p.due) s)
    | .error groups kind => .next (if clocked (brickAt s brick.val) then arrayError brick.val groups kind s else s)

/-- WFILL_COMPLETE (R219): the oldest shadow fill completes its last cell write and raises its signal. -/
def execWfillComplete (brick : Brick) (s : State) : Out :=
  .next (runTo brick.val ((brickAt s brick.val).fl.fills.head?.map (·.due)) s)

/-! ### Exception causes (R234, R259) -/

/-- Take a pending cause in a running independent brick: the command stands between two bundles (R234). -/
def betweenBundles (b : Nat) (s : State) : State :=
  let x := brickAt s b
  if x.c.phase == .running && !x.c.lockstep then
    let y := takeAsync x
    if y.c.phase == .halted then afterHalt b y s else putBrick b y s
  else s

/-- TIMER (R259): the scalar timer runs on and passes from 1 to 0, raising the TIMER cause; a stopped timer raises nothing. -/
def execTimerExpire (brick : Brick) (s : State) : Out :=
  let x := brickAt s brick.val
  if x.r.timer = 0 ∨ !clocked x then .next s
  else .next (betweenBundles brick.val (runTo brick.val (some (x.r.cycle + x.r.timer.toNat)) s))

/-- DOORBELL (R234): the message makes the cause pending; a halted, fenced, retired or powered-off brick takes none. -/
def execDoorbell (brick : Brick) (message : BitVec 32) (s : State) : Out :=
  let x := brickAt s brick.val
  if !haltable x then .next s
  else .next (betweenBundles brick.val (putBrick brick.val { x with r := { x.r with pendDoorbell := some message } } s))

/-! ### Barriers (R253, R289) -/

/-- The members of a barrier of a course: the mask that a brick's own BRK_BARRIER_b holds. -/
def barrierMembers (s : State) (c : Nat) (b : Fin 4) : List Nat :=
  match (courseBricks c).find? (fun k => ((brickAt s k).barriers.get b).1) with
  | none => []
  | some k => (List.range 16).filterMap (fun i => if ((brickAt s k).barriers.get b).2.getLsbD i then some (c * 16 + i) else none)

/-- The release raised in one member: its release identifier is a signal, and the arrival is used up. -/
def releaseIn (b : Fin 4) (x : BrickSt) : BrickSt :=
  let id := mapGet 0 x.fl.releases b.val
  let x := { x with fl := { x.fl with arrivals := x.fl.arrivals &&& ~~~(1#4 <<< b.val), releases := mapDel b.val x.fl.releases } }
  streamSignal id x

/-- BARRIER_RELEASE (R289): once every member has arrived, the release is raised in every member in the same cycle. -/
def execBarrierRelease (course : Course) (b : Fin 4) (s : State) : Out :=
  match physCdie s course.val with
  | none => .next s
  | some c =>
    let ms := barrierMembers s c b
    if ms.isEmpty || !ms.all (fun k => (brickAt s k).fl.arrivals.getLsbD b.val) then .next s
    else .next (ms.foldl (fun s k => modBrick k (releaseIn b) s) s)

/-! ### Streams (R219, R287) -/

/-- STREAM_CHUNK_DONE (R219). -/
def execStreamChunkDone (brick : Brick) (d : Fin 16) (s : State) : Out := .next (chunkDone brick.val d.val s)

/-- RING_CHUNK_ARRIVE (R287, R288). -/
def execRingChunkArrive (brick : Brick) (s : State) : Out := .next (ringArrive brick.val s)

/-! ### Hangs, resets and halts (R240, R244, R246, R527) -/

/-- WATCHDOG (R244): a brick in RUNNING or FROZEN that has issued nothing for limit_us is reported; the snapshot is latched, and then
the brick, and in lock-step mode every brick of its course, is halted with 0x0A. -/
def execWatchdog (brick : Brick) (s : State) : Out :=
  let x := brickAt s brick.val
  let idle := nowNs s - x.c.lastIssueNs
  if (x.c.phase == .running || x.c.phase == .frozen) && decide (x.c.wdogLimitUs * 1000 ≤ idle) then
    let s := latchRubble brick.val s
    .next ((rubbleScope s brick.val).foldl (fun s k =>
      let y := brickAt s k
      if haltable y then haltDev k 0x0A 6 y.r.pc (BitVec.ofNat 32 (nowNs s - y.c.lastIssueNs)) s else s) s)
  else .next s

/-- DUMP_WRITTEN (R527): the dump stands in its slot and the shadows are released. -/
def execDumpWritten (slot : Fin 4) (s : State) : Out :=
  match mapFind slot.val s.obs.rubble with
  | some r => .next { s with obs := { s.obs with rubble := mapSet slot.val { r with written := true } s.obs.rubble } }
  | none => .next s

/-- BRICK_RESET (R246, R461): a fenced brick enters RESET with its reset values, for 2 us, and its unit is in service again; not one that is being
retested or whose array is being rebuilt (R202, R476). -/
def execBrickReset (brick : Brick) (s : State) : Out :=
  let x := brickAt s brick.val
  let k := unitKey 0 (brickUnit brick.val)
  if x.c.phase == .fenced && x.arr.state.val != 1 && !s.flt.retests.contains k then
    let y := brickReset x
    .next (modUnit k (fun u => { u with st := .inService }) (putBrick brick.val { y with c := { y.c with resetDone := nowNs s + 2000 } } s))
  else .next s

/-- HALT_REQUEST (R240): the warden halts the brick with reason 0x0E and a code of its own. -/
def execHaltRequest (brick : Brick) (code : BitVec 32) (s : State) : Out :=
  let x := brickAt s brick.val
  if haltable x then .next (haltDev brick.val 0x0E 6 x.r.pc code s) else .next s

/-! ### Snapshots (R172, R532) -/

/-- QSTAT_SNAP (R172): a write of snap requests a statistics snapshot. -/
def execQstatSnap (brick : Brick) (s : State) : Out := .next (modBrick brick.val qstatSnap s)

/-- QSTAT_SNAPSHOT_TAKEN (R172): the slots are copied at the pallet boundary of the snapshot asked for. -/
def execQstatSnapshotTaken (brick : Brick) (s : State) : Out :=
  .next (modBrick brick.val (fun x =>
    if x.vec.qsnapBusy then { x with vec := { x.vec with snap := x.vec.stats, qsnapDone := true, qsnapBusy := false } } else x) s)

/-- PERF_SNAP (R532): the cycle counters are copied at once. -/
def execPerfSnap (brick : Brick) (s : State) : Out := .next (modBrick brick.val perfSnap s)

end Sys2Proof.Machine
end

