-- ==== Sys2Proof/Machine/Operands.lean ====
section
/-!
DEFINITION. The operand forms of the device's commands: registers by width, unit numbers and addresses (chapters 16 and 21).
-/

namespace Sys2Proof.Machine

open Sys2Proof

/-- The bytes of an access (R536). -/
def sizeBytes : AccessSize → Nat
  | .b1 => 1
  | .b2 => 2
  | .b4 => 4
  | .b8 => 8

/-- A read or written field of a register: bits hi to lo. -/
def field (hi lo : Nat) (v : DWord) : Nat := bits hi lo v.toNat

/-- A register with a field replaced. -/
def putField (hi lo n v : Nat) : Nat := v - bits hi lo v * 2 ^ lo + n % 2 ^ (hi + 1 - lo) * 2 ^ lo

/-- The low half of a 64-bit value. -/
def lowHalf (v : Nat) : Nat := v % 2 ^ 32

/-- The high half of a 64-bit value. -/
def highHalf (v : Nat) : Nat := v / 2 ^ 32 % 2 ^ 32

/-- The C-die of a unit field (R478). -/
def unitCdie (u : Word) : Nat := bits 23 16 u.toNat
/-- The brick of a unit field. -/
def unitBrick (u : Word) : Nat := bits 15 8 u.toNat % 16
/-- The low byte of a unit field: a column group, a lane, a bank. -/
def unitLow (u : Word) : Nat := bits 7 0 u.toNat

end Sys2Proof.Machine
end

