-- ==== Sys2Proof/Machine/Hykai.lean ====
section
/-!
DEFINITION. What a Hykai stage computes: the words of a stage as a program with its loops and branches, and its meaning over the rows of a
pallet, word by word in program order (R274 to R280, R559, R560). A tensor's place in the data section is log 24's.
-/

namespace Sys2Proof.Machine

open Sys2Proof

/-! ### Words -/

/-- The opcode of a word (R274). -/
def hOp (w : DWord) : Nat := bits 63 56 w.toNat
/-- The modifier. -/
def hMod (w : DWord) : Nat := bits 55 48 w.toNat
/-- Operand a. -/
def hA (w : DWord) : Nat := bits 47 36 w.toNat
/-- Operand b. -/
def hB (w : DWord) : Nat := bits 35 24 w.toNat
/-- Destination d. -/
def hD (w : DWord) : Nat := bits 23 12 w.toNat
/-- The immediate. -/
def hImm (w : DWord) : Nat := bits 11 0 w.toNat

/-- A stage as a program: words in order, the bodies of LOOP and IF nested. -/
inductive HProg where
  | nil
  | word (w : DWord) (rest : HProg)
  | loop (w : DWord) (body rest : HProg)
  | ite (w : DWord) (yes no rest : HProg)
  deriving DecidableEq, Repr

/-- An open frame while a stage is read from its last word to its first: what follows, and the ELSE body met so far. -/
structure HFrame where
  cur : HProg := .nil
  els : Option HProg := none
  deriving DecidableEq, Repr

/-- One word taken into the frames. -/
def hStep (w : DWord) (fs : List HFrame) : List HFrame :=
  match hOp w, fs with
  | 0x04, fs => {} :: fs
  | 0x07, fs => {} :: fs
  | 0x03, t :: p :: rest => { p with cur := .loop w t.cur p.cur } :: rest
  | 0x05, t :: p :: rest => { p with cur := .ite w t.cur (t.els.getD .nil) p.cur } :: rest
  | 0x06, t :: rest => { cur := .nil, els := some t.cur } :: rest
  | 0x00, fs => fs
  | 0x01, fs => fs
  | 0x02, fs => fs
  | 0x08, fs => fs
  | _, t :: rest => { t with cur := .word w t.cur } :: rest
  | _, [] => []

/-- The program of a list of words. -/
def hParse (ws : List DWord) : HProg := ((ws.foldr hStep [{}]).head?.map (·.cur)).getD .nil

/-! ### Tensors -/

/-- The value of a tensor: codes of each row (with the buttress codes and exponents of its outlier channels), FP32 or INT32 rows, or a
scalar. -/
inductive HVal where
  | codes (rows : List (List Nat)) (scales : List Nat) (outl : List (List Nat)) (exps : List Int)
  | fp (rows : List (List Word))
  | scal (w : Word)
  deriving DecidableEq, Repr

/-- What a run reads besides the values of its tensors. -/
structure HCtx where
  code : HykaiCode
  data : List Byte
  stats : List StatDesc := []
  scales : Map Nat := []
  rows : Nat := 0
  snaps : List (Option FlowEntry) := []
  params : Map DWord := []
  offsets : List Word := []
  ctxs : List (List Nat) := []
  recTensor : Nat := 0
  deriving DecidableEq, Repr

/-- What a run has produced so far. -/
structure HEnv where
  vals : Map HVal := []
  absent : List Bool := []
  emit : Option (List (Nat × BitVec 16)) := none
  fstore : Option (List (BitVec 128)) := none
  surprise : Option (List Word × List Word) := none
  predict : Option (List Word) := none
  newCtx : Option (List (List Nat)) := none
  stats : List StatElem := []
  captured : Map (List (List Word)) := []
  flags : NumFlags := {}
  deriving DecidableEq, Repr

/-- A tensor's descriptor. -/
def hTensor (c : HCtx) (i : Nat) : TensorDesc := c.code.tensors.getD i { kind := 0, format := 0 }

/-- Four bytes of the data section. -/
def hData32 (c : HCtx) (off : Nat) : Word := BitVec.ofNat 32 (leNat ((c.data.drop off).take 4))
/-- One byte of the data section. -/
def hData8 (c : HCtx) (off : Nat) : Nat := (c.data.getD off 0).toNat

/-- The group size of a tensor. -/
def hGroup (t : TensorDesc) : Nat := if t.g = 3 then max 1 t.dim1 else 32 * 2 ^ t.g

/-- The element format of a tensor. -/
def hElem (t : TensorDesc) : Elem :=
  match t.format with
  | 1 => .t2
  | 2 => .i8
  | _ => .i4

/-- The activation group scales of an ACT tensor: the image's codes, or those a re-tempering has put in their place (R149, R167). -/
def hActScales (c : HCtx) (i : Nat) : List Nat :=
  let t := hTensor c i
  (List.range (ceilDiv t.dim1 (hGroup t))).map (fun g => mapGet (hData8 c (t.scaleOff + g)) c.scales (i * 4096 + g))

/-- The groups of a weight tensor's reduction. -/
def hGroups (t : TensorDesc) : Nat := ceilDiv t.dim0 (hGroup t)

/-- Reduction elements of one K-tile: 256 with T2 weights in the whole layout, else 128 (R135). -/
def hTile (c : HCtx) (t : TensorDesc) : Nat := if t.format = 1 ∧ c.code.layout = 0 then 256 else 128

/-- The weight code of reduction element k and column n: the row of a column is packed along the reduction (R123, log 24). -/
def hWeight (c : HCtx) (t : TensorDesc) (k n : Nat) : Int :=
  let rb := ceilDiv (t.dim0 * (hElem t).bits) 8
  weightVal (hElem t) (unpack (hElem t) ((c.data.drop (t.dataOff + n * rb)).take rb) k)

/-- The weight group scale of group g and column n. -/
def hWScale (c : HCtx) (t : TensorDesc) (g n : Nat) : Nat := hData8 c (t.scaleOff + g * t.dim1 + n)

/-- The column sum of group g and column n (R130). -/
def hColSum (c : HCtx) (t : TensorDesc) (g n : Nat) : Int := codeInt 16 (leNat ((c.data.drop (t.auxOff + 2 * (g * t.dim1 + n))).take 2))

/-- The K-tiles of a weight tensor. -/
def hTiles (c : HCtx) (t : TensorDesc) : Nat := ceilDiv t.dim0 (hTile c t)

/-- Where a weight tensor's outlier map starts: after the column sums. -/
def hWMap (t : TensorDesc) : Nat := t.auxOff + 2 * hGroups t * t.dim1

/-- Outlier channel j of K-tile i of a map at an offset: its channel in the tensor. -/
def hChannel (c : HCtx) (map_ tile i j : Nat) : Option Nat :=
  let e := leNat ((c.data.drop (map_ + 16 * i + 2 * j)).take 2)
  if bit 15 e then some (i * tile + bits 8 0 e) else none

/-- The K-tile size of the first MATMUL that reads an ACT tensor. -/
def hActTile (c : HCtx) (i : Nat) : Nat :=
  match c.code.words.find? (fun w => hOp w == 0x20 && hA w == i) with
  | some w => hTile c (hTensor c (hB w))
  | none => 128

/-- Where an ACT tensor's outlier map starts: after its multipliers. -/
def hAMap (t : TensorDesc) : Nat := t.auxOff + (if t.multEn then 4 * t.dim1 else 0)

/-- The outlier channels of an ACT tensor, 8 places for each K-tile. -/
def hOutliers (c : HCtx) (i : Nat) : List (Option Nat) :=
  let t := hTensor c i
  if t.outliers then
    (List.range (ceilDiv t.dim1 (hActTile c i))).flatMap (fun k =>
      (List.range 8).map (fun j => hChannel c (hAMap t) (hActTile c i) k j))
  else []

/-! ### Reading and writing values -/

/-- The FP32 rows of an operand: ACC or OUT as written, or an FP32 weight of one row (R277). -/
def hRows (c : HCtx) (e : HEnv) (i : Nat) : List (List Word) :=
  match mapFind i e.vals with
  | some (.fp rows) => rows
  | _ =>
    let t := hTensor c i
    if t.kind = 1 then [(List.range t.dim1).map (fun n => hData32 c (t.dataOff + 4 * n))] else []

/-- Row r of an operand: a one-row operand is applied to every row (R277). -/
def hRow (rows : List (List Word)) (r : Nat) : List Word := if rows.length = 1 then rows.getD 0 [] else rows.getD r []

/-- A scalar tensor. -/
def hScal (e : HEnv) (i : Nat) : Word :=
  match mapFind i e.vals with
  | some (.scal w) => w
  | _ => 0

/-- A tensor written. -/
def hPut (i : Nat) (v : HVal) (e : HEnv) : HEnv := { e with vals := mapSet i v e.vals }

/-- How many rows a destination has: 1 for a one-row tensor, else the pallet's. -/
def hCount (c : HCtx) (i : Nat) : Nat := if (hTensor c i).dim0 = 1 then 1 else c.rows

/-! ### MATMUL (R133, R140) -/

/-- One result of the whole layout. -/
def hWhole (c : HCtx) (wt : TensorDesc) (act : Elem) (row sa : List Nat) (outl : List Nat) (exps : List Int) (n : Nat) (acc0 : Word) :
    Acc :=
  let G := hGroup wt
  let tile := hTile c wt
  (List.range (hTiles c wt)).foldl (fun acc t =>
    let acc := (rangeFrom (t * (tile / G)) (min (tile / G) (hGroups wt - t * (tile / G)))).foldl (fun acc g =>
      let s := (rangeFrom (g * G) (min G (wt.dim0 - g * G))).foldl (fun s k =>
        s + actVal act (row.getD k act.absent) * hWeight c wt k n) (0 : Int)
      groupStep acc s (hWScale c wt g n) (sa.getD g 0)) acc
    if wt.outliers then
      let base := hWMap wt + 16 * hTiles c wt
      let js := (List.range 8).filter (fun j => (hChannel c (hWMap wt) tile t j).isSome)
      buttressStep acc (js.map (fun j => (actVal .i8 (outl.getD (8 * t + j) 0),
          codeInt 8 (hData8 c (base + (8 * t + j) * wt.dim1 + n)), exps.getD (8 * t + j) 0)))
        (hData8 c (base + 8 * hTiles c wt * wt.dim1 + t * wt.dim1 + n))
    else acc) (acc0, {})

/-- One result of the quartered layout. -/
def hQuart (c : HCtx) (wt : TensorDesc) (act : Elem) (row sa : List Nat) (n : Nat) (acc0 : Word) : Acc :=
  let G := hGroup wt
  (List.range wt.dim0).foldl (fun acc k =>
    quarteredStep acc (actVal act (row.getD k act.absent)) (hWeight c wt k n) (sa.getD (k / G) 0) (hWScale c wt (k / G) n)) (acc0, {})

/-- MATMUL: d := a × b, with the absent flags of the rows (R121). -/
def hMatmul (c : HCtx) (w : DWord) (e : HEnv) : HEnv :=
  let wt := hTensor c (hB w)
  match mapFind (hA w) e.vals with
  | some (.codes rows sa outl exps) =>
    let act := hElem (hTensor c (hA w))
    let old := if bit 0 (hMod w) then hRows c e (hD w) else []
    let res := (List.range c.rows).map (fun r => (List.range wt.dim1).map (fun n =>
      let acc0 := (hRow old r).getD n 0
      if c.code.layout = 0 then hWhole c wt act (rows.getD r []) sa (outl.getD r []) exps n acc0
      else hQuart c wt act (rows.getD r []) sa n acc0))
    let fl := res.foldl (fun f r => r.foldl (fun f x => f.or x.2) f) e.flags
    let ab := (List.range c.rows).map (fun r => e.absent.getD r false
      || (List.range wt.dim0).any (fun k => (rows.getD r []).getD k 0 == act.absent)
      || (wt.outliers && (outl.getD r []).any (· == 0x80)))
    hPut (hD w) (.fp (res.map (fun r => r.map (·.1)))) { e with absent := ab, flags := fl }
  | _ => e

/-! ### BIAS, EW, LUT, reductions -/

/-- Two rows combined lane by lane. -/
def hZip (f : Word → Word → Word × NumFlags) (x y : List Word) : List (Word × NumFlags) :=
  (List.range x.length).map (fun i => f (x.getD i 0) (y.getD i 0))

/-- A destination written with the results of its rows and the conditions they raise. -/
def hPutRows (i : Nat) (rows : List (List (Word × NumFlags))) (e : HEnv) : HEnv :=
  hPut i (.fp (rows.map (fun r => r.map (·.1)))) { e with flags := rows.foldl (fun f r => r.foldl (fun f x => f.or x.2) f) e.flags }

/-- bias_eff of an input layer (R131): the correction of every group in ascending order, then the bias. -/
def hBiasEff (c : HCtx) (b : List Word) : List Word :=
  match c.code.words.find? (fun w => hOp w == 0x20 && hA w == c.recTensor) with
  | none => b
  | some w =>
    let wt := hTensor c (hB w)
    (List.range wt.dim1).map (fun n =>
      let cor := (List.range (hGroups wt)).foldl (fun (acc : Word) g =>
        (faddExact acc (dyMul (dyMul (val32 (c.offsets.getD g 0)) (s8Val (hWScale c wt g n))) (dyInt (hColSum c wt g n)))).1) 0
      (fadd (b.getD n 0) cor).1)

/-- BIAS (R141). -/
def hBias (c : HCtx) (w : DWord) (e : HEnv) : HEnv :=
  let b := (hRows c e (hA w)).getD 0 []
  let b := if bit 0 (hMod w) then hBiasEff c b else b
  hPutRows (hD w) ((hRows c e (hD w)).map (fun r => hZip fadd r b)) e

/-- EW (R274). -/
def hEw (c : HCtx) (w : DWord) (e : HEnv) : HEnv :=
  let a := hRows c e (hA w)
  let b := hRows c e (hB w)
  let f : Word → Word → Word × NumFlags := match hMod w with
    | 0 => fadd
    | 1 => fsub
    | 2 => fmul
    | 3 => fpick false
    | 4 => fpick true
    | 5 => fun x _ => (x &&& 0x7FFFFFFF#32, {})
    | 6 => fun x _ => (x ^^^ 0x80000000#32, {})
    | _ => fun x _ => (x, {})
  hPutRows (hD w) ((List.range (hCount c (hD w))).map (fun r => hZip f (hRow a r) (hRow b r))) e

/-- The lookup table of a TABLE tensor: 63 breakpoints, 64 slopes, 64 intercepts (R224, log 24). -/
def hTable (c : HCtx) (i : Nat) : List Word := (List.range 191).map (fun k => hData32 c ((hTensor c i).dataOff + 4 * k))

/-- LUT (R224). -/
def hLut (c : HCtx) (w : DWord) (e : HEnv) : HEnv :=
  let t := hTable c (hB w)
  hPutRows (hD w) ((hRows c e (hA w)).map (fun r => r.map (lutLane t))) e

/-- RSUM and RMAX over the channels of each row (R261, R274). -/
def hReduce (mx : Bool) (c : HCtx) (w : DWord) (e : HEnv) : HEnv :=
  hPutRows (hD w) ((hRows c e (hA w)).map (fun r =>
    match mx, r with
    | true, x :: t => [t.foldl (fun (a : Acc) y => let z := fpick true a.1 y; (z.1, a.2.or z.2)) (fpick true x x)]
    | _, r => [r.foldl (fun (a : Acc) y => let z := fadd a.1 y; (z.1, a.2.or z.2)) (0, {})])) e

/-! ### QUANT and DEQUANT (R147, R151, R152, R155, R164) -/

/-- The multiplier of a channel. -/
def hMult (c : HCtx) (t : TensorDesc) (n : Nat) : Option Word := if t.multEn then some (hData32 c (t.auxOff + 4 * n)) else none

/-- The exponents of an ACT tensor's outlier channels over the rows (R151), tile by tile. -/
def hExps (c : HCtx) (t : TensorDesc) (chans : List (Option Nat)) (rows : List (List Word)) : List Int :=
  (List.range (chans.length / 8)).flatMap (fun k =>
    let used := (List.range 8).filter (fun j => ((chans.getD (8 * k + j) none)).isSome)
    let found := outlierExps (used.map (fun j =>
      let ch := (chans.getD (8 * k + j) none).getD 0
      rows.foldl (fun m r => dyMax m (magnitude (quantU (r.getD ch 0) (hMult c t ch)).1)) ⟨0, 0⟩))
    (List.range 8).map (fun j => match used.findIdx? (· == j) with
      | some i => found.getD i 0
      | none => 0))

/-- One element's contribution to a statistics set (R155). -/
def hStat (set : Nat) (nb : Nat) (scale : Dyadic2) (q : QCode) : StatElem :=
  let u := val32 q.u
  let err := rna64 (dyAdd u (dyNeg (dyMul (dyInt (codeInt nb q.code)) scale)))
  let x := rna64 u
  let out := q.nonfinite || q.absent
  { slot := set, x2 := dmul x x, e2 := dmul err err, counted := !out, clamped := q.clamped && !out, nonfinite := out }

/-- Whether group g of a tensor falls in a statistics set. -/
def hInSet (d : StatDesc) (outlier : Bool) (i g : Nat) : Bool :=
  d.tensor == i && d.outlier == outlier && decide (d.gFirst ≤ g) && decide (g ≤ d.gLast)

/-- QUANT: codes, buttress codes and exponents, statistics and captured values. -/
def hQuant (c : HCtx) (w : DWord) (e : HEnv) : HEnv :=
  let i := hD w
  let t := hTensor c i
  let G := hGroup t
  let sa := hActScales c i
  let chans := hOutliers c i
  let rows := hRows c e (hA w)
  let exps := hExps c t chans rows
  let isOut := fun n => chans.any (· == some n)
  let main := rows.map (fun r => (List.range t.dim1).map (fun n =>
    let q := quantLane (hElem t) t.nanMode (sa.getD (n / G) 0) (r.getD n 0) (hMult c t n)
    if isOut n then { q with code := 0, clamped := false } else q))
  let outl := rows.map (fun r => (List.range chans.length).map (fun j =>
    match chans.getD j none with
    | some ch => quantOutlier t.nanMode (exps.getD j 0) (r.getD ch 0) (hMult c t ch)
    | none => { code := 0, u := 0 }))
  let sets := c.stats.zipIdx
  let stats := (List.range rows.length).flatMap (fun r => sets.flatMap (fun d =>
    if d.1.outlier then
      ((List.range chans.length).filter (fun j => match chans.getD j none with
          | some ch => hInSet d.1 true i (ch / G)
          | none => false)).map
        (fun j => hStat d.2 8 ⟨1, exps.getD j 0⟩ ((outl.getD r []).getD j { code := 0, u := 0 }))
    else
      ((List.range t.dim1).filter (fun n => !isOut n && hInSet d.1 false i (n / G))).map
        (fun n => hStat d.2 (hElem t).bits (s8Val (sa.getD (n / G) 0)) ((main.getD r []).getD n { code := 0, u := 0 }))))
  let captured := sets.foldl (fun m d =>
    if d.1.temper && d.1.tensor == i then
      mapSet d.2 (main.map (fun r => ((List.range t.dim1).filter (fun n => !isOut n && hInSet d.1 false i (n / G))).map
        (fun n => (r.getD n { code := 0, u := 0 }).u))) m
    else m) e.captured
  let fl := main.foldl (fun f r => r.foldl (fun (f : NumFlags) q => f.or q.flags) f) e.flags
  hPut i (.codes (main.map (fun r => r.map (·.code))) sa (outl.map (fun r => r.map (·.code))) exps)
    { e with stats := e.stats ++ stats, captured, flags := fl }

/-- DEQUANT: code times scale, exact; outlier lanes their buttress code times 2^x. -/
def hDequant (c : HCtx) (w : DWord) (e : HEnv) : HEnv :=
  let t := hTensor c (hA w)
  match mapFind (hA w) e.vals with
  | some (.codes rows sa outl exps) =>
    let chans := hOutliers c (hA w)
    let f := hElem t
    hPut (hD w) (.fp (rows.zipIdx.map (fun r => (List.range t.dim1).map (fun n =>
      match chans.findIdx? (· == some n) with
      | some j => (rna32 (dyMul (dyInt (actVal .i8 ((outl.getD r.2 []).getD j 0))) ⟨1, exps.getD j 0⟩)).1
      | none => (rna32 (dyMul (dyInt (actVal f (r.1.getD n f.absent))) (s8Val (sa.getD (n / hGroup t) 0)))).1)))) e
  | _ => e

/-! ### Gathers, stores, verdicts and advisories -/

/-- The value of FGATHER for one row (R558): rows without a slice give 0. -/
def hGather (fp : Bool) (n : Nat) (x : Option FlowEntry) : Word :=
  match x.bind (fun s => flowField s n) with
  | none => 0
  | some (v, wrap, _) =>
    if fp then (rna32 (dyInt v)).1
    else if wrap then BitVec.ofNat 32 v else BitVec.ofNat 32 (min v (2 ^ 31 - 1))

/-- The 16 bytes of an FSTORE row: lane l at bytes 4l to 4l + 3. -/
def hStoreRow (r : List Word) : BitVec 128 :=
  BitVec.ofNat 128 (leNat ((List.range 4).flatMap (fun l => leBytes 4 (r.getD l 0).toNat)))

/-- The scalar operations of SOP. -/
def hSop (m : Nat) (a b : Word) : Word :=
  match m with
  | 0 => a + b
  | 1 => a - b
  | 2 => a * b
  | 3 => a &&& b
  | 4 => a ||| b
  | 5 => a ^^^ b
  | 6 => a <<< (b.toNat % 32)
  | 7 => a >>> (b.toNat % 32)
  | 8 => a.sshiftRight (b.toNat % 32)
  | 9 => if a.toInt < b.toInt then 1 else 0
  | _ => if a.toNat < b.toNat then 1 else 0

/-- The value of a named parameter (R280): the operator's, else the table's default. -/
def hParam (c : HCtx) (n : Nat) : DWord :=
  match mapFind n c.params with
  | some v => v
  | none => ((c.code.params.find? (fun p => p.number == n)).map (fun p => p.default.setWidth 64)).getD 0

/-- One word (Table 4). -/
def hWord (c : HCtx) (w : DWord) (e : HEnv) : HEnv :=
  match hOp w with
  | 0x10 => hPut (hD w) (.scal (hSop (hMod w) (hScal e (hA w)) (hScal e (hB w)))) e
  | 0x11 =>
    let imm := BitVec.ofNat 12 (hImm w)
    hPut (hD w) (.scal (if bit 0 (hMod w) then (hScal e (hD w) <<< 12) ||| imm.setWidth 32 else imm.signExtend 32)) e
  | 0x12 => hPut (hD w) (.scal (halfOf (hParam c (hImm w % 8)) (bit 0 (hMod w)))) e
  | 0x20 => hMatmul c w e
  | 0x21 => hBias c w e
  | 0x22 => hEw c w e
  | 0x23 => hLut c w e
  | 0x24 => hQuant c w e
  | 0x25 => hDequant c w e
  | 0x26 => hReduce false c w e
  | 0x27 => hReduce true c w e
  | 0x30 => hPut (hD w) (.fp ((List.range c.rows).map (fun r =>
      [hGather ((hTensor c (hD w)).format != 4) (hImm w) (c.snaps.getD r none)]))) e
  | 0x31 => { e with fstore := some ((hRows c e (hA w)).map hStoreRow) }
  | 0x38 => { e with emit := some ((hRows c e (hA w)).map (fun r => (topClass r, scoreQ (r.getD (topClass r) 0)))) }
  | 0x39 =>
    let a := (hRows c e (hA w)).map (fun r => r.getD 0 0)
    if hImm w = 1 then { e with surprise := some (a, (hRows c e (hB w)).map (fun r => r.getD 0 0)) }
    else { e with predict := some a }
  | 0x3A => hPut (hD w) (.codes c.ctxs (hActScales c (hD w)) [] []) e
  | 0x3B =>
    match mapFind (hA w) e.vals with
    | some (.codes rows _ _ _) => { e with newCtx := some rows }
    | _ => e
  | _ => e

/-- A function applied a number of times. -/
def iterN {α : Type} : Nat → (α → α) → α → α
  | 0, _, x => x
  | n + 1, f, x => iterN n f (f x)

/-- A program run from a state of its tensors. -/
def hRun (c : HCtx) : HProg → HEnv → HEnv
  | .nil, e => e
  | .word w rest, e => hRun c rest (hWord c w e)
  | .loop w body rest, e =>
    let n := if bit 0 (hMod w) then (hScal e (hA w)).toNat else hImm w
    hRun c rest (iterN n (hRun c body) e)
  | .ite w yes no rest, e => hRun c rest (if hScal e (hA w) ≠ 0 then hRun c yes e else hRun c no e)

/-! ### Stages -/

/-- The words of a stage. -/
def stageWords (c : HykaiCode) (d : StageDesc) : List DWord := (c.words.drop d.first).take d.count

/-- The stages of a kind in ascending order. -/
def stagesOf (c : HykaiCode) (kind : Nat) : List StageDesc :=
  (List.range 8).filterMap (fun o => c.stages.find? (fun d => d.kind == kind && d.order == o))

/-- The RECORD tensor that a stage's words name. -/
def recordTensor (c : HykaiCode) (d : StageDesc) : Nat :=
  let named := (stageWords c d).flatMap (fun w => [hA w, hB w])
  (named.find? (fun i => (c.tensors.getD i { kind := 0, format := 0 }).kind == 3)).getD 0

/-- One stage run on what the stage before it hands over: the carry tensor alone (R273, R278). -/
def hStage (c : HCtx) (d : StageDesc) (e : HEnv) : HEnv :=
  let out := hRun c (hParse (stageWords c.code d)) e
  { out with vals := match mapFind d.carry out.vals with
      | some v => [(d.carry, v)]
      | none => [] }

/-- The stages of a kind, from an order upwards, on the rows of a pallet. -/
def hStages (c : HCtx) (kind from_ : Nat) (e : HEnv) : HEnv :=
  ((stagesOf c.code kind).filter (fun d => decide (from_ ≤ d.order))).foldl (fun e d => hStage c d e) e

/-- A program run on records: the codes of each row under the record's group scales. -/
def hProgram (c : HCtx) (kind : Nat) (recs : List (List Nat)) (scales : List Nat) : HEnv :=
  let first := (stagesOf c.code kind).head?
  let rt := ((first.map (recordTensor c.code))).getD 0
  hStages { c with rows := recs.length, recTensor := rt } kind 0
    { vals := [(rt, .codes recs scales [] [])], absent := recs.map (fun _ => false) }

/-! ### Records (R129, R130) -/

/-- The record map of a RECORD tensor: the entries of its positions. -/
def recordMap (c : HykaiCode) (data : List Byte) (i : Nat) : List Nat :=
  let t := c.tensors.getD i { kind := 0, format := 0 }
  (List.range t.dim1).map (fun k => leNat ((data.drop (t.auxOff + 2 * k)).take 2))

/-- The group scales of a record. -/
def recordScales (c : HykaiCode) (data : List Byte) (i : Nat) : List Nat :=
  let t := c.tensors.getD i { kind := 0, format := 0 }
  (List.range (ceilDiv t.dim1 (hGroup t))).map (fun g => (data.getD (t.auxOff + 2 * t.dim1 + g) 0).toNat)

/-- The image's offsets of a record. -/
def recordOffsets (c : HykaiCode) (data : List Byte) (i : Nat) : List Word :=
  let t := c.tensors.getD i { kind := 0, format := 0 }
  let n := ceilDiv t.dim1 (hGroup t)
  (List.range n).map (fun g => BitVec.ofNat 32 (leNat ((data.drop (t.auxOff + 2 * t.dim1 + n + 4 * g)).take 4)))

/-- The code of one record position and whether it was clamped (R130). -/
def recordCode (signed : Nat → Bool) (feats : List Feat) (entry : Nat) (s : Nat) (o : Word) : Nat × Bool :=
  if !bit 15 entry then (0, false)
  else
    let f := bits 8 0 entry
    let x := feats.getD f {}
    if x.missing then (Elem.absent .i4, false)
    else
      let q := rnaQuot (dyAdd (dyInt (featInt (signed f) x)) (dyNeg (val32 o))) (s8Val s)
      let v := clampInt (-7) 7 q
      (elemCode .i4 v, decide (v ≠ q))

/-- The record of a slice: its codes and how many were clamped. -/
def formRecord (c : HykaiCode) (data : List Byte) (signed : Nat → Bool) (feats : List Feat) (offsets : List Word) : List Nat × Nat :=
  match (stagesOf c 0).head? with
  | none => ([], 0)
  | some d =>
    let i := recordTensor c d
    let G := hGroup (c.tensors.getD i { kind := 0, format := 0 })
    let scales := recordScales c data i
    let codes := (recordMap c data i).zipIdx.map (fun e =>
      recordCode signed feats e.1 (scales.getD (e.2 / G) 0) (offsets.getD (e.2 / G) 0))
    (codes.map (·.1), (codes.filter (·.2)).length)

end Sys2Proof.Machine
end

