-- ==== Sys2Proof/Machine/Tier1.lean ====
section
/-!
DEFINITION. A slice at its P-die: parsing, flow lookup, features, trees, verdict map, enrolment, tokens, escalation and the admission to the
slow path (chapters 1, 2, 4 and 12).
-/

namespace Sys2Proof.Machine

open Sys2Proof

/-! ### What the flow table reads of the device (R79, R80, R89) -/

/-- The partition parameters of the flow table: those in force. -/
def flowCtx (s : State) : FlowCtx :=
  { params := fun p =>
      let x := partAt s p.val
      { idleS := min 3600 (bits 31 20 x.flow.toNat), warm := s.st.running.flowGeom.warmEn && bit 19 x.flow.toNat,
        random := bit 18 x.flow.toNat, gen := x.gen, quota := x.flowQuota.toNat % 2 ^ 24 },
    geom := s.st.geomEpoch, ts := timeStampOf s.time.wall, wall := s.time.wall }

/-- The flow-geometry epoch under which a slice was stamped: one less than the current where a flip has come since (R90). -/
def geomOf (s : State) (structEpoch : Word) : BitVec 16 :=
  let flipping := (s.st.pause.map (fun (p : PauseSt) => p.flow && p.flipped)).getD false
  if flipping || (structEpoch != s.st.epoch && s.st.epoch == s.st.flipEpoch) then s.st.geomEpoch - 1 else s.st.geomEpoch

/-! ### Bricks, groups and targets (R28, R356 to R358) -/

/-- Whether a brick by identifier is in service. -/
def brickServes (s : State) (id : Nat) : Bool :=
  match physBrick s id with
  | some b =>
    let x := brickAt s b
    clocked x || x.c.phase == .frozen
  | none => false

/-- Whether a placement group is in service: every brick of it. -/
def groupServes (s : State) (g : Group) : Bool := !g.bricks.isEmpty && g.bricks.all (brickServes s)

/-- The placement of a partition under a section. -/
def bondOf (x : StructSections) (p : Nat) : Option PartBond := x.bond.parts.find? (fun b => b.part.val == p)

/-- The groups in service of a position. -/
def groupsAt (s : State) (p o : Nat) : List Group :=
  match bondOf s.st.running p with
  | some b => (b.pallet.getD o []).filter (groupServes s)
  | none => []

/-- The stages of a partition's epoch that lie on this device: all of them, or those that its SPAN section does not give to a peer
(R369). -/
def localStage (s : State) (e : ModelEpoch) (o : Nat) : Bool :=
  match e.vd.span with
  | some peers =>
    let own := ((s.st.running.wall.map (fun (w : WallSec) => w.ownId)).getD 0).val
    match peers.find? (fun q => q.1 == o) with
    | some q => q.2 == own
    | none => true
  | none => true

/-- Whether the tier-2 target of an epoch is available (R28, R451). -/
def targetServes (s : State) (p : Nat) (e : ModelEpoch) : Bool :=
  let f := (partAt s p).fault
  match e.vd.t2 with
  | none => false
  | some c => !f.targetLost && !f.targetUnavail && !e.gapMissing
      && (stagesOf c 0).all (fun d => !localStage s e d.order || !(groupsAt s p d.order).isEmpty)

/-- Whether the sequence pool of a partition is available (R334): a group of its own, or where it names none a brick of the device's
pool. -/
def seqServes (s : State) (p : Nat) (e : ModelEpoch) : Bool :=
  let own := ((bondOf s.st.running p).map (·.seqGroups)).getD []
  !(partAt s p).fault.targetLost && !e.gapMissing && e.vd.seqCode.isSome && hasStreamer s &&
    (if own.isEmpty then s.st.running.bond.seqPool.any (brickServes s) else own.any (groupServes s))

/-- Whether the slow-path pool is available (R53). -/
def slowServes (s : State) : Bool := s.st.running.slowpath.isSome && !s.st.slowRefused && s.st.running.bond.slowPool.any (brickServes s)

/-! ### The slow path (R51 to R53) -/

/-- A slice that the parser sends to the slow path: admitted to a brick of the pool that is in service, or answered with source 5 (R52, R53). Which
brick takes it is free (log 23). -/
def admitSlow (p : Nat) (st : Stamped) (r : Fin 5) (s : State) : State :=
  let s := cntPdie p r.val 1 s
  let x := pdieAt s p
  let t := takeToken 250 4096 (nowNs s) x.slowBucket
  if slowServes s && t.2 then
    let pool := s.st.running.bond.slowPool.filter (brickServes s)
    let f := takeFree s
    let b := (physBrick s (pool.getD (f.1.toNat % pool.length) 0)).getD 0
    putPdie p { x with slowBucket := t.1, slow := x.slow ++ [{ st, reason := r, brick := b }] } f.2
  else
    let s := if slowServes s then putPdie p { x with slowBucket := t.1 } s else s
    finalVerdict st (defaultAnswer s st) (cntPdie p 6 1 s)

/-! ### Tokens (R319 to R323) -/

/-- The size bucket (R320). -/
def sizeBucket (w : Nat) : Nat := if w < 1536 then w / 32 else min 63 (48 + (w - 1536) / 512)

/-- The gap bucket (R321). -/
def gapBucket (g : Nat) : Nat :=
  if g = 0 then 0
  else
    let e := Nat.log2 g
    min 63 (1 + 2 * e + (if e = 0 then 0 else b2n (bit (e - 1) g)))

/-- The flag class (R322). -/
def flagClass (f : Option Byte) : Nat :=
  match f with
  | none => 0
  | some b =>
    if b.getLsbD 2 then 4
    else if b.getLsbD 1 && b.getLsbD 4 then 2
    else if b.getLsbD 1 then 1
    else if b.getLsbD 0 then 3
    else if b.getLsbD 3 then 5
    else if b.getLsbD 4 then 6
    else 7

/-- The direction (R322). -/
def dirBit (ctl : Word) (feats : List Feat) : Nat :=
  let f := feats.getD (bits 28 20 ctl.toNat) {}
  if bit 29 ctl.toNat && !f.missing && f.v != 0 then 1 else 0

/-- A token (Table 1 of the sequence chapter). -/
def tokenOf (w g dir flag : Nat) : BitVec 16 := BitVec.ofNat 16 (sizeBucket w * 1024 + gapBucket g * 16 + dir * 8 + flag)

/-! ### Enrolment (R23, R326) -/

/-- The contexts that a partition holds (R346). -/
def ctxHeld (s : State) (p : Nat) : Nat :=
  (s.sdies.map (fun x => (x.2.ctxs.filter (fun c => c.2.part.val == p)).length)).sum

/-- The hot contexts of an index's set (R324). -/
def hotInSet (x : SDie) (i : Nat) : Nat := (x.ctxs.filter (fun c => c.1 % 32768 == i % 32768 && c.2.hot)).length

/-- Whether a local DRAM address lies in a retired channel (R467, log 29). -/
def inHole (x : SDie) (a : Nat) : Bool := x.retiredCh.any (fun c => c == (Config.channelOf a).val)

/-- Whether a context's cold slot of 288 bytes lies in the hole of a retired channel (R301, R467). -/
def ctxInHole (x : SDie) (k : Nat) : Bool := !x.retiredCh.isEmpty && (List.range 288).any (fun j => inHole x (0x200000000 + 288 * k + j))

/-- A free context index of an S-die, from a start upwards, wrapping, outside the holes of retired channels: tried are as many indices as
contexts are held and one more, or all while a channel is retired. -/
def freeCtx (x : SDie) (start : Nat) : Option Nat :=
  if 16777216 ≤ x.ctxs.length then none
  else
    let n := if x.retiredCh.isEmpty then x.ctxs.length + 1 else 16777216
    ((List.range n).map (fun i => (start + i) % 16777216)).find? (fun i => (mapFind i x.ctxs).isNone && !ctxInHole x i)

/-- The identifier an enrolment takes: from the S-die that the digest names, or the next that has one. Which identifier of the pool is
free (log 3). -/
def takeCtx (digest : BitVec 111) (start : Nat) (s : State) : Option (BitVec 26) :=
  (List.range 4).findSome? (fun i =>
    let d := (digest.toNat + i) % 4
    let x := sdieAt s d
    if x.lost then none else (freeCtx x start).map (fun k => BitVec.ofNat 26 (k * 4 + d)))

/-- Enrol a flow: the context is allocated and set up, and the flow entry names it; or the enrolment is refused and counted. -/
def enrol (p : Nat) (st : Stamped) (r : FlowRef) (s : State) : State :=
  let part := dPart st.s.desc
  let x := partAt s part.val
  if !r.tracked || !hasStreamer s then s
  else
    let (f, s) := takeFree s
    match (if bit 31 x.seqCtl.toNat && decide (ctxHeld s part.val < x.seqQuota) then takeCtx r.digest (f.toNat % 16777216) s else none) with
    | none => cntPdie p 114 1 s
    | some id =>
      let ctx : SeqContext :=
        { part, gen := x.gen, owner := r.digest.setWidth 32, digest := r.digest, flow := r, pdie := Fin.ofNat 4 p,
          lastTs := timeStampOf s.time.wall, valid := true, lastUseNs := nowNs s,
          hot := decide (hotInSet (sdieAt s (id.toNat % 4)) (id.toNat / 4) < 16) }
      let s := modSdie (id.toNat % 4) (fun d => { d with ctxs := mapSet (id.toNat / 4) ctx d.ctxs }) s
      modPdie p (commitEntry (flowCtx s) r (fun e => { e with seqMode := true, seqCtx := some id })) s

/-! ### Retention and pallets (R25, R26, R115) -/

/-- The lowest free retention slot. -/
def freeSlot (x : PDie) : Option Nat :=
  if 65536 ≤ x.slots.length then none
  else (List.range (x.slots.length + 1)).find? (fun i => (mapFind i x.slots).isNone)

/-- What a retained slice's answer carries when no higher tier gives it: the fallback action with the tier-1 class and score (R33). -/
def slotAnswer (src : Nat) (x : RetSlot) : Answer :=
  { source := src, action := x.fbAction, cls := x.top.setWidth 8, score := x.score,
    lateAction := x.fbAction, lateCls := x.top.setWidth 8, lateScore := x.score }

/-- A slot's row treated as grout wherever it stands. -/
def groutRow (k : Nat) (p : Pallet) : Pallet :=
  { p with rows := p.rows.map (fun r => if r.slot = some k then { r with slot := none } else r) }

/-- A retained slice answered: its slot is freed and its row becomes grout (R27). -/
def answerSlot (p k : Nat) (a : RetSlot → Answer) (s : State) : State :=
  let x := pdieAt s p
  match mapFind k x.slots with
  | none => s
  | some r =>
    let s := putPdie p { x with slots := mapDel k x.slots, open_ := x.open_.map (groutRow k), inflight := mapAll (groutRow k) x.inflight } s
    finalVerdict r.st (a r) s

/-- A pallet leaves the former under the next sequence number, with the offsets and parameters in force (R26, R232). The fill-timeout loop
then chooses its next output from the recent escalation rate (free, R390). -/
def closePallet (p : Nat) (pal : Pallet) (s : State) : State :=
  let f := takeFree s
  let s := loopOutput 4 pal.part.val f.1.toNat f.2
  let x := pdieAt s p
  let m := epochAt s pal.part.val pal.epoch
  let n := x.nextSeq
  let pal := { pal with seqNo := n, params := (m.map (·.params)).getD [], offsets := (m.map (·.offsets)).getD [] }
  let slots := (pal.rows.zipIdx).foldl (fun m r => match r.1.slot with
    | some k => (match mapFind k m with
      | some z => mapSet k { z with pallet := n, row := r.2 } m
      | none => m)
    | none => m) x.slots
  let same := fun (q : Pallet) => q.part == pal.part && q.target == pal.target && q.epoch == pal.epoch && q.structEpoch == pal.structEpoch
  putPdie p
    { x with
      open_ := x.open_.filter (fun q => !same q), inflight := mapSet n pal x.inflight, nextSeq := (n + 1) % 2 ^ 32, slots } s

/-- A record joins its open pallet, or opens one; a pallet of 128 rows leaves (R26). -/
def joinPallet (p : Nat) (st : Stamped) (row : PalletRow) (s : State) : State :=
  let x := pdieAt s p
  let part := dPart st.s.desc
  let here := fun (q : Pallet) => q.part == part && q.target == 0 && q.epoch == st.modelEpoch && q.structEpoch == st.structEpoch
  let pal := match x.open_.find? here with
    | some q => { q with rows := q.rows ++ [row] }
    | none =>
      { part, target := 0, epoch := st.modelEpoch, structEpoch := st.structEpoch, offVersion := ((epochAt s part.val st.modelEpoch).map (·.offVersion)).getD 0,
        rows := [row], firstNs := nowNs s }
  let s := putPdie p { x with open_ := x.open_.filter (fun q => !here q) ++ [pal] } s
  if 128 ≤ pal.rows.length then closePallet p pal s else s

/-- The escalation bucket of a partition: one token, or none (R115). -/
def escToken (p : Nat) (part : Part) (limit : Nat) (s : State) : State × Bool :=
  if limit = 0 then (s, true)
  else
    let x := pdieAt s p
    let rate := ((activeEpoch s part.val).map (fun e => e.vd.ensemble.escLimit)).getD 0
    let t := takeToken rate 1024 (nowNs s) (mapGet { level := 1024000, atNs := 0 } x.escBuckets part.val)
    (putPdie p { x with escBuckets := mapSet part.val t.1 x.escBuckets } s, t.2)

/-- What tier 1 has found for a slice. -/
structure MapIn where
  p : Nat
  st : Stamped
  ep : ModelEpoch
  ref : FlowRef
  snap : FlowEntry
  feats : List Feat
  signed : List Bool
  top : Nat
  q : BitVec 16
  rule : Nat

/-- The tier-1 answer of a slice with an action. -/
def MapIn.answer (m : MapIn) (src : Nat) (act late : BitVec 4) : Answer :=
  { source := src, action := act, cls := BitVec.ofNat 8 m.top, score := m.q,
    lateAction := late, lateCls := BitVec.ofNat 8 m.top, lateScore := m.q }

/-- The retention slot of an escalated or SEQUENCE slice. -/
def MapIn.slot (m : MapIn) (prov seq : Bool) : RetSlot :=
  { st := m.st, flow := m.ref, top := BitVec.ofNat 4 m.top, score := m.q, provAction := rAction m.rule, fbAction := rFallback m.rule,
    provDone := prov, seq }

/-- A slice whose record joins a pallet. -/
def retainPallet (m : MapIn) (prov : Bool) (s : State) : State :=
  let x := pdieAt s m.p
  match freeSlot x, m.ep.vd.t2 with
  | some k, some c =>
    let recTensor := ((stagesOf c 0).head?.map (recordTensor c)).getD 0
    let offs := if m.ep.offsets.isEmpty then recordOffsets c m.ep.vd.data recTensor else m.ep.offsets
    let r := formRecord c m.ep.vd.data (fun i => m.signed.getD i false) m.feats offs
    let s := putPdie m.p { x with slots := mapSet k (m.slot prov false) x.slots } s
    joinPallet m.p m.st { slot := some k, record := r.1, snap := m.snap } (cntPdie m.p 9 r.2 s)
  | _, _ => finalVerdict m.st (m.answer 4 (rFallback m.rule) (rFallback m.rule)) s

/-- The verdict of a slice by the outcome of its rule (R22 to R29, R115, R334). `tok` is the token of a flow in sequence mode; what the
function gives beside the state is the retention slot of its verdict request. -/
def outcome (m : MapIn) (tok : Bool) (s : State) : State × Option Nat :=
  let p := m.p
  let part := (dPart m.st.s.desc).val
  let fb := rFallback m.rule
  let prov := provisionalEn s m.st.structEpoch part
  let first := fun (s : State) => if prov then provisionalVerdict m.st (m.answer 0 (rAction m.rule) fb) s else s
  match rOutcome m.rule with
  | 1 =>
    let s := first (cntPdie p 203 1 s)
    let t := escToken p (dPart m.st.s.desc) m.ep.vd.ensemble.escLimit s
    if !t.2 then (finalVerdict m.st (m.answer 4 fb fb) (cntPdie p 205 1 t.1), none)
    else if !targetServes t.1 part m.ep then (finalVerdict m.st (m.answer 4 fb fb) t.1, none)
    else (retainPallet m prov t.1, none)
  | 2 =>
    let s := cntPdie p 204 1 s
    if !tok then (finalVerdict m.st (m.answer 0 fb fb) s, none)
    else
      let s := first s
      match freeSlot (pdieAt s p) with
      | some k =>
        if seqServes s part m.ep then
          (modPdie p (fun x => { x with slots := mapSet k (m.slot prov true) x.slots }) s, some k)
        else (finalVerdict m.st (m.answer 4 fb fb) s, none)
      | none => (finalVerdict m.st (m.answer 4 fb fb) s, none)
  | _ => (finalVerdict m.st (m.answer 0 (rAction m.rule) (rAction m.rule)) (cntPdie p 202 1 s), none)

/-- The token of a slice sent to its context's home S-die (R323). -/
def sendToken (m : MapIn) (tok : BitVec 16) (ctx : BitVec 26) (req : Option Nat) (s : State) : State :=
  let part := dPart m.st.s.desc
  let t : TokenMsg :=
    { ctx, tok, digest := m.ref.digest, flow := m.ref, pdie := Fin.ofNat 4 m.p, part, gen := m.ref.gen, epoch := m.st.modelEpoch,
      structEpoch := m.st.structEpoch, ts := timeStampOf s.time.wall, snap := m.snap, req }
  modSdie (ctx.toNat % 4) (fun d => { d with tokens := d.tokens ++ [t] }) s

/-- Stages 5 to 7: features, trees and the verdict map (R14, R86, R98 to R116). -/
def treeStage (p : Nat) (ecc : EccOutcome) (st : Stamped) (ep : ModelEpoch) (ps : ParseSec) (buf : ExtBuf) (flags : Option Byte)
    (gap : Nat) (ref : FlowRef) (snap : FlowEntry) (s : State) : State :=
  let part := dPart st.s.desc
  let feats := features ps buf snap st.s.desc
  let signed := ps.features.map (fun w => bit 28 w.toNat)
  match ecc with
  | .failed => finalVerdict st (defaultAnswer s st) (modPdie p (fun x => { x with rewrites := x.rewrites + 1 }) (cntPdie p 210 1 s))
  | _ =>
    let s := match ecc with
      | .corrected => cntPdie p 208 1 s
      | .retried => cntPdie p 209 1 s
      | _ => s
    let t := runTrees ep.vd.ensemble feats (fun i => signed.getD i false)
    let s := cntPdie p 206 t.missing (cntPdie p 207 t.unknown (cntPdie p 200 1 (if t.twoPasses then cntPdie p 201 1 s else s)))
    let rule := ruleOf ep.vd.ensemble.vmap t.top t.q
    let m : MapIn := { p, st, ep, ref, snap, feats, signed, top := t.top, q := t.q, rule }
    let s := modPdie p (commitEntry (flowCtx s) ref (fun e => { e with lastClass := BitVec.ofNat 4 t.top })) s
    let ctx := if ref.tracked && snap.seqMode && hasStreamer s then snap.seqCtx else none
    let s := if rEnrol rule && !snap.seqMode then enrol p st ref s else s
    let r := outcome m ctx.isSome s
    match ctx with
    | some id =>
      let w := dWireLen st.s.desc
      sendToken m (tokenOf w gap (dirBit (partAt s part.val).seqCtl feats) (flagClass flags)) id r.2 r.1
    | none => r.1

/-- Stage 4: flow lookup (R65, R71 to R80, R465). -/
def flowStage (p : Nat) (ecc : EccOutcome) (st : Stamped) (ep : ModelEpoch) (ps : ParseSec) (geo : FlowGeom) (state : Nat) (buf : ExtBuf)
    (s : State) : State :=
  let part := dPart st.s.desc
  let w := dWireLen st.s.desc
  let c := flowCtx s
  let flags := flagsByte ps state buf
  match flowKey ps state buf part with
  | none => treeStage p ecc st ep ps buf flags 0 {} (transient w c.ts flags part) (cntPdie p 107 1 s)
  | some key =>
    let x := pdieAt s p
    let bi := keyBucket geo.kb key
    if (mapFind (bi / 8192) x.badBanks).isSome then
      treeStage p ecc st ep ps buf flags 0 {} (transient w c.ts flags part) (cntPdie p 106 1 s)
    else
      let b := bucketOf x bi
      let gap := match (findEntry c b (keyDigest geo.kd key) part).bind (fun i => mapFind i b.pos) with
        | some e => ageOf c.ts e.timeStamp
        | none => 0
      let r := flowAccess c x key geo.kd geo.kb part w flags (nowNs s)
      let s := putPdie p r.p s
      let s := match r.demote with
        | some e =>
          let home := e.digest.toNat % 4
          modSdie home (fun d => { d with demoting := d.demoting ++ [{ pdie := Fin.ofNat 4 p, entry := e }] }) s
        | none => s
      treeStage p ecc st ep ps buf flags (if r.hit then gap else 0) r.ref r.snap s

/-- SLICE_AT_P_DIE (R14): the oldest stamped slice of a P-die goes through stages 3 to 7. -/
def execSliceAtPDie (p : Die) (ecc : EccOutcome) (s : State) : Out :=
  let x := pdieAt s p.val
  match x.inbox with
  | [] => .next s
  | st :: rest =>
    if x.lost then .next s
    else
      let s := putPdie p.val { x with inbox := rest } s
      let secs := secsOf s st.structEpoch
      match epochAt s (dPart st.s.desc).val st.modelEpoch with
      | none => .next (finalVerdict st (defaultAnswer s st) s)
      | some ep =>
        match parseSlice secs.parse st.s.hdr (dHdrCount st.s.desc) with
        | .slow r => .next (admitSlow p.val st r.num s)
        | .accept state buf cut =>
          let s := if cut then cntPdie p.val 5 1 s else s
          .next (flowStage p.val ecc st ep secs.parse secs.flowGeom state buf s)

/-! ### Deadlines, slow-path verdicts and fragments (R32, R55 to R57) -/

/-- DEADLINE_EXPIRY (R32): a retained slice past its expiry is answered with source 6. -/
def execDeadlineExpiry (p : Die) (slot : Fin 65536) (s : State) : Out :=
  match mapFind slot.val (pdieAt s p.val).slots with
  | some r => .next (if expired s r.st.s.desc then answerSlot p.val slot.val (slotAnswer 6) s else s)
  | none => .next s

/-- The fragment digest F of a fragment key (R56): its S-die, its set and its tag. -/
def fragPlace (s : State) (key : List Byte) : Nat × Nat × BitVec 111 :=
  let f := sip128 s.st.running.flowGeom.kd key
  let tag : BitVec 111 := (f >>> 17).setWidth 111
  (bits 18 17 f.toNat, bits 32 19 f.toNat, if tag = 0 then 1 else tag)

/-- The key of a fragment-table entry: set times 16 plus way. -/
def fragKey (set way : Nat) : Nat := set * 16 + way

/-- The way of a set that holds a tag. -/
def fragFind (x : SDie) (set : Nat) (tag : BitVec 111) : Option Nat :=
  (List.range 16).find? (fun w => ((mapFind (fragKey set w) x.frags).map (fun e => e.tag == tag)).getD false)

/-- A first fragment inserts or refreshes its entry; a full set evicts its least recently used entry (R56). -/
def fragInsert (p : Nat) (key : List Byte) (e : FragEntry) (s : State) : State :=
  let (d, set, tag) := fragPlace s key
  let x := sdieAt s d
  let e := { e with tag }
  let put := fun (w : Nat) (s : State) => modSdie d (fun x => { x with frags := mapSet (fragKey set w) e x.frags }) s
  match fragFind x set tag with
  | some w => put w s
  | none =>
    match (List.range 16).find? (fun w => (mapFind (fragKey set w) x.frags).isNone) with
    | some w => put w s
    | none =>
      let oldest := (List.range 16).foldl (fun best w =>
        let a := fun w => ageOf (timeStampOf s.time.wall) (((mapFind (fragKey set w) x.frags).map (·.lastUse)).getD 0)
        if a best < a w then w else best) 0
      put oldest (cntPdie p 8 1 s)

/-- The update of a slow-path slice's flow entry (R55): the counting update and sp_state, found by digest, partition and generation. -/
def slowCommit (owner : Nat) (r : FlowRef) (w : Nat) (flags : Option Byte) (sp : BitVec 128) (s : State) : State :=
  let c := flowCtx s
  modPdie owner (commitEntry c r (fun e => { countPacket w c.ts flags e with spState := sp })) s

/-- Whether the brick that runs a slow-path slice's program is in service. -/
def slowRuns (s : State) (w : SlowSlice) : Bool := clocked (brickAt s w.brick) || (brickAt s w.brick).c.phase == .frozen

/-- SLOW_PATH_VERDICT (R55): the program's answer for the oldest slice whose brick runs. A non-first fragment without an entry takes the graph's
miss action (R57); a slice answered with source 5 or 7 commits no update. -/
def execSlowPathVerdict (p : Die) (answer : SlowAnswer) (s : State) : Out :=
  let x := pdieAt s p.val
  match x.slow.find? (slowRuns s) with
  | none => .next s
  | some sl =>
      let s := putPdie p.val { x with slow := x.slow.erase sl } s
      let st := sl.st
      let part := dPart st.s.desc
      let secs := secsOf s st.structEpoch
      let gen := (partAt s part.val).gen
      let ref := fun (key : List Byte) =>
        let k := beBytes 2 part.val ++ key
        ({ tracked := true, digest := keyDigest secs.flowGeom.kd k, bucket := keyBucket secs.flowGeom.kb k, part, gen, geom := geomOf s st.structEpoch } : FlowRef)
      let flagsEn := secs.parse.templates.any (fun t => bit 6 t.toNat)
      let flags := if flagsEn then some answer.flags else none
      let ts := timeStampOf s.time.wall
      let found := answer.frag.bind (fun f =>
        let (d, set, tag) := fragPlace s f.key
        (fragFind (sdieAt s d) set tag).bind (fun w => (mapFind (fragKey set w) (sdieAt s d).frags).bind (fun e =>
          if (pdieAt s e.owner.val).lost then none else some (d, fragKey set w, e))))
      let miss := match answer.frag with
        | some f => !f.first && found.isNone
        | none => false
      let act := if miss then secs.parse.fragMissAction else answer.action
      let a : Answer :=
        { source := 3, action := act, cls := answer.cls, score := answer.score, lateAction := act, lateCls := answer.cls,
          lateScore := answer.score }
      let src := (settle s st a).source
      let w := dWireLen st.s.desc
      let s := if src = 5 ∨ src = 7 then s
        else match answer.frag with
          | some f =>
            if f.first then
              let r := ref answer.key
              let s := fragInsert p.val f.key { tag := 1, digest := r.digest, bucket := r.bucket, gen, owner := p, lastUse := ts } s
              if answer.key.isEmpty then s else slowCommit p.val r w flags answer.spState s
            else match found with
              | some (d, k, e) =>
                let s := modSdie d (fun x => { x with frags := mapSet k { e with lastUse := ts } x.frags }) s
                slowCommit e.owner.val { tracked := true, digest := e.digest, bucket := e.bucket, part, gen := e.gen, geom := geomOf s st.structEpoch } w flags
                  answer.spState s
              | none => s
          | none => if answer.key.isEmpty then s else slowCommit p.val (ref answer.key) w flags answer.spState s
      let s := if miss then cntPdie p.val 7 1 s else s
      .next (finalVerdict st a s)

/-- FRAG_ENTRY_EXPIRE (R57): an entry unused for frag_timeout is dropped. -/
def execFragEntryExpire (sdie : Die) (set : Fin 16384) (way : Fin 16) (s : State) : Out :=
  let x := sdieAt s sdie.val
  let k := fragKey set.val way.val
  match mapFind k x.frags with
  | some e =>
    if s.st.running.parse.fragTimeoutNs ≤ ageOf (timeStampOf s.time.wall) e.lastUse * 1024 then
      .next (putSdie sdie.val { x with frags := mapDel k x.frags } s)
    else .next s
  | none => .next s

/-- TREE_WORD_REWRITE (R116): the warden has rewritten a word that failed both reads. -/
def execTreeWordRewrite (p : Die) (s : State) : Out := .next (modPdie p.val (fun x => { x with rewrites := x.rewrites - 1 }) s)

end Sys2Proof.Machine
end

