-- ==== Sys2Proof/Machine/Tier2.lean ====
section
/-!
DEFINITION. Tier 2: the pallets of the P-dies, their dispatch to the bricks, their retirement and their failure (R25 to R29, R230 to R233,
R454, R455).
-/

namespace Sys2Proof.Machine

open Sys2Proof

/-! ### Leases (R471) -/

/-- A lease taken: its kind, the unit that holds it, what it covers, its lifetime. -/
def takeLease (kind : Fin 7) (holder : Nat) (p : Die) (pallet life : Nat) (s : State) : State :=
  let id := s.flt.leases.foldl (fun m l => max m (l.id + 1)) 0
  { s with flt := { s.flt with leases := s.flt.leases ++ [{ id, kind, holder, pdie := p, pallet, until_ := nowNs s + life }] } }

/-- The pallet leases of a pallet given back. -/
def dropPalletLeases (p pallet : Nat) (s : State) : State :=
  { s with flt := { s.flt with leases := s.flt.leases.filter (fun l => !(l.kind == 1 && l.pdie.val == p && l.pallet == pallet)) } }

/-! ### The fill timeout (R26, R390) -/

/-- The fill timeout of a partition in nanoseconds, within its bounds: 1.0 us until the loop chooses another. -/
def fillTimeout (s : State) (p : Nat) : Nat :=
  let b := effectiveBound s 4 p
  clampNat b.1 b.2 (mapGet 1000 s.loops.wish (loopKey 4 p))

/-- PALLET_FILL_TIMEOUT (R26): the oldest open pallet of a partition's target leaves once its fill timeout has run. -/
def execPalletFillTimeout (p : Die) (part : Part) (target : Target) (s : State) : Out :=
  match (pdieAt s p.val).open_.find? (fun q => q.part == part && q.target == target.val) with
  | some q => .next (if q.firstNs + fillTimeout s part.val ≤ nowNs s then closePallet p.val q s else s)
  | none => .next s

/-! ### Dispatch (R28, R230, R232, R285, R357) -/

/-- The group that a pallet takes at a position: the groups in service in turn (R357). -/
def groupFor (s : State) (p o turn : Nat) : Option Group :=
  let gs := groupsAt s p o
  gs[if gs.length = 0 then 0 else turn % gs.length]?

/-- The groups of every local stage of an epoch, or none where a stage has none in service. -/
def groupsFor (s : State) (p turn : Nat) (e : ModelEpoch) : Option (List Group) :=
  match e.vd.t2 with
  | none => none
  | some c => ((stagesOf c 0).filter (fun d => localStage s e d.order)).mapM (fun d => groupFor s p d.order turn)

/-- The physical bricks of groups. -/
def groupBricks (s : State) (gs : List Group) : List Nat := gs.flatMap (fun g => g.bricks.filterMap (physBrick s))

/-- Answer every row of a pallet from its slots, and drop the pallet (R28, R455). -/
def answerPallet (p n : Nat) (src : Nat) (s : State) : State :=
  match mapFind n (pdieAt s p).inflight with
  | none => s
  | some pal =>
    let s := (pal.rows.filterMap (·.slot)).foldl (fun s k => answerSlot p k (slotAnswer src) s) s
    dropPalletLeases p n (modPdie p (fun x => { x with inflight := mapDel n x.inflight }) s)

/-- The code region that a window's epoch has on a brick: one of the window's two, 2w and 2w + 1 (log 26). -/
def regionOf (s : State) (w : Fin 4) (p : Nat) (e : BitVec 16) : Fin 8 :=
  Fin.ofNat 8 (2 * w.val + ((epochAt s p e).map (fun x => x.place.reg % 2)).getD 0)

/-- A low field of free bits. -/
def lowBits (n : Nat) (f : DWord) : Nat := f.toNat % 2 ^ n

/-- The parameter set that the dispatcher patches for a pallet (Table 5 of the brick chapter). Addresses that the translator allots, and the
coding of the pallet kind, are free (log 3). -/
def pendingSet (x : BrickSt) (p : Nat) (w : Fin 4) (rg : Fin 8) (pal : Pallet) (free : List DWord) : Map DWord :=
  let mask := 2 ^ pal.rows.length - 1
  let reg := x.regions.get rg
  let f := fun i => free.getD i 0
  [(0, BitVec.ofNat 64 ((x.wins.get w).bmemBase * 4096 + lowBits 12 (f 0))),
   (1, BitVec.ofNat 64 mask), (2, BitVec.ofNat 64 (mask / 2 ^ 64)),
   (3, BitVec.ofNat 64 (pal.structEpoch.toNat % 65536 * 2 ^ 48 + pal.epoch.toNat * 2 ^ 32 + lowBits 23 (f 1))),
   (4, BitVec.ofNat 64 (lowBits 23 (f 2))),
   (5, BitVec.ofNat 64 (pal.offVersion.toNat * 2 ^ 48 + lowBits 23 (f 3))),
   (6, BitVec.ofNat 64 (pal.seqNo * 2 ^ 32 + (p * 64 + lowBits 6 (f 0 >>> 12)) * 2 ^ 24 + pal.part.val)),
   (7, BitVec.ofNat 64 (x.c.capHash.toNat * 2 ^ 32 + reg.base.toNat))]
  ++ pal.params.map (fun q => (8 + q.1 % 8, q.2))

/-- Free values, a number of them. -/
def takeFrees : Nat → State → List DWord × State
  | 0, s => ([], s)
  | n + 1, s =>
    let f := takeFree s
    let r := takeFrees n f.2
    (f.1 :: r.1, r.2)

/-- The bytes that free values give. -/
def freeBytes (n : Nat) (s : State) : List Byte × State :=
  let r := takeFrees ((n + 7) / 8) s
  ((r.1.flatMap (fun (w : DWord) => leBytes 8 w.toNat)).take n, r.2)

/-- The records of a pallet and its parameter set written to a brick's window (R230). -/
def dispatchTo (p : Nat) (w : Fin 4) (pal : Pallet) (b : Nat) (s : State) : State :=
  let (free, s) := takeFrees 4 s
  let x := brickAt s b
  let set := pendingSet x p w (regionOf s w pal.part.val pal.epoch) pal free
  let recs := pal.rows.flatMap (fun r => packCodes .i4 r.record)
  let x := bmemWrite ((mapGet 0 set 0).toNat % 2 ^ 23) recs x
  let pf := x.params.get w
  putBrick b { x with params := x.params.set w.val { pf with pending := some set } w.isLt } s

/-- Bricks woken by a new pending set: a lock-step group together, an independent brick by itself (R245, R285). -/
def wakeAfter (lockstep : Bool) (bs : List Nat) (s : State) : State :=
  if lockstep then (match bs.head? with
    | some b => thawCourse (b / 16) (wakeGroup bs s)
    | none => s)
  else bs.foldl (fun s b => wakeBrick b s) s

/-- Whether a window of a brick still holds a pending set (R230). -/
def windowFull (s : State) (w : Fin 4) (b : Nat) : Bool := ((brickAt s b).params.get w).pending.isSome

/-- The partition that an arbiter serves next, and whether a new round begins with it (R437): of the contenders with turns left in the round the one of
the lowest class and then of the lowest number; a round ends when no contender has a turn left. -/
def arbiterPick (s : State) (turns : Map Nat) (c : Nat) (l : List Nat) : Option (Nat × Bool) :=
  let left := l.filter (fun p => decide (mapGet 0 turns (c * 1024 + p) < max 1 (partAt s p).weight))
  let rank := fun (p : Nat) => (partAt s p).qosClass.val * 1024 + p
  let best := fun (l : List Nat) => l.foldl (fun (b : Option Nat) p => match b with
    | none => some p
    | some q => if rank p < rank q then some p else b) none
  if left.isEmpty then (best l).map (fun p => (p, true)) else (best left).map (fun p => (p, false))

/-- A turn taken. -/
def arbiterTake (c p : Nat) (new : Bool) (turns : Map Nat) : Map Nat :=
  mapMod 0 (c * 1024 + p) (· + 1) (if new then turns.filter (fun q => q.1 / 1024 != c) else turns)

/-- The groups to which a waiting pallet goes. -/
def palletGroups (s : State) (n : Nat) (pal : Pallet) : Option (List Group) :=
  (epochAt s pal.part.val pal.epoch).bind (fun e => if targetServes s pal.part.val e then groupsFor s pal.part.val n e else none)

/-- The C-die toward which a pallet waits at its dispatcher, once its window has room. -/
def waitsFor (s : State) (n : Nat) (pal : Pallet) : Option Nat :=
  if pal.dispatched then none
  else (palletGroups s n pal).bind (fun gs =>
    let g := gs.headD { bricks := [] }
    let first := groupBricks s [g]
    if first.any (windowFull s g.window) then none else first.head?.map (· / 16))

/-- PALLET_DISPATCH (R230, R357, R437): a pallet that has left the former goes to the groups whose turn it is, once the window's previous pending set
has been taken and the arbiter toward their C-die serves its partition. Where no group of a stage is in service its rows are answered with source 4 (R28). -/
def execPalletDispatch (p : Die) (pallet : Nat) (s : State) : Out :=
  match mapFind pallet (pdieAt s p.val).inflight with
  | none => .next s
  | some pal =>
    if pal.dispatched then .next s
    else
      match palletGroups s pallet pal with
      | none => .next (answerPallet p.val pallet 4 s)
      | some gs =>
        let g := gs.headD { bricks := [] }
        let first := groupBricks s [g]
        let c := first.headD 0 / 16
        let others := (pdieAt s p.val).inflight.filterMap (fun q => if waitsFor s q.1 q.2 == some c then some q.2.part.val else none)
        let pick := arbiterPick s (pdieAt s p.val).turns c others
        if first.any (windowFull s g.window) || pick.map (·.1) != some pal.part.val then .next s
        else
          let turns := arbiterTake c pal.part.val (pick.any (·.2)) (pdieAt s p.val).turns
          let pal := { pal with rows := pal.rows.filter (fun r => r.slot.isSome), dispatched := true, bricks := groupBricks s gs }
          let slots := (pal.rows.zipIdx).foldl (fun m r => match r.1.slot with
            | some k => mapMod { st := { s := { feed := 0, desc := 0, hdr := [], tIn := 0 }, structEpoch := 0, modelEpoch := 0, pdie := 0 },
                                 flow := {}, top := 0, score := 0, provAction := 0, fbAction := 0 } k (fun z => { z with row := r.2 }) m
            | none => m) (pdieAt s p.val).slots
          let s := modPdie p.val (fun x => { x with inflight := mapSet pallet pal x.inflight, slots, turns }) s
          let s := first.foldl (fun s b => dispatchTo p.val g.window pal b s) s
          let s := wakeAfter g.lockstep first s
          let s := match first.head? with
            | some b => takeLease 1 (unitKey 0 (brickUnit b)) p pallet 6000 s
            | none => s
          .next (trace 3 1 p.val 0 pal.part.val (leBytes 4 pallet ++ [BitVec.ofNat 8 pal.rows.length]) s)

/-! ### Retirement (R27, R87, R121, R155, R164) -/

/-- The program's inputs for a partition's epoch. -/
def modelCtx (e : ModelEpoch) (c : HykaiCode) (params : Map DWord) (offsets : List Word) : HCtx :=
  { code := c, data := e.vd.data, stats := e.vd.stats, scales := e.scales, params, offsets }

/-- The parameters that a program reads: those the operator set; a parameter whose source is the P-die has a value that the specification does
not state (log 3). -/
def programParams (c : HykaiCode) (set : Map DWord) (s : State) : Map DWord × State :=
  c.params.foldl (fun (acc : Map DWord × State) q =>
    if q.source = 1 then
      let f := takeFree acc.2
      (mapSet q.number f.1 acc.1, f.2)
    else acc) (set, s)

/-- The slot of a brick that holds the statistics of a set of an epoch, or the lowest unassigned one (R156, log 27). -/
def statSlotOf (x : BrickSt) (p : Part) (e : BitVec 16) (set : Nat) : Nat :=
  match (List.range 64).find? (fun i => match mapFind i x.vec.stats with
      | some q => q.valid && q.part == p && q.epoch == e && q.set.val == set
      | none => false) with
  | some i => i
  | none => ((List.range 64).find? (fun i => match mapFind i x.vec.stats with
      | some q => !q.valid
      | none => true)).getD 63

/-- The statistics of a pallet added to a brick's slots (R155). -/
def addStats (p : Part) (e : BitVec 16) (es : List StatElem) (x : BrickSt) : BrickSt :=
  es.foldl (fun x el =>
    let k := statSlotOf x p e el.slot
    let m := mapMod {} k (fun (q : StatSlot) => { q with valid := true, part := p, epoch := e, set := Fin.ofNat 8 el.slot }) x.vec.stats
    { x with vec := { x.vec with stats := addStat m { el with slot := k } } }) x

/-- A bound in force for a re-tempering attempt (R163): index 7 to 15, as it was when capture started. -/
def attemptBound (a : Attempt) (i : Nat) : Nat := (a.bounds.getD (i - 7) (0, 0)).2

/-- The rows a capture takes, a multiple of 128 (Table 6 of the quantiser chapter). -/
def captureLimit (a : Attempt) : Nat := attemptBound a 9 / 128 * 128

/-- The training rows of a capture: those whose number mod 4 is not 3 (R164). -/
def trainingRows (a : Attempt) : List (List Word) := (a.rows.zipIdx.filter (fun r => r.2 % 4 != 3)).map (·.1)

/-- Capture ends (Table 5 of the quantiser chapter): OPTIMISING with at least 512 rows of which 384 train, else CAPTURE_SHORT. -/
def endCapture (p : Nat) (a : Attempt) (s : State) : State :=
  if 512 ≤ a.rows.length ∧ 384 ≤ (trainingRows a).length then
    modPart p (fun x => { x with drift := { x.drift with state := 4, attempt := some { a with captureEndNs := nowNs s } } }) s
  else
    let s := modPart p (fun x => { x with drift := { x.drift with
      state := 1, outcome := 0x07, attempt := none, holdCount := 0, calm := 0, lastEnd := some (nowNs s) } }) s
    modSdie a.sdie.val (fun y => { y with captureOf := none }) s

/-- The rows of a pallet captured while its partition is in CAPTURING (R164): each the u values of the temperable sets in ascending order. -/
def captureRows (part : Part) (e : BitVec 16) (env : HEnv) (rows : List Nat) (s : State) : State :=
  let x := partAt s part.val
  match x.drift.attempt with
  | some a =>
    if x.drift.state.val = 3 && a.epoch == e && !env.captured.isEmpty then
      let new := rows.map (fun r => env.captured.flatMap (fun m => m.2.getD r []))
      let a := { a with rows := (a.rows ++ new).take (captureLimit a) }
      let s := putPart part.val { x with drift := { x.drift with attempt := some a } } s
      if captureLimit a ≤ a.rows.length then endCapture part.val a s else s
    else s
  | none => s

/-- The bundle stream of a pallet's bricks has come to the REPLAY that closes it: a brick that still runs this pallet takes its next pending
set or stops at the REPLAY (R230, log 28). -/
def closeReplay (seqNo : Nat) (w : Fin 4) (b : Nat) (s : State) : State :=
  let x := brickAt s b
  if x.c.phase == .running && bits 63 32 (param x w 6).toNat == seqNo && (param x w 6 != 0) then
    wakeBrick b (putBrick b { x with c := { x.c with phase := .idle } } s)
  else s

/-- The verdict that EMIT gives a row from a verdict map (R105, R113). -/
def mapAnswer (src : Nat) (vmap : List QWord) (r : RetSlot) (top : Nat) (q : BitVec 16) (absent : Bool) : Answer :=
  let base := slotAnswer src r
  { base with action := rAction (ruleOf vmap top q), cls := BitVec.ofNat 8 top, score := q, absent }

/-- The results of a pallet taken: each row that still has its slot gets its final verdict, and commits its flow-state write if that verdict
carries source 1 (R27, R87). -/
def retireRow (p : Nat) (ep : ModelEpoch) (env : HEnv) (r : PalletRow × Nat) (s : State) : State :=
  match r.1.slot.bind (fun k => (mapFind k (pdieAt s p).slots).map (fun z => (k, z))) with
  | none => s
  | some (k, z) =>
    let (top, q) := (env.emit.getD []).getD r.2 (0, 0)
    let a := mapAnswer 1 ep.vd.t2Map z top q (env.absent.getD r.2 false)
    let src := (settle s z.st a).source
    let s := answerSlot p k (fun _ => a) s
    match env.fstore with
    | some ws => if src = 1 then modPdie p (commitT2 (flowCtx s) z.flow z.st.s.tIn (ws.getD r.2 0)) s else s
    | none => s

/-- A pallet retires with the results of its rows. -/
def retirePallet (p n : Nat) (pal : Pallet) (ep : ModelEpoch) (env : HEnv) (s : State) : State :=
  let rows := pal.rows.zipIdx
  let live := (rows.filter (fun r => r.1.slot.isSome)).map (·.2)
  let s := captureRows pal.part pal.epoch env live s
  let s := rows.foldl (fun s r => retireRow p ep env r s) s
  let s := pal.bricks.foldl (fun s b => modBrick b (stick env.flags) s) s
  let s := match pal.bricks.head? with
    | some b => modBrick b (addStats pal.part pal.epoch env.stats) s
    | none => s
  let s := if pal.reruns = 0 then s
    else pal.bricks.foldl (fun s b => clearSuspect b (brickAt s b).arr.suspect (modBrick b (fun x => { x with arr := { x.arr with reruns := 0 } }) s)) s
  let s := modPdie p (fun x => { x with inflight := mapDel n x.inflight }) s
  let s := dropPalletLeases p n s
  let s := pal.bricks.foldl (fun s b => (List.finRange 4).foldl (fun s w => closeReplay n w b s) s) s
  trace 4 1 p 0 pal.part.val (leBytes 4 n ++ [BitVec.ofNat 8 pal.rows.length, 0]) s

/-- The run of a pallet's PALLET stages (R274 to R280). -/
def runPallet (pal : Pallet) (ep : ModelEpoch) (c : HykaiCode) (s : State) : HEnv × State :=
  let (params, s) := programParams c pal.params s
  let rt := ((stagesOf c 0).head?.map (recordTensor c)).getD 0
  let offs := if pal.offsets.isEmpty then recordOffsets c ep.vd.data rt else pal.offsets
  let cx := { modelCtx ep c params offs with snaps := pal.rows.map (fun r => some r.snap) }
  (hProgram cx 0 (pal.rows.map (·.record)) (recordScales c ep.vd.data rt), s)

/-- The first stage of an epoch that lies on a peer, with the peer (R369, R416). -/
def peerStage (s : State) (e : ModelEpoch) : Option (Nat × Nat) :=
  match e.vd.span, e.vd.t2 with
  | some peers, some c =>
    (stagesOf c 0).findSome? (fun d => if localStage s e d.order then none else
      (peers.find? (fun q => q.1 == d.order)))
  | _, _ => none

/-- PALLET_FAIL (R454, R455): a failed pallet is rolled back. It runs again where its records lie intact in the BMEM of bricks in service, at most
three times on a brick (R201); else its rows are answered from their slots with source 4. -/
def execPalletFail (p : Die) (pallet : Nat) (how : PalletFailure) (s : State) : Out :=
  match mapFind pallet (pdieAt s p.val).inflight with
  | none => .next s
  | some pal =>
    if !pal.failed then .next s
    else
      let s := cntWdn 8 1 s
      let ok := !pal.bricks.isEmpty && pal.reruns < 3 && pal.bricks.all (fun b => clocked (brickAt s b) || (brickAt s b).c.phase == .frozen)
      match how with
      | .rerun =>
        if ok then
          .next (cntWdn 9 1 (modPdie p.val (fun x =>
            { x with inflight := mapSet pallet { pal with failed := false, reruns := pal.reruns + 1 } x.inflight }) s))
        else .next (answerPallet p.val pallet 4 s)
      | .answer => .next (answerPallet p.val pallet 4 s)

end Sys2Proof.Machine
end

