-- ==== Sys2Proof/Machine/Egress.lean ====
section
/-!
DEFINITION. Egress at the L-dies: verdict and advisory records, their flits, frames and rings, the spill rule, and what a port that goes
DOWN leaves behind (chapters 1 and 15).
-/

namespace Sys2Proof.Machine

open Sys2Proof

/-! ### Flits on their way out (R403 to R405, R411) -/

/-- The credit class of a flit type: 1 VERDICT, 2 ADVISORY, 3 WALL (R400). -/
def classOf (ty : Nat) : Nat := if ty = 3 then 1 else if ty = 4 then 2 else 3

/-- The retry window in flits (R405). -/
def retryWindow (x : PortSt) : Nat := min 1024 (64 * x.lanesCfg.length)

/-- The credits held for a flit type of a local feed or peer. -/
def creditsHeld (x : PortSt) (ty loc : Nat) : Nat := mapGet 0 x.held (pkey (classOf ty) loc)

/-- The bytes waiting in a stream. -/
def waitingBytes (l : List (List Byte × Nat)) : Nat := (l.map (fun r => r.1.length)).sum

/-- The first n bytes of a stream of records: the bytes, how many records end in them, and what stays. -/
def takeBytes : Nat → List (List Byte × Nat) → List Byte × Nat × List (List Byte × Nat)
  | _, [] => ([], 0, [])
  | n, r :: rest =>
    if n = 0 then ([], 0, r :: rest)
    else if r.1.length ≤ n then
      let t := takeBytes (n - r.1.length) rest
      (r.1 ++ t.1, t.2.1 + 1, t.2.2)
    else (r.1.take n, 0, (r.1.drop n, r.2) :: rest)

/-- One flit of a stream sent: it takes a credit and waits for its ack (R403, R405). -/
def sendFlit (ty loc : Nat) (x : PortSt) : PortSt :=
  let k := pkey ty loc
  let t := takeBytes 244 (mapGet [] x.forming k)
  let c := pkey (classOf ty) loc
  { x with
    forming := if t.2.2.isEmpty then mapDel k x.forming else mapSet k t.2.2 x.forming
    held := mapMod 0 c (· - 1) x.held
    unacked := x.unacked ++ [{ seq := x.txSeq, ty, feed := loc, records := t.2.1, body := t.1 }]
    txSeq := x.txSeq + 1 }

/-- Whether a flit of a stream may go now: a credit is held and the retry window has room. -/
def maySend (x : PortSt) (ty loc : Nat) : Bool := decide (0 < creditsHeld x ty loc) && decide (x.unacked.length < retryWindow x)

/-- Whether a stream has a flit due: a full body; for VERDICT also 16 ns after its first byte; other types have no such wait (log 30). -/
def flitDue (now ty : Nat) (l : List (List Byte × Nat)) : Bool :=
  match l with
  | [] => false
  | r :: _ => decide (244 ≤ waitingBytes l) || decide (r.2 + 16 ≤ now) || ty != 3

/-- The flits that are due sent, at most `fuel` of them. -/
def pumpStream (now ty loc : Nat) : Nat → PortSt → PortSt
  | 0, x => x
  | n + 1, x =>
    if flitDue now ty (mapGet [] x.forming (pkey ty loc)) && maySend x ty loc then pumpStream now ty loc n (sendFlit ty loc x) else x

/-- A record put on a stream, and the flits that are due sent. -/
def streamPut (now ty loc : Nat) (r : List Byte) (x : PortSt) : PortSt :=
  let x := { x with forming := mapMod [] (pkey ty loc) (fun l => l ++ [(r, now)]) x.forming }
  pumpStream now ty loc (waitingBytes (mapGet [] x.forming (pkey ty loc)) / 244 + 1) x

/-- Every stream of a port looked at again, after credits or acks have come. -/
def pumpAll (now : Nat) (x : PortSt) : PortSt :=
  x.forming.foldl (fun x f => pumpStream now (f.1 / 16) (f.1 % 16) (waitingBytes f.2 / 244 + 1) x) x

/-! ### Records to a feed (R35, R404, R411) -/

/-- A record of a device feed: an orphan where the feed is down, discarded while the feed spills, else put on the feed's stream. -/
def toFeed (ty f : Nat) (r : List Byte) (s : State) : State :=
  match feedCfg s f with
  | none => s
  | some c =>
    if !portUp (portAt s c.port.val) then cntLdie (ldieOfPort c.port.val) 12 1 s
    else if (mapFind f s.link.spilling).isSome then cntLdie (ldieOfPort c.port.val) 11 1 s
    else modPort c.port.val (streamPut (nowNs s) ty c.loc r) s

/-- An advisory of a partition (R411, R429): to the feed or to ring 4, as FEEDS names; without a destination it is discarded (log 31). -/
def sendAdvisory (p : Nat) (r : List Byte) (s : State) : State :=
  match s.st.running.feeds.advDest.find? (fun d => d.1 == p) with
  | some (_, .feed f) => toFeed 4 f.val r s
  | some (_, .ring _) => ringRecord p 4 r s
  | some (_, .frames) => s
  | none => s

/-! ### Verdict records (R39, R410, R521) -/

/-- The latency in nanoseconds; none where a step of the counter makes it negative. -/
def verdictLatency (s : State) (v : Verdict) : Option Nat :=
  let d := (s.time.wall - v.tIn).toNat
  if 2 ^ 63 ≤ d then none else some d

/-- A verdict record (Table 7 of the link chapter). -/
def verdictBytes (v : Verdict) (lat : Option Nat) : List Byte :=
  leBytes 4 v.tag.toNat
  ++ [BitVec.ofNat 8 v.feed.val, BitVec.ofNat 8 (v.source.toNat * 16 + v.action.toNat), v.cls,
      BitVec.ofNat 8 (bitAt 0 v.final + bitAt 1 v.prov + bitAt 2 v.skew + bitAt 3 v.absent)]
  ++ leBytes 2 v.score.toNat ++ leBytes 2 v.epoch.toNat ++ leBytes 2 (min 0xFFFF (lat.getD 0 / 8)) ++ [0, 0]

/-- The bin of a latency (R521). -/
def latencyBin (d : Nat) : Nat :=
  if d < 8 then 0 else if 2 ^ 33 ≤ d then 31 else Nat.log2 d - 2

/-- The histogram of a source: H0 tier 1, H1 tier 2 and sequence, H2 the rest. -/
def latencyHist (source : Nat) : Nat := if source = 0 then 0 else if source ≤ 2 then 1 else 2

/-- A latency counted in a histogram: bins saturate at 32 bits (R521); one that a step made negative counts in bin 0 alone (R517). -/
def histCount (d : Option Nat) (h : Hist) : Hist :=
  let b := match d with
    | some n => latencyBin n
    | none => 0
  let h := { h with bins := mapMod 0 b (fun v => min (v + 1) 0xFFFFFFFF) h.bins, total := h.total + 1 }
  match d with
  | some n =>
    let v := BitVec.ofNat 48 (min n (2 ^ 48 - 1))
    { h with mn := if v.toNat < h.mn.toNat then v else h.mn, mx := if h.mx.toNat < v.toNat then v else h.mx }
  | none => h

/-! ### Verdict frames (R414) -/

/-- A verdict frame: addresses, EtherType, batch header, records, padding to 64 bytes, FCS. -/
def verdictFrame (f : FeedsSec) (seq : BitVec 16) (recs : List (List Byte)) : List Byte :=
  let body := (f.macs ++ List.replicate 12 0).take 12 ++ beBytes 2 f.etherType.toNat
    ++ leBytes 4 (2 ^ 24 + recs.length * 2 ^ 16 + seq.toNat) ++ recs.flatten
  let body := body ++ List.replicate (60 - body.length) 0
  body ++ leBytes 4 (crc32 body).toNat

/-- The batch of a mirror port sent as a frame. -/
def sendBatch (f : FeedsSec) (x : PortSt) : PortSt :=
  if x.batch.isEmpty then x
  else { x with framesOut := x.framesOut ++ [verdictFrame f x.batchSeq x.batch], batch := [], batchSeq := x.batchSeq + 1 }

/-- A record put into a mirror port's batch; 93 records go at once. -/
def batchPut (now : Nat) (f : FeedsSec) (r : List Byte) (x : PortSt) : PortSt :=
  let x := { x with batch := x.batch ++ [r], batchSince := if x.batch.isEmpty then now else x.batchSince }
  if 93 ≤ x.batch.length then sendBatch f x else x

/-! ### The rows -/

/-- VERDICT_EGRESS (R39, R410, R411, R457, R521): the oldest verdict at an L-die is handed to framing: its latency is counted, its ledger entry
closes or notes the provisional verdict, and its record goes to its feed, ring or frame, or is an orphan. -/
def execVerdictEgress (l : Die) (s : State) : Out :=
  let q := ldieAt s l.val
  match q.egress with
  | [] => .next s
  | v :: rest =>
    let ledger := if v.final then q.ledger.filter (fun e => e.lid != v.lid)
      else q.ledger.map (fun e => if e.lid = v.lid then { e with prov := true } else e)
    let s := putLdie l.val { q with egress := rest, ledger } s
    let lat := verdictLatency s v
    let s := { s with obs := { s.obs with hists := mapMod {} (4 * v.part.val + latencyHist v.source.toNat) (histCount lat) s.obs.hists } }
    let s := trace 2 3 l.val 0 v.part.val (leBytes 4 v.tag.toNat ++ [BitVec.ofNat 8 v.feed.val, v.source.setWidth 8, v.action.setWidth 8]
      ++ leBytes 2 v.epoch.toNat) s
    let r := verdictBytes v lat
    if v.orphan then .next (cntLdie l.val 12 1 s)
    else
      match feedCfg s v.feed.val with
      | none => .next (cntLdie l.val 12 1 s)
      | some c =>
        if (portAt s c.port.val).mode.val = 1 then
          match c.mirrorDest with
          | .ring n => .next (ringRecord v.part.val n.val r s)
          | .frames => .next (modPort c.port.val (batchPut (nowNs s) s.st.running.feeds r) s)
          | .feed f => .next (toFeed 3 f.val r s)
        else .next (toFeed 3 v.feed.val r s)

/-- VERDICT_FLIT_TIMEOUT (R411): a VERDICT flit goes 16 ns after its first byte entered, once a credit is held. -/
def execVerdictFlitTimeout (port : LPort) (feed : Local) (s : State) : Out :=
  let x := portAt s port.val
  if portUp x && flitDue (nowNs s) 3 (mapGet [] x.forming (pkey 3 feed.val)) && maySend x 3 feed.val then
    .next (putPort port.val (sendFlit 3 feed.val x) s)
  else .next s

/-- The length of a record of a stream. -/
def recordLen (ty : Nat) : Nat := if ty = 4 then 32 else 16

/-- What of a stream the spill rule keeps: the tail of a record whose head has already left, so that the stream stays whole (log 32). -/
def spillKeeps (ty : Nat) (l : List (List Byte × Nat)) : List (List Byte × Nat) :=
  match l with
  | r :: _ => if r.1.length < recordLen ty then [r] else []
  | [] => []

/-- SPILL_TIMEOUT (R35, R404): a verdict or advisory has waited spill_us for a credit of the partner; every record queued for the feed is
discarded, and the feed spills until a credit returns. -/
def execSpillTimeout (feed : Feed) (s : State) : Out :=
  match feedCfg s feed.val with
  | none => .next s
  | some c =>
    let x := portAt s c.port.val
    let late := fun (ty : Nat) =>
      decide (creditsHeld x ty c.loc = 0) &&
      (mapGet [] x.forming (pkey ty c.loc)).any (fun r => decide (r.2 + c.spillUs * 1000 ≤ nowNs s))
    if portUp x && (late 3 || late 4) then
      let drop := fun (ty : Nat) (x : PortSt) =>
        let keep := spillKeeps ty (mapGet [] x.forming (pkey ty c.loc))
        { x with forming := if keep.isEmpty then mapDel (pkey ty c.loc) x.forming else mapSet (pkey ty c.loc) keep x.forming }
      let n := fun (ty : Nat) =>
        (mapGet [] x.forming (pkey ty c.loc)).length - (spillKeeps ty (mapGet [] x.forming (pkey ty c.loc))).length
      let s := putPort c.port.val (drop 4 (drop 3 x)) (cntLdie (ldieOfPort c.port.val) 11 (n 3 + n 4) s)
      .next { s with link := { s.link with spilling := mapSet feed.val () s.link.spilling } }
    else .next s

/-- MIRROR_BATCH_TIMEOUT (R414): a verdict frame goes 500 ns after its first record. -/
def execMirrorBatchTimeout (port : LPort) (s : State) : Out :=
  let x := portAt s port.val
  if !x.batch.isEmpty && decide (x.batchSince + 500 ≤ nowNs s) then .next (putPort port.val (sendBatch s.st.running.feeds x) s)
  else .next s

end Sys2Proof.Machine
end

