-- ==== Sys2Proof/Machine/Wall.lean ====
section
/-!
DEFINITION. The wall: reachability, carries to a peer and their results, and the roll-back of a pallet whose peer does not answer (R415 to
R419). The bytes of carries and results are log 33's.
-/

namespace Sys2Proof.Machine

open Sys2Proof

/-! ### Peers and routes (R415) -/

/-- The device's own peer identifier. -/
def ownPeer (s : State) : Nat := ((s.st.running.wall.map (fun (w : WallSec) => w.ownId)).getD 0).val

/-- The ports of a peer's route. -/
def routeOf (s : State) (peer : Nat) : List Nat :=
  (((s.st.running.wall.map (fun (w : WallSec) => w.routes)).getD []).find? (fun r => r.1 == peer)).map (·.2) |>.getD []

/-- The port of a route that is up, if one. -/
def routePort (s : State) (peer : Nat) : Option Nat := (routeOf s peer).find? (fun p => portUp (portAt s p))

/-- The L-die that counts for a peer: that of the first port of its route. -/
def routeDie (s : State) (peer : Nat) : Nat := ldieOfPort ((routeOf s peer).headD 0)

/-- Whether a peer is reachable: a WALL_CTL of its own within the last 10 us, and a port of its route up. -/
def reachable (s : State) (peer : Nat) : Bool :=
  match mapFind peer s.link.wall.lastCtl with
  | some t => decide (nowNs s ≤ t + 10000) && (routePort s peer).isSome
  | none => false

/-- The wall changed. -/
def modWall (f : WallSt → WallSt) (s : State) : State := { s with link := { s.link with wall := f s.link.wall } }

/-- wall_timeout in nanoseconds (R419). -/
def wallTimeoutNs (s : State) : Nat := ((s.st.running.wall.map (fun (w : WallSec) => w.timeoutUs)).getD 10) * 1000

/-- Bytes put on the stream of a wall flit type towards a peer; without a port that is up they go nowhere. -/
def wallSend (ty peer : Nat) (bs : List Byte) (s : State) : State :=
  match routePort s peer with
  | some p => modWall (fun w => { w with sent := w.sent ++ [(peer, bs)] }) (modPort p (streamPut (nowNs s) ty peer bs) s)
  | none => s

/-! ### Headers (R417) -/

/-- A wall transfer header (Table 8 of the link chapter). -/
structure WallHdr where
  kind : Nat
  origin : Nat
  stage : Nat
  status : Nat := 0
  part : Nat
  image : Nat
  pallet : Nat
  length : Nat := 0
  valid : Nat := 0
  deriving DecidableEq, Repr

/-- The bytes of a header. -/
def wallHdrBytes (h : WallHdr) : List Byte :=
  [BitVec.ofNat 8 h.kind, BitVec.ofNat 8 h.origin, BitVec.ofNat 8 h.stage, BitVec.ofNat 8 h.status] ++ leBytes 2 h.part ++ [0, 0]
  ++ leBytes 8 h.image ++ leBytes 4 h.pallet ++ leBytes 4 h.length ++ leBytes 16 h.valid ++ List.replicate 24 0

/-- A number of some bytes of a header. -/
def hdrField (bs : List Byte) (at_ n : Nat) : Nat := leNat ((bs.drop at_).take n)

/-- A header read from its 64 bytes. -/
def readWallHdr (bs : List Byte) : WallHdr :=
  { kind := hdrField bs 0 1, origin := hdrField bs 1 1, stage := hdrField bs 2 1, status := hdrField bs 3 1,
    part := hdrField bs 4 2 % 1024, image := hdrField bs 8 8, pallet := hdrField bs 16 4, length := hdrField bs 20 4,
    valid := hdrField bs 24 16 }

/-! ### Carries and results (R416, R121, log 33) -/

/-- Row flags as 16 bytes, row 0 in bit 0. -/
def rowBits (l : List Bool) : Nat := ((l.zipIdx).map (fun r => bitAt r.2 r.1)).sum

/-- The bytes of a carry: the codes of each row, the buttress codes of its outlier channels, the exponents, the pallet absent flags. -/
def carryBytes (t : TensorDesc) (v : HVal) (absent : List Bool) : List Byte :=
  match v with
  | .codes rows _ outl exps =>
    rows.flatMap (fun r => packCodes (hElem t) r) ++ outl.flatMap (fun r => r.map (BitVec.ofNat 8))
      ++ exps.map (fun (e : Int) => BitVec.ofInt 8 e) ++ leBytes 16 (rowBits absent)
  | _ => leBytes 16 (rowBits absent)

/-- The outlier channels of a carry tensor. -/
def carryOutliers (t : TensorDesc) : Nat := if t.outliers then 8 * ceilDiv t.dim1 128 else 0

/-- A carry read from its bytes: `n` rows of the tensor, with the scales that the receiver's own image gives it. -/
def readCarry (c : HCtx) (i n : Nat) (bs : List Byte) : HVal × List Bool :=
  let t := hTensor c i
  let rb := ceilDiv (t.dim1 * (hElem t).bits) 8
  let o := carryOutliers t
  let rows := (List.range n).map (fun r =>
    (List.range t.dim1).map (fun k => unpack (hElem t) ((bs.drop (r * rb)).take rb) k))
  let rest := bs.drop (n * rb)
  let outl := if o = 0 then [] else (List.range n).map (fun r => ((rest.drop (r * o)).take o).map (·.toNat))
  let tail := rest.drop (if o = 0 then 0 else n * o)
  let exps := (tail.take o).map (fun (b : Byte) => b.toInt)
  let flags := leNat ((tail.drop o).take 16)
  (.codes rows (hActScales c i) outl exps, (List.range n).map (fun r => bit r flags))

/-- The bytes of a result row: class, flags, score, the flow-state write (log 33). -/
def resultRow (env : HEnv) (r : Nat) : List Byte :=
  let e := (env.emit.getD []).getD r (0, 0)
  let f := env.fstore.map (fun ws => ws.getD r 0)
  [BitVec.ofNat 8 e.1, BitVec.ofNat 8 (bitAt 0 (env.absent.getD r false) + bitAt 1 f.isSome)] ++ leBytes 2 e.2.toNat
    ++ leBytes 4 0 ++ leBytes 16 (f.getD 0).toNat

/-- Result rows read back. -/
def readResults (n : Nat) (bs : List Byte) : HEnv :=
  let row := fun r => (bs.drop (24 * r)).take 24
  let flags := fun r => hdrField (row r) 1 1
  { emit := some ((List.range n).map (fun r => (hdrField (row r) 0 1, BitVec.ofNat 16 (hdrField (row r) 2 2)))),
    absent := (List.range n).map (fun r => bit 0 (flags r)),
    fstore := if (List.range n).any (fun r => bit 1 (flags r)) then
        some ((List.range n).map (fun r => BitVec.ofNat 128 (hdrField (row r) 8 16)))
      else none }

/-! ### Roll-back (R419) -/

/-- A carry rolled back: its pallet's slices are answered with source 4, and the peer is sent an abort. -/
def rollBack (c : WallCarry) (s : State) : State :=
  let h : WallHdr :=
    { kind := 3, origin := ownPeer s, stage := 0, part := 0, image := 0, pallet := c.pallet }
  let s := modWall (fun w => { w with carries := w.carries.filter (fun x => x != c) }) s
  let s := wallSend 7 c.peer.val (wallHdrBytes h) (cntLdie (routeDie s c.peer.val) 14 1 s)
  answerPallet c.pdie.val c.pallet 4 s

/-- Every carry of some kind rolled back. -/
def rollBackAll (p : WallCarry → Bool) (s : State) : State := (s.link.wall.carries.filter p).foldl (fun s c => rollBack c s) s

/-! ### The run of a spanned pallet (R369, R416, R418) -/

/-- The stages from an order upwards that lie on this device, up to the first that does not. -/
def localRun (s : State) (e : ModelEpoch) (c : HykaiCode) (from_ : Nat) : List StageDesc :=
  ((stagesOf c 0).filter (fun d => decide (from_ ≤ d.order))).takeWhile (fun d => localStage s e d.order)

/-- The stage after a local run, with the peer that has it. -/
def nextPeer (s : State) (e : ModelEpoch) (c : HykaiCode) (from_ : Nat) : Option (StageDesc × Nat) :=
  (((stagesOf c 0).filter (fun d => decide (from_ ≤ d.order))).find? (fun d => !localStage s e d.order)).bind (fun d =>
    ((e.vd.span.getD []).find? (fun q => q.1 == d.order)).map (fun q => (d, q.2)))

/-- The carry that goes to a peer after a run, as a WALL_DATA transfer. -/
def sendCarry (hdr : WallHdr) (peer : Nat) (cx : HCtx) (tensor : Nat) (env : HEnv) (s : State) : State :=
  let v := (mapFind tensor env.vals).getD (.codes [] [] [] [])
  let bs := carryBytes (hTensor cx tensor) v env.absent
  wallSend 5 peer (wallHdrBytes { hdr with kind := 1, length := bs.length } ++ bs) s

/-- The tensor that enters a stage: the carry of the stage before it, or the record. -/
def entryTensor (c : HykaiCode) (from_ : Nat) : Nat :=
  match (stagesOf c 0).reverse.find? (fun d => decide (d.order < from_)) with
  | some d => d.carry
  | none => ((stagesOf c 0).head?.map (recordTensor c)).getD 0

/-- The stages of a run from a tensor's value. -/
def runFrom (cx : HCtx) (ds : List StageDesc) (tensor : Nat) (v : HVal) (absent : List Bool) : HEnv :=
  ds.foldl (fun e d => hStage cx d e) { vals := [(tensor, v)], absent }

/-- The groups of a run in service, none where a stage has none. -/
def runServes (s : State) (p : Nat) (ds : List StageDesc) : Bool := ds.all (fun d => !(groupsAt s p d.order).isEmpty)

/-- A carry that arrives: it runs on the resident epoch of its image from its stage on; the results go to the origin, or the next carry to
the next peer; the origin's own pallet retires here where its last stage is (R416, R418). -/
def carryIn (h : WallHdr) (bs : List Byte) (s : State) : State :=
  let refuse := fun (status : Nat) (s : State) =>
    if h.origin = ownPeer s then rollBackAll (fun c => c.pallet == h.pallet) s
    else wallSend 6 h.origin (wallHdrBytes { h with kind := 2, status, length := 0 }) s
  match (modelAt s h.part).epochs.find? (fun e => (e.st == .active || e.st == .draining) && e.imageHash.toNat == h.image) with
  | none => refuse 1 s
  | some e =>
    match e.vd.t2 with
    | none => refuse 2 s
    | some c =>
      let ds := localRun s e c h.stage
      if ds.isEmpty || !runServes s h.part ds then refuse 2 s
      else
        let n := Nat.log2 h.valid + 1
        let r := programParams c e.params s
        let s := r.2
        let offs := if e.offsets.isEmpty then recordOffsets c e.vd.data (entryTensor c 0) else e.offsets
        let own := if h.origin = ownPeer s then
            (s.pdies.findSome? (fun x => (mapFind h.pallet x.2.inflight).bind (fun pal =>
              if pal.part.val = h.part then some (x.1, pal) else none)))
          else none
        let snaps := match own with
          | some o => o.2.rows.map (fun r => some r.snap)
          | none => List.replicate n none
        let cx := { modelCtx e c r.1 offs with rows := n, snaps, recTensor := entryTensor c h.stage }
        let v := readCarry cx (entryTensor c h.stage) n bs
        let env := runFrom cx ds (entryTensor c h.stage) v.1 v.2
        let bricks := groupBricks s (ds.filterMap (fun d => groupFor s h.part d.order h.pallet))
        let s := bricks.foldl (fun s b => modBrick b (stick env.flags) s) s
        let s := match bricks.head? with
          | some b => modBrick b (addStats (Fin.ofNat 1024 h.part) e.num env.stats) s
          | none => s
        match nextPeer s e c h.stage with
        | some (d, peer) => sendCarry { h with stage := d.order } peer cx (entryTensor c d.order) env s
        | none =>
          match own with
          | some (p, pal) =>
            let s := modWall (fun w => { w with carries := w.carries.filter (fun x => !(x.pallet == h.pallet && x.pdie.val == p)) }) s
            retirePallet p h.pallet pal e { env with stats := [] } s
          | none =>
            let rows := (List.range n).flatMap (resultRow env)
            wallSend 6 h.origin (wallHdrBytes { h with kind := 2, status := 0, length := rows.length } ++ rows) s

/-- The stages of the origin before the first crossing run, and the carry leaves under its timer (R416, R419); a peer that cannot be reached
rolls the pallet back at once. -/
def startSpan (p n : Nat) (pal : Pallet) (e : ModelEpoch) (c : HykaiCode) (s : State) : State :=
  match nextPeer s e c 0 with
  | none => s
  | some (d, peer) =>
    let carry : WallCarry := { pallet := n, pdie := Fin.ofNat 4 p, peer := Fin.ofNat 16 peer, sentNs := nowNs s }
    if s.link.wall.carries.any (fun x => x.pallet == n && x.pdie.val == p) then s
    else if !reachable s peer then rollBack carry s
    else
      let r := programParams c pal.params s
      let s := r.2
      let rt := entryTensor c 0
      let offs := if pal.offsets.isEmpty then recordOffsets c e.vd.data rt else pal.offsets
      let cx := { modelCtx e c r.1 offs with rows := pal.rows.length, snaps := pal.rows.map (fun r => some r.snap), recTensor := rt }
      let env := runFrom cx (localRun s e c 0) rt (.codes (pal.rows.map (·.record)) (recordScales c e.vd.data rt) [] [])
        (pal.rows.map (fun _ => false))
      let s := pal.bricks.foldl (fun s b => modBrick b (stick env.flags) s) s
      let s := match pal.bricks.head? with
        | some b => modBrick b (addStats pal.part pal.epoch env.stats) s
        | none => s
      let h : WallHdr :=
        { kind := 1, origin := ownPeer s, stage := d.order, part := pal.part.val, image := e.imageHash.toNat, pallet := n,
          valid := 2 ^ pal.rows.length - 1 }
      modWall (fun w => { w with carries := w.carries ++ [carry] }) (sendCarry h peer cx (entryTensor c d.order) env s)

/-- A result that arrives: OK retires the pallet, another status rolls it back, one whose pallet has been rolled back is discarded (R418,
R419). -/
def resultIn (l : Nat) (h : WallHdr) (bs : List Byte) (s : State) : State :=
  let found := s.link.wall.carries.findSome? (fun c =>
    (mapFind c.pallet (pdieAt s c.pdie.val).inflight).bind (fun pal =>
      if c.pallet = h.pallet ∧ pal.part.val = h.part then some (c, pal) else none))
  match found with
  | none => cntLdie l 15 1 s
  | some (c, pal) =>
    if h.status = 0 then
      match epochAt s pal.part.val pal.epoch with
      | some e =>
        let s := modWall (fun w => { w with carries := w.carries.filter (fun x => x != c) }) s
        retirePallet c.pdie.val c.pallet pal e (readResults pal.rows.length bs) s
      | none => rollBack c s
    else rollBack c (if h.status = 1 then cntLdie l 16 1 s else s)

/-! ### The rows of the wall's clock (R415, R419) and the retirement of pallets (R27) -/

/-- PALLET_RETIRE (R27): the results of a dispatched pallet reach the P-die. A failed pallet never retires. A pallet of a
spanned model sends its carry instead, and retires by its wall result. -/
def execPalletRetire (p : Die) (pallet : Nat) (s : State) : Out :=
  match mapFind pallet (pdieAt s p.val).inflight with
  | none => .next s
  | some pal =>
    if !pal.dispatched || pal.failed then .next s
    else
      match epochAt s pal.part.val pal.epoch with
      | none => .next (answerPallet p.val pallet 4 s)
      | some ep =>
        match ep.vd.t2 with
        | none => .next (answerPallet p.val pallet 4 s)
        | some c =>
          if (peerStage s ep).isSome then .next (startSpan p.val pallet pal ep c s)
          else
            let r := runPallet pal ep c s
            .next (retirePallet p.val pallet pal ep r.1 r.2)


/-- WALL_CTL_SEND (R415): a WALL_CTL goes to a peer. -/
def execWallCtlSend (peer : Fin 16) (s : State) : Out :=
  match routePort s peer.val with
  | some p =>
    if maySend (portAt s p) 7 peer.val then
      .next (modWall (fun w => { w with lastSent := mapSet peer.val (nowNs s) w.lastSent })
        (modPort p (fun x => sendFlit 7 peer.val { x with forming := mapMod [] (pkey 7 peer.val) (fun l => l ++ [([], nowNs s)]) x.forming }) s))
    else .next s
  | none => .next s

/-- WALL_PEER_UNREACHABLE (R415, R419): 10 us without a WALL_CTL; the pallets that wait on the peer roll back. -/
def execWallPeerUnreachable (peer : Fin 16) (s : State) : Out :=
  match mapFind peer.val s.link.wall.lastCtl with
  | some t =>
    if t + 10000 < nowNs s then
      .next (rollBackAll (fun c => c.peer == peer) (modWall (fun w => { w with lastCtl := mapDel peer.val w.lastCtl }) s))
    else .next s
  | none => .next s

/-- WALL_TIMEOUT (R419): wall_timeout has run before the result. -/
def execWallTimeout (pallet : Nat) (s : State) : Out :=
  .next (rollBackAll (fun c => c.pallet == pallet && decide (c.sentNs + wallTimeoutNs s ≤ nowNs s)) s)

end Sys2Proof.Machine
end

