-- ==== Sys2Proof/Machine/Links.lean ====
section
/-!
DEFINITION. Ports, lanes and received flits (R396 to R409, R420), and mirrored frames (R412, R413).
-/

namespace Sys2Proof.Machine

open Sys2Proof

/-! ### Lanes (R397, R406, R407) -/

/-- The key of a lane. -/
def laneKey (l lane : Nat) : Nat := l * 104 + lane

/-- A lane; lanes 100 to 103 are the spares of an L-die (log 34). -/
def laneAt (s : State) (l lane : Nat) : LaneSt := mapGet { role := if 100 ≤ lane then 1 else 0 } s.link.lanes (laneKey l lane)

/-- A lane changed. -/
def modLane (l lane : Nat) (f : LaneSt → LaneSt) (s : State) : State :=
  { s with link := { s.link with lanes := mapSet (laneKey l lane) (f (laneAt s l lane)) s.link.lanes } }

/-- The PORTS entry of a port in the running image. -/
def portCfg (s : State) (p : Nat) : Option PortCfg := s.st.running.ports.find? (fun c => c.port.val == p)

/-- The lanes of a port that have not been removed. -/
def lanesLeft (s : State) (p : Nat) : List Nat :=
  (portAt s p).lanesCfg.filter (fun n => (laneAt s (ldieOfPort p) n).role.val != 2)

/-! ### A port goes DOWN (R399, R420) -/

/-- The whole records of a SLICE stream taken into the elastic buffer: they arrived before the port went down. -/
def drainStream (port loc : Nat) : Nat → State → State
  | 0, s => s
  | n + 1, s =>
    match feedOf s port loc with
    | none => s
    | some c =>
      let len := reclenOf s port loc
      let stream := mapGet [] (portAt s port).rx (pkey 2 loc)
      if stream.length < len then s
      else
        let d := BitVec.ofNat 128 (leNat (stream.take 16))
        let s := modPort port (fun x => { x with rx := mapSet (pkey 2 loc) (stream.drop len) x.rx }) s
        drainStream port loc n (acceptSlice (ldieOfPort port)
          { feed := c.feed, desc := d, hdr := (stream.take len).drop 16, tIn := s.time.wall, fail := recordCheck len c.feed.val d } s)

/-- The verdicts and advisories of a port that have not been acknowledged: in flits sent, waiting for a flit, or in a frame's batch. -/
def orphansOf (x : PortSt) : Nat :=
  ((x.unacked.filter (fun f => f.ty == 3 || f.ty == 4)).map (·.records)).sum
  + ((x.forming.filter (fun f => f.1 / 16 == 3 || f.1 / 16 == 4)).map (fun f => f.2.length)).sum + x.batch.length

/-- A port DOWN: what has arrived is kept, every verdict not acknowledged becomes an orphan, the retry buffer and every credit are cleared,
and the pallets that wait for a peer over the port roll back (R419, R420). -/
def portDown (p : Nat) (s : State) : State :=
  let l := ldieOfPort p
  let s := (List.range 16).foldl (fun s k => drainStream p k ((mapGet [] (portAt s p).rx (pkey 2 k)).length) s) s
  let x := portAt s p
  let feeds := (s.st.running.feeds.feeds.filter (fun c => c.port.val == p)).map (fun (c : FeedCfg) => c.feed)
  let s := cntLdie l 12 (orphansOf x) s
  let s := putPort p
    { x with st := 0, downCount := if x.downCount = 255 then 255 else x.downCount + 1, initDone := false, rxSeq := 0, txSeq := 0,
             nakSent := false, dropped := 0, unacked := [], granted := [], held := [], owed := [], rx := [], forming := [], batch := [],
             restartAt := 0 } s
  let s := { s with
    link := { s.link with spilling := s.link.spilling.filter (fun q => !feeds.any (fun f => f.val == q.1)) }
    ldies := mapAll (fun (q : LDieQ) => { q with egress := q.egress.map (fun v =>
      if feeds.contains v.feed then { v with orphan := true } else v) }) s.ldies }
  rollBackAll (fun c => (routeOf s c.peer.val).contains p) s

/-! ### Training (R399, R402, R409) -/

/-- The credits that the device's own INIT grants: SLICE credits of each feed, WALL credits of each peer whose route takes the port. -/
def initGrants (s : State) (p : Nat) : Map Nat :=
  let m := (s.st.running.feeds.feeds.filter (fun c => c.port.val == p)).foldl (fun m (c : FeedCfg) => mapSet (pkey 0 c.loc) c.credits m) []
  (List.range 16).foldl (fun m k =>
    if (routeOf s k).contains p then mapSet (pkey 3 k) (s.st.running.feeds.wallCredits.getD k 0) m else m) m

/-- Whether the kiln has reached the training of the lanes (R482, R483): K4 is complete. -/
def lanesReady (s : State) : Bool := s.power.ready || (s.power.running && decide (4 < s.power.phase.val))

/-- A port enters TRAINING, with the record lengths that the running FEEDS section names. Before READY no SLICE credit is granted: they are owed
(R483). -/
def startTraining (p : Nat) (c : PortCfg) (s : State) : State :=
  let lens := (s.st.running.feeds.feeds.filter (fun f => f.port.val == p)).foldl (fun m (f : FeedCfg) => mapSet f.loc f.reclen m) ([] : Map Nat)
  let grants := initGrants s p
  modPort p (fun x =>
    { x with st := 1, mode := c.mode, lanesCfg := if x.lanesCfg.isEmpty then c.lanes else x.lanesCfg, trainSince := nowNs s,
             restartAt := 0, signal := true, initDone := false, reclens := lens,
             granted := if s.power.ready then grants else grants.filter (fun g => decide (48 ≤ g.1)), held := [],
             owed := if s.power.ready then [] else grants.filter (fun g => decide (g.1 < 48)) }) s

/-- PORT_TRAINING_START (R399): a port sees a signal on every lane; one that is enabled and DOWN trains. -/
def execPortTrainingStart (port : LPort) (s : State) : Out :=
  let x := portAt s port.val
  match portCfg s port.val with
  | some c =>
    if lanesReady s then (if x.st = 0 ∧ x.restartAt = 0 then .next (startTraining port.val c s) else .next s)
    else .next (putPort port.val { x with signal := true } s)
  | none => .next (putPort port.val { x with signal := true } s)

/-- PORT_TRAINING_RESTART (R399): 100 ms after a training timeout. -/
def execPortTrainingRestart (port : LPort) (s : State) : Out :=
  let x := portAt s port.val
  match portCfg s port.val with
  | some c => if x.st = 0 ∧ x.restartAt ≠ 0 ∧ x.restartAt ≤ nowNs s then .next (startTraining port.val c s) else .next s
  | none => .next s

/-- PORT_TRAINING_TIMEOUT (R399): 100 ms in TRAINING without UP; training restarts after 100 ms. -/
def execPortTrainingTimeout (port : LPort) (s : State) : Out :=
  let x := portAt s port.val
  if x.st = 1 ∧ x.trainSince + 100000000 ≤ nowNs s then
    .next (modPort port.val (fun y => { y with restartAt := nowNs s + 100000000 }) (portDown port.val s))
  else .next s

/-- PORT_UP (R399, R402): every lane of the port is locked and, but on a mirror port, INIT flits have been exchanged. -/
def execPortUp (port : LPort) (lanes : Fin 17) (s : State) : Out :=
  let x := portAt s port.val
  let left := lanesLeft s port.val
  if x.st = 1 ∧ lanes.val = left.length ∧ lanes.val ≠ 0 ∧ (x.initDone || x.mode = 1) then
    let s := left.foldl (fun s n => modLane (ldieOfPort port.val) n (fun y =>
      { y with locked := true, port := Fin.ofNat 16 port.val }) s) s
    .next (modPort port.val (fun y => { y with st := 2, lanesUp := left }) s)
  else .next s

/-- PARTNER_SIGNAL_LOSS (R399, R420): the partner loses signal on every lane of an UP or DEGRADED port. -/
def execPartnerSignalLoss (port : LPort) (s : State) : Out :=
  if portUp (portAt s port.val) then .next (modPort port.val (fun x => { x with signal := false }) (portDown port.val s)) else .next s

/-! ### Lanes removed and replaced (R406, R407) -/

/-- The unit field of a lane (R478). -/
def laneUnit (l lane : Nat) : Word := BitVec.ofNat 32 (3 * 2 ^ 24 + l * 2 ^ 16 + lane * 2 ^ 8)

/-- The lowest free spare of an L-die that is not being trained for another lane. -/
def freeSpare (s : State) (l : Nat) : Option Nat :=
  (List.range 104).find? (fun n => (laneAt s l n).role.val == 1 && (laneAt s l n).swapFor.isNone)

/-- A lane in service removed: its port is DEGRADED, or DOWN with its last lane, and a free spare starts to train. -/
def removeLane (l lane : Nat) (s : State) : State :=
  let y := laneAt s l lane
  let p := l * 16 + y.port.val
  let x := portAt s p
  if y.role.val = 2 || y.role.val = 1 || !x.lanesCfg.contains lane then s
  else
    let s := modLane l lane (fun z => { z with role := 2, locked := false, adapted := false }) s
    let s := faultRecord 6 1 10 1 (laneUnit l lane) 0xFFFF 0 (BitVec.ofNat 32 lane) (cntWdn 1 1 (raiseInt 4 s))
    let left := x.lanesUp.filter (fun n => n != lane)
    let s := modPort p (fun z => { z with lanesUp := left }) s
    let s := if portUp x then (if left.isEmpty then portDown p s else modPort p (fun z => { z with st := 3 }) s) else s
    match freeSpare s l with
    | some n => modLane l n (fun z => { z with swapFor := some lane, port := y.port }) s
    | none => s

/-- LANE_ERROR_WINDOW (R406): the uncorrectable codewords of a 1 ms window. Over the limit the lane is adapted once more; over it again in the next
window it is removed; else the error was transient. -/
def execLaneErrorWindow (l : Die) (lane : Fin 104) (errors : Nat) (s : State) : Out :=
  let s := modLane l.val lane.val (fun y => { y with fecUncorr := sat16 (y.fecUncorr.toNat + errors) }) s
  let y := laneAt s l.val lane.val
  let limit := ((portCfg s (l.val * 16 + y.port.val)).map (·.laneErrLimit)).getD 16
  if y.role.val = 0 ∨ y.role.val = 3 then
    if limit < errors then
      if y.adapted then .next (removeLane l.val lane.val s) else .next (modLane l.val lane.val (fun z => { z with adapted := true }) s)
    else if y.adapted then
      .next (faultRecord 6 0 10 0 (laneUnit l.val lane.val) 0xFFFF 0 (BitVec.ofNat 32 lane.val)
        (cntWdn 0 1 (modLane l.val lane.val (fun z => { z with adapted := false }) s)))
    else .next s
  else .next s

/-- LANE_LOCK_LOSS (R406): a lane that loses lock is removed. -/
def execLaneLockLoss (l : Die) (lane : Fin 104) (s : State) : Out :=
  let y := laneAt s l.val lane.val
  if y.locked then .next (removeLane l.val lane.val s) else .next s

/-- SPARE_LANE_READY (R407): the spare joins the rotation in place of the removed lane and stays in its port; with every removed lane replaced the
port is UP. -/
def execSpareLaneReady (l : Die) (lane : Fin 104) (s : State) : Out :=
  let y := laneAt s l.val lane.val
  match y.swapFor with
  | none => .next s
  | some old =>
    if y.role.val ≠ 1 then .next s
    else
      let p := l.val * 16 + y.port.val
      let s := modLane l.val lane.val (fun z => { z with role := 3, locked := true, swapFor := none }) s
      let s := modPort p (fun x =>
        let cfg := x.lanesCfg.map (fun n => if n = old then lane.val else n)
        let up := if portUp x then x.lanesUp ++ [lane.val] else x.lanesUp
        { x with lanesCfg := cfg, lanesUp := up, st := if x.st = 3 ∧ up.length = cfg.length then 2 else x.st }) s
      let s := { s with flt := { s.flt with repairGen := s.flt.repairGen + 1 } }
      let s := faultRecord 6 1 10 4 (laneUnit l.val old) 0xFFFF 0 (BitVec.ofNat 32 old) s
      .next ((s.st.running.feeds.feeds.filter (fun c => c.port.val == p)).foldl (fun s c => returnCredits c s) s)

/-! ### Flits received (R400 to R405) -/

/-- A field of a flit's header. -/
def flitField (f : List Byte) (hi lo : Nat) : Nat := bits hi lo (leNat (f.take 8))

/-- Whether a flit's CRC is right. -/
def flitCrcOk (f : List Byte) : Bool := leNat (f.drop 252) == (crc32 (f.take 252)).toNat

/-- The body of a flit. -/
def flitBody (f : List Byte) : List Byte := ((f.drop 8).take 244).take (flitField f 14 7)

/-- Whether a flit has one of the forms that R401 discards: a reserved type or bit, a type that the mode does not carry, a body beyond 244
bytes. A wall-only port carries IDLE, INIT and the wall types, and no port receives VERDICT or ADVISORY. -/
def flitBad (mode : Nat) (f : List Byte) : Bool :=
  let ty := flitField f 63 60
  decide (8 ≤ ty) || ty == 3 || ty == 4 || (mode == 2 && ty == 2) || decide (244 < flitField f 14 7) || flitField f 6 0 != 0

/-- A sequenced flit discarded until go-back-N brings it again; the first failure sends nak (R405). -/
def nakFlit (p : Nat) (s : State) : State := modPort p (fun x => { x with nakSent := true, dropped := x.dropped + 1 }) s

/-- An ack taken: the flits it covers leave the retry buffer. -/
def takeAck (ack : Nat) (x : PortSt) : PortSt :=
  { x with unacked := x.unacked.filter (fun f => !decide ((BitVec.ofNat 12 ack - f.seq).toNat < 2048)) }

/-- A nak taken: every unacknowledged flit is sent again; one that has been resent 8 times takes the port DOWN (R405). -/
def takeNak (p : Nat) (s : State) : State :=
  let x := portAt s p
  if x.unacked.any (fun f => decide (8 ≤ f.resends)) then portDown p (cntLdie (ldieOfPort p) 8 1 s)
  else putPort p { x with unacked := x.unacked.map (fun f => { f with resends := f.resends + 1 }) } s

/-- Credits that a flit returns (R403): they end the spilling of a feed, and what waits for them goes. -/
def takeCredits (p cls loc n : Nat) (s : State) : State :=
  if n = 0 ∨ cls = 0 then s
  else
    let s := modPort p (fun x => { x with held := mapMod 0 (pkey cls loc) (· + n) x.held }) s
    match (if cls = 3 then none else feedOf s p loc) with
    | some c => { s with link := { s.link with spilling := mapDel c.feed.val s.link.spilling } }
    | none => s

/-- The ack, nak and credit fields of a flit that the device accepts. -/
def takeHeader (p : Nat) (f : List Byte) (s : State) : State :=
  let s := modPort p (takeAck (flitField f 43 32)) s
  let s := if flitField f 31 31 = 1 then takeNak p s else s
  if portUp (portAt s p) then
    modPort p (pumpAll (nowNs s)) (takeCredits p (flitField f 30 29) (flitField f 28 25) (flitField f 24 15) s)
  else s

/-- A flit arrives at a port: CRC and form first (R400, R401), then the sequence number (R405), then its header, its credit and its body. A flit of
another type than the command names is no such command. -/
def flitIn (ty p : Nat) (f : List Byte) (sequenced : Bool) (body : State → State) (s : State) : State :=
  let x := portAt s p
  let l := ldieOfPort p
  if !(portUp x || x.st.val == 1) || x.mode.val == 1 || f.length != 256 then s
  else if !flitCrcOk f then nakFlit p (cntLdie l 6 1 s)
  else if flitBad x.mode.val f then nakFlit p (cntLdie l 5 1 s)
  else if flitField f 63 60 != ty then s
  else if !sequenced then body (takeHeader p f s)
  else
    let ahead := (BitVec.ofNat 12 (flitField f 55 44) - x.rxSeq).toNat
    if ahead = 0 then
      let s := if x.dropped = 0 then s else cntLdie l 7 1 s
      let s := modPort p (fun y => { y with rxSeq := y.rxSeq + 1, dropped := y.dropped - 1, nakSent := false }) s
      let s := takeHeader p f s
      if portUp (portAt s p) then body s else s
    else if ahead < 2048 then nakFlit p s
    else s

/-- IDLE (R403, R405): acks, naks and credit returns. -/
def execIdleFlit (port : LPort) (flit : List Byte) (s : State) : Out := .next (flitIn 0 port.val flit false (fun s => s) s)

/-- The credits that an INIT body grants: 16-bit counts of every local feed and class from byte 18 (log 30). -/
def initCredits (b : List Byte) : Map Nat :=
  ((List.range 16).flatMap (fun k => [1, 2, 3].map (fun c => (pkey c k, leNat ((b.drop (18 + 8 * k + 2 * c)).take 2))))).foldl
    (fun m e => mapSet e.1 e.2 m) []

/-- INIT (R402): in TRAINING the partner's parameters and credits; in an UP or DEGRADED port the partner has restarted, and the port goes DOWN. -/
def execInitFlit (port : LPort) (flit : List Byte) (s : State) : Out :=
  let x := portAt s port.val
  if portUp x && x.mode.val != 1 && flit.length == 256 && flitCrcOk flit && !flitBad x.mode.val flit && flitField flit 63 60 == 1 then
    .next (portDown port.val s)
  else
    .next (flitIn 1 port.val flit false (fun s => modPort port.val (fun y =>
      { y with initDone := true, held := initCredits (flitBody flit) }) s) s)

/-- SLICE (R398, R401, R403): an unmapped local feed discards the flit and returns its credit; without a credit it is discarded; else the body is
moved into the elastic buffer, and its credit returns. -/
def execSliceFlit (port : LPort) (flit : List Byte) (s : State) : Out :=
  .next (flitIn 2 port.val flit true (fun s =>
    let k := flitField flit 59 56
    let l := ldieOfPort port.val
    match feedOf s port.val k with
    | none => cntLdie l 10 1 s
    | some c =>
      let x := portAt s port.val
      if mapGet 0 x.granted (pkey 0 k) = 0 then cntLdie l 9 1 s
      else
        let x := { x with granted := mapMod 0 (pkey 0 k) (· - 1) x.granted, owed := mapMod 0 (pkey 0 k) (· + 1) x.owed,
                          rx := mapMod [] (pkey 2 k) (fun b => b ++ flitBody flit) x.rx }
        returnCredits c (putPort port.val x s)) s)

/-- A wall flit's body taken onto its peer's stream under a WALL credit, which returns at once; then the whole transfers of the stream. -/
def wallFlit (ty port : Nat) (flit : List Byte) (whole : Nat → WallHdr → List Byte → State → State) (s : State) : State :=
  flitIn ty port flit true (fun s =>
    let peer := flitField flit 59 56
    let x := portAt s port
    if mapGet 0 x.granted (pkey 3 peer) = 0 then cntLdie (ldieOfPort port) 9 1 s
    else
      let stream := mapGet [] x.rx (pkey ty peer) ++ flitBody flit
      let s := putPort port { x with rx := mapSet (pkey ty peer) stream x.rx } s
      transfers port (pkey ty peer) peer whole (stream.length / 64) s) s
where
  /-- The whole transfers at the front of a stream. -/
  transfers (port k peer : Nat) (whole : Nat → WallHdr → List Byte → State → State) : Nat → State → State
    | 0, s => s
    | n + 1, s =>
      let stream := mapGet [] (portAt s port).rx k
      let h := readWallHdr stream
      if stream.length < 64 ∨ stream.length < 64 + h.length then s
      else
        let s := modPort port (fun y => { y with rx := mapSet k (stream.drop (64 + h.length)) y.rx }) s
        transfers port k peer whole n (whole peer h ((stream.drop 64).take h.length) s)

/-- WALL_DATA (R416, R418): a carry that is whole runs on this device. -/
def execWallData (port : LPort) (flit : List Byte) (s : State) : Out :=
  .next (wallFlit 5 port.val flit (fun _ h bs s => if h.kind = 1 then carryIn h bs s else s) s)

/-- WALL_RESULT (R416, R419): a result that is whole retires its pallet or rolls it back. -/
def execWallResult (port : LPort) (flit : List Byte) (s : State) : Out :=
  .next (wallFlit 6 port.val flit (fun _ h bs s => if h.kind = 2 then resultIn (ldieOfPort port.val) h bs s else s) s)

/-- WALL_CTL (R415): the peer is reachable from now on. An abort in its body names a pallet whose run here has already ended or has not come
whole, and is passed over (log 33). -/
def execWallCtl (port : LPort) (flit : List Byte) (s : State) : Out :=
  .next (flitIn 7 port.val flit true (fun s =>
    let peer := flitField flit 59 56
    if mapGet 0 (portAt s port.val).granted (pkey 3 peer) = 0 then cntLdie (ldieOfPort port.val) 9 1 s
    else modWall (fun w => { w with lastCtl := mapSet peer (nowNs s) w.lastCtl }) s) s)

/-! ### Mirrored frames (R412, R413) -/

/-- Whether a frame is a PAUSE or PFC frame: a MAC control frame with opcode 0x0001 or 0x0101 (log 35). -/
def isPause (f : List Byte) : Bool :=
  beNat ((f.drop 12).take 2) == 0x8808 && (beNat ((f.drop 14).take 2) == 1 || beNat ((f.drop 14).take 2) == 0x101)

/-- The descriptor that the L-die builds for a mirrored frame. -/
def mirrorDesc (c : FeedCfg) (count : Nat) (wall : DWord) (f : List Byte) : BitVec 128 :=
  let len := f.length - 4
  let hdr := min len (c.reclen - 16)
  let ranges := (c.crcRanges.take 8).flatMap (fun r => (f.drop r.1).take r.2)
  let bad := decide (leNat (f.drop len) ≠ (crc32 (f.take len)).toNat)
  let tail := c.part.val + f.length % 2 ^ 14 * 2 ^ 10 + c.deadline.toNat * 2 ^ 24 + hdr * 2 ^ 36 + bitAt 44 (decide (c.reclen - 16 < len))
    + bitAt 45 bad
  BitVec.ofNat 128 (count % 2 ^ 24 + c.feed.val * 2 ^ 24 + wall.toNat % 2 ^ 32 * 2 ^ 32 + (crc32 ranges).toNat % 2 ^ 16 * 2 ^ 64 + tail * 2 ^ 80)

/-- MIRROR_FRAME (R412, R413): a frame of 64 to 9,216 bytes without coding errors becomes a slice of the port's mirror feed; what is too short, too
long or damaged, or finds the share full, is discarded and counted; PAUSE and PFC frames are ignored. -/
def execMirrorFrame (port : LPort) (frame : List Byte) (damaged : Bool) (s : State) : Out :=
  let x := portAt s port.val
  let l := ldieOfPort port.val
  match s.st.running.feeds.feeds.find? (fun c => c.port.val == port.val) with
  | none => .next s
  | some c =>
    if !portUp x || x.mode.val != 1 then .next s
    else if damaged || decide (frame.length < 64) || decide (9216 < frame.length) then .next (cntLdie l 13 1 s)
    else if isPause frame then .next s
    else if c.credits ≤ feedBodies s l c.feed.val then .next (cntLdie l 13 1 s)
    else
      let d := mirrorDesc c x.frameCount s.time.wall frame
      let n := c.reclen - 16
      let hdr := ((frame.take (frame.length - 4)).take n ++ List.replicate n 0).take n
      let s := putPort port.val { x with frameCount := x.frameCount + 1 } s
      .next (acceptSlice l { feed := c.feed, desc := d, hdr, tIn := s.time.wall, fail := recordCheck c.reclen c.feed.val d } s)

end Sys2Proof.Machine
end

