-- ==== Sys2Proof/Machine/Sequence.lean ====
section
/-!
DEFINITION. The sequence tier: tokens at their home S-die, contexts, sequence pallets, rollouts, envelopes and advisories (chapter 12).
-/

namespace Sys2Proof.Machine

open Sys2Proof

/-! ### Contexts (R324, R325, R328) -/

/-- A context of an S-die. -/
def ctxAt (s : State) (i k : Nat) : Option SeqContext := mapFind k (sdieAt s i).ctxs

/-- A context put back. -/
def putCtx (i k : Nat) (c : SeqContext) (s : State) : State := modSdie i (fun x => { x with ctxs := mapSet k c x.ctxs }) s

/-- A context changed. -/
def modCtx (i k : Nat) (f : SeqContext → SeqContext) (s : State) : State :=
  match ctxAt s i k with
  | some c => putCtx i k (f c) s
  | none => s

/-- The identifier of a context. -/
def ctxId (i k : Nat) : Nat := k * 4 + i

/-- A time-stamp's bits [25:10] (R325). -/
def advStamp (ts : Word) : BitVec 16 := (ts >>> 10).setWidth 16

/-- The present time-stamp. -/
def nowTs (s : State) : Word := timeStampOf s.time.wall

/-! ### Advisories (R335, R340) -/

/-- An advisory record (Table 4 of the sequence chapter). -/
def advisoryBytes (c : SeqContext) (id kind epoch tok value detail : Nat) (wall : DWord) : List Byte :=
  leBytes 8 (c.digest.toNat % 2 ^ 64) ++ leBytes 4 id ++ leBytes 2 (c.part.val + c.gen.toNat * 1024)
    ++ [BitVec.ofNat 8 kind, BitVec.ofNat 8 (b2n c.lost)] ++ leBytes 2 epoch ++ leBytes 2 tok ++ leBytes 4 value ++ leBytes 4 detail
    ++ leBytes 4 (wall.toNat % 2 ^ 32)

/-- An advisory emitted for a context: it clears ctl bit 4, sets last_adv, and is counted. -/
def emitAdvisory (i k kind epoch tok value detail : Nat) (s : State) : State :=
  match ctxAt s i k with
  | none => s
  | some c =>
    let r := advisoryBytes c (ctxId i k) kind epoch tok value detail s.time.wall
    let s := putCtx i k { c with lost := false, lastAdv := advStamp (nowTs s), advised := true } s
    sendAdvisory c.part.val r (cntSdie i 105 1 s)

/-- Whether a context's last advisory lies less than holdoff_ms before a token (R335). -/
def heldOff (s : State) (c : SeqContext) (ts : Word) : Bool :=
  c.advised && decide ((advStamp ts - c.lastAdv).toNat * 1048576 < bits 31 24 (partAt s c.part.val).seqAdv.toNat * 1000000)

/-! ### Tokens discarded and contexts lost (R327, R330, R334, R344) -/

/-- The owning flow entry leaves sequence mode (R327). -/
def clearSeq (p : Die) (r : FlowRef) (s : State) : State :=
  modPdie p.val (commitEntry (flowCtx s) r (fun e => { e with seqMode := false, seqCtx := none })) s

/-- The verdict request of a discarded token answered with source 4. -/
def answerRequest (t : TokenMsg) (src : Nat) (s : State) : State :=
  match t.req with
  | some k => answerSlot t.pdie.val k (slotAnswer src) s
  | none => s

/-- A context freed, with its shadow. -/
def freeContext (i k : Nat) (s : State) : State :=
  modSdie i (fun x => { x with ctxs := mapDel k x.ctxs, shadows := mapDel k x.shadows, fetching := x.fetching.filter (fun j => j != k),
                               writebacks := x.writebacks.filter (fun w => w.1 != k) }) s

/-- A lasting read error on a context (R344): LOST, its waiting tokens discarded, its flow out of sequence mode; an IDLE context is freed at
once, a BUSY one when its row ends. -/
def loseContext (i k : Nat) (s : State) : State :=
  match ctxAt s i k with
  | none => s
  | some c =>
    let s := emitAdvisory i k 4 c.epoch.toNat 0 0 0 (cntSdie i 107 1 s)
    let s := c.queue.foldl (fun s t => answerRequest t 4 s) s
    let s := clearSeq c.pdie c.flow s
    if c.busy then modCtx i k (fun c => { c with queue := [], markedLost := true }) s else freeContext i k s

/-- A token that fails the check of R327. -/
def staleToken (i : Nat) (t : TokenMsg) (s : State) : State :=
  answerRequest t 4 (clearSeq t.pdie t.flow (cntSdie i 103 1 s))

/-- The check of R327: valid, of the slice's partition and its current generation, of the slice's flow. -/
def tokenOk (s : State) (t : TokenMsg) (c : SeqContext) : Bool :=
  c.valid && !c.markedLost && c.part == t.part && c.gen == (partAt s t.part.val).gen && c.gen == t.gen && c.owner == t.digest.setWidth 32

/-! ### The envelope (R338, R339) -/

/-- The parts of a token: size, gap, dir, flag (Table 1). -/
def tokSize (t : BitVec 16) : Nat := bits 15 10 t.toNat
def tokGap (t : BitVec 16) : Nat := bits 9 4 t.toNat
def tokDir (t : BitVec 16) : Nat := bits 3 3 t.toNat
def tokFlag (t : BitVec 16) : Nat := bits 2 0 t.toNat

/-- What of a token lies outside the envelope, size, gap, dir, flag from bit 0 upwards. -/
def outside (c : SeqContext) (t : BitVec 16) : Nat :=
  bitAt 0 (!(decide (c.sizeLo ≤ tokSize t) && decide (tokSize t ≤ c.sizeHi)))
  + bitAt 1 (!(decide (c.gapLo ≤ tokGap t) && decide (tokGap t ≤ c.gapHi)))
  + bitAt 2 (!c.dirMask.getLsbD (tokDir t)) + bitAt 3 (!c.flagMask.getLsbD (tokFlag t))

/-- The SILENT rule (R339): overdue with tokens still to be checked. -/
def silentCheck (i k : Nat) (s : State) : State :=
  match ctxAt s i k with
  | some c =>
    if c.envValid && decide (0 < c.envLeft) && earlier c.envUntil (nowTs s) then
      emitAdvisory i k 3 c.epoch.toNat 0 c.envLeft 0 (putCtx i k { c with envValid := false } s)
    else s
  | none => s

/-- The envelope check of a real token (R339). The position in the horizon counts from 0: the horizon at the envelope's forming less what is left
(log 36). -/
def envelopeCheck (i k : Nat) (t : TokenMsg) (s : State) : State :=
  match ctxAt s i k with
  | some c =>
    if c.envValid then
      let o := outside c t.tok
      let left := c.envLeft - 1
      let h := bits 22 16 (partAt s c.part.val).seqAdv.toNat
      let s := putCtx i k { c with envLeft := left, envValid := o = 0 && left != 0 } s
      if o = 0 then s
      else if heldOff s c t.ts then cntSdie i 106 1 s
      else emitAdvisory i k 2 t.epoch.toNat t.tok.toNat ((h - c.envLeft) % 256 + o * 256) 0 s
    else s
  | none => s

/-- The upper bound of a gap bucket in time-stamp units (R321). -/
def gapUpper (b : Nat) : Nat := if b = 0 then 1 else 2 ^ ((b - 1) / 2 + 1)

/-- A mask of the values that occur. -/
def maskOf (l : List Nat) : Nat := l.dedup.foldl (fun m v => m + 2 ^ v) 0

/-- The envelope formed over the predicted tokens (R338). -/
def formEnvelope (adv : Word) (preds : List (BitVec 16)) (c : SeqContext) : SeqContext :=
  let st := bits 15 12 adv.toNat
  let gt := bits 11 8 adv.toNat
  let lo := fun (f : BitVec 16 → Nat) => (preds.map f).foldl min 63
  let hi := fun (f : BitVec 16 → Nat) => (preds.map f).foldl max 0
  { c with
    sizeLo := lo tokSize - st, sizeHi := min 63 (hi tokSize + st), gapLo := lo tokGap - gt, gapHi := min 63 (hi tokGap + gt),
    dirMask := BitVec.ofNat 2 (maskOf (preds.map tokDir)), flagMask := BitVec.ofNat 8 (maskOf (preds.map tokFlag)),
    envUntil := c.lastTs + BitVec.ofNat 32 (min (2 ^ 30) (preds.map (fun t => gapUpper (tokGap t))).sum),
    envLeft := preds.length, envValid := true, rollout := false }

/-! ### Sequence pallets (R331, R332) -/

/-- The fill timeout of a partition's sequence pallets in nanoseconds, within its bounds (R331, R390): what the loop chooses, at most
fill_q. -/
def seqFill (s : State) (p : Nat) : Nat :=
  let b := effectiveBound s 5 p
  let q := bits 19 12 (partAt s p).seqCtl.toNat * 250
  clampNat b.1 b.2 (min q (mapGet q s.loops.wish (loopKey 5 p)))

/-- The record of a sequence row (R332). -/
def seqRecord (r : SeqRow) : List Nat :=
  let ones := [tokSize r.tok, 64 + tokGap r.tok, 128 + tokDir r.tok, 130 + tokFlag r.tok] ++ (if r.rollout then [159] else [])
  (List.range 160).map (fun k => if ones.contains k then 1 else 0)

/-- A pallet changed. -/
def modSeq (i n : Nat) (f : SeqPallet → SeqPallet) (s : State) : State :=
  modSdie i (fun x => { x with seqPallets := x.seqPallets.map (fun p => if p.id = n then f p else p) }) s

/-- The group of the partition's sequence pool that a pallet takes: its own groups, or a brick of the device's pool (R334, R356). -/
def seqGroup (s : State) (part turn : Nat) : Option Group :=
  let own := ((bondOf s.st.running part).map (·.seqGroups)).getD []
  let gs := (if own.isEmpty then s.st.running.bond.seqPool.map (fun b => ({ bricks := [b] } : Group)) else own).filter (groupServes s)
  gs[if gs.length = 0 then 0 else turn % gs.length]?

/-- The rows of a pallet discarded: requests answered with source 4, contexts IDLE again with ctl bit 4 set (R334). -/
def dropSeqRows (i : Nat) (p : SeqPallet) (s : State) : State :=
  let s := p.rows.foldl (fun s r =>
    let s := match r.msg with
      | some t => answerRequest t 4 s
      | none => s
    if r.rollout then s else modCtx i r.ctx (fun c => { c with busy := false, lost := true }) s) s
  modSdie i (fun x => { x with seqPallets := x.seqPallets.filter (fun q => q.id != p.id) }) s

/-- The C-die toward which an unsent pallet waits, full or timed out, once its window has room. -/
def seqWaitsFor (s : State) (p : SeqPallet) : Option Nat :=
  if p.sent || (decide (p.rows.length < 128) && decide (nowNs s < p.firstNs + seqFill s p.part.val)) then none
  else (seqGroup s p.part.val p.id).bind (fun g =>
    let bs := groupBricks s [g]
    if bs.any (windowFull s g.window) then none else bs.head?.map (· / 16))

/-- An unsent pallet sent to the pool, unless the pending set of its window is still full (R331) or it is another partition's turn toward its C-die
(R437). Without a pool its rows are discarded. -/
def trySend (i n : Nat) (s : State) : State :=
  match (sdieAt s i).seqPallets.find? (fun p => p.id == n && !p.sent) with
  | none => s
  | some p =>
    match seqGroup s p.part.val n with
    | none => dropSeqRows i p s
    | some g =>
      let bs := groupBricks s [g]
      let c := bs.headD 0 / 16
      let others := (sdieAt s i).seqPallets.filterMap (fun q => if seqWaitsFor s q == some c then some q.part.val else none)
      let pick := arbiterPick s (sdieAt s i).turns c (p.part.val :: others)
      if bs.any (windowFull s g.window) || pick.map (·.1) != some p.part.val then s
      else
        let s := modSdie i (fun x => { x with turns := arbiterTake c p.part.val (pick.any (·.2)) x.turns }) s
        let pal : Pallet :=
          { part := p.part, target := 0, epoch := p.epoch, structEpoch := p.structEpoch, seqNo := n,
            rows := p.rows.map (fun r => { slot := none, record := seqRecord r, snap := {} }), params := ((epochAt s p.part.val p.epoch).map (·.params)).getD [] }
        let f := takeFree s
        let s := loopOutput 5 p.part.val (f.1.toNat % 256 * 250) f.2
        let s := modSeq i n (fun q => { q with sent := true, bricks := bs, params := ((epochAt s p.part.val p.epoch).map (·.params)).getD [] }) s
        let s := bs.foldl (fun s b => dispatchTo i g.window pal b s) s
        wakeAfter g.lockstep bs s

/-- A row put into its partition's and epoch's open pallet; one of 128 rows is sent. -/
def joinSeq (i : Nat) (part : Part) (epoch : BitVec 16) (se : Word) (r : SeqRow) (s : State) : State :=
  let x := sdieAt s i
  match x.seqPallets.find? (fun p => !p.sent && p.part == part && p.epoch == epoch && decide (p.rows.length < 128)) with
  | some p =>
    let s := modSeq i p.id (fun q => { q with rows := q.rows ++ [r] }) s
    if p.rows.length + 1 = 128 then trySend i p.id s else s
  | none =>
    putSdie i
      { x with seqPallets := x.seqPallets ++ [{ id := x.nextPallet, part, epoch, structEpoch := se, rows := [r], firstNs := nowNs s }],
               nextPallet := (x.nextPallet + 1) % 2 ^ 32 } s

/-- Whether the image of an epoch keeps states across epochs (R333). -/
def keepsState (s : State) (p : Nat) (e : BitVec 16) : Bool := ((epochAt s p e).map (fun x => x.vd.stateKeep)).getD false

/-- A token advanced (R328, R330, R333, R336, R339): the SILENT and envelope checks, the state reset of another epoch, and its scoring row. -/
def advanceToken (i k : Nat) (t : TokenMsg) (s : State) : State :=
  let s := envelopeCheck i k t (silentCheck i k s)
  match ctxAt s i k with
  | none => s
  | some c =>
    let reset := c.epoch != 0 && c.epoch != t.epoch && !keepsState s t.part.val t.epoch
    let s := if reset then cntSdie i 104 1 s else s
    let s := putCtx i k { c with state := if reset then List.replicate 512 0 else c.state, lastTs := t.ts,
                                 tokens := if c.tokens = 0xFFFFFFFF then c.tokens else c.tokens + 1, busy := true,
                                 lastUseNs := nowNs s } s
    joinSeq i t.part t.epoch t.structEpoch { ctx := k, tok := t.tok, msg := some t, starts := !c.envValid && !c.rollout }
      (cntSdie i 100 1 s)

/-- The next waiting token of an IDLE hot context advanced. -/
def nextToken (i k : Nat) (s : State) : State :=
  match ctxAt s i k with
  | some c =>
    if c.busy || !c.hot then s
    else match c.queue with
      | t :: rest => advanceToken i k t (putCtx i k { c with queue := rest } s)
      | [] => s
  | none => s

/-- The verdict requests of a partition that wait at an S-die (R334). -/
def requestsWaiting (x : SDie) (p : Part) : Nat :=
  (x.ctxs.map (fun c => (c.2.queue.filter (fun t => t.part == p && t.req.isSome)).length)).sum
  + (x.seqPallets.map (fun q => (q.rows.filter (fun r => match r.msg with
      | some t => t.part == p && t.req.isSome
      | none => false)).length)).sum

/-- A token that may not be taken on: discarded, its context told that tokens were discarded (R330, R334). -/
def dropToken (i k : Nat) (t : TokenMsg) (s : State) : State := answerRequest t 4 (modCtx i k (fun c => { c with lost := true }) s)

/-- A token taken on by its context: queued while the context is BUSY, cold or has tokens waiting, else advanced (R329, R330). -/
def takeToken' (i k : Nat) (t : TokenMsg) (c : SeqContext) (s : State) : State :=
  if c.busy || !c.hot || !c.queue.isEmpty then
    if 7 ≤ c.queue.length ∨ 262144 ≤ ((sdieAt s i).ctxs.map (fun x => x.2.queue.length)).sum then dropToken i k t (cntSdie i 102 1 s)
    else
      let s := putCtx i k { c with queue := c.queue ++ [t] } s
      if c.hot || (sdieAt s i).fetching.contains k then s
      else cntSdie i 101 1 (modSdie i (fun x => { x with fetching := x.fetching ++ [k] }) s)
  else advanceToken i k t s

/-- TOKEN_ARRIVE (R327, R330, R334, R344): the oldest token on its way reaches its home S-die. `damaged` says that its context reads with a lasting
error. -/
def execTokenArrive (sdie : Die) (damaged : Bool) (s : State) : Out :=
  let i := sdie.val
  let x := sdieAt s i
  match x.tokens with
  | [] => .next s
  | t :: rest =>
    let s := putSdie i { x with tokens := rest } s
    let k := t.ctx.toNat / 4
    match (if x.lost then none else ctxAt s i k) with
    | none => .next (staleToken i t s)
    | some c =>
      if !tokenOk s t c then .next (staleToken i t s)
      else if damaged then .next (answerRequest t 4 (loseContext i k s))
      else
        match epochAt s t.part.val t.epoch with
        | none => .next (dropToken i k t s)
        | some e =>
          if !seqServes s t.part.val e then .next (dropToken i k t s)
          else
            let over_ := t.req.isSome && decide (1024 ≤ requestsWaiting (sdieAt s i) t.part)
            let s := if over_ then answerRequest t 4 s else s
            .next (takeToken' i k (if over_ then { t with req := none } else t) c s)

/-! ### Fetches and write-backs (R328, R329) -/

/-- The least recently used way of a context's set that holds no BUSY context. -/
def evictable (x : SDie) (k : Nat) : Option Nat :=
  ((x.ctxs.filter (fun c => c.1 % 32768 == k % 32768 && c.2.hot && !c.2.busy)).foldl (fun best c => match best with
    | none => some c
    | some b => if c.2.lastUseNs < b.2.lastUseNs then some c else some b) none).map (·.1)

/-- CONTEXT_FETCHED (R329, R344): a cold context lands in the hot tier in the least recently used way that is not BUSY, whose context is written back;
a lasting error loses it. -/
def execContextFetched (sdie : Die) (ctx : Nat) (ecc : EccOutcome) (s : State) : Out :=
  let i := sdie.val
  let x := sdieAt s i
  if !x.fetching.contains ctx then .next s
  else
    let done := fun (s : State) => modSdie i (fun y => { y with fetching := y.fetching.filter (fun j => j != ctx) }) s
    match ecc with
    | .failed => .next (loseContext i ctx (cntSdie i 6 1 (done s)))
    | _ =>
      let s := match ecc with
        | .corrected => cntSdie i 4 1 s
        | .retried => cntSdie i 5 1 s
        | _ => s
      let land := fun (s : State) => nextToken i ctx (modCtx i ctx (fun c => { c with hot := true, lastUseNs := nowNs s }) (done s))
      if hotInSet x ctx < 16 then .next (land s)
      else match evictable x ctx with
        | some old => .next (land (modCtx i old (fun c => { c with hot := false }) s))
        | none => .next s

/-- CONTEXT_WRITEBACK (R328): the state write-back of a context's row is acknowledged. The context returns to IDLE with the new state, or is freed
where it is marked lost or met a condition for freeing while it was BUSY. -/
def execContextWriteback (sdie : Die) (ctx : Nat) (s : State) : Out :=
  let i := sdie.val
  match (sdieAt s i).writebacks.find? (fun w => w.1 == ctx), ctxAt s i ctx with
  | some w, some c =>
    if c.markedLost || (c.freeWhenIdle && c.queue.isEmpty) then .next (freeContext i ctx s)
    else
      let s := modSdie i (fun x => { x with writebacks := x.writebacks.filter (fun w => w.1 != ctx) }) s
      .next (nextToken i ctx (putCtx i ctx { c with busy := false, state := w.2.1, epoch := w.2.2 } s))
  | _, _ => .next s

/-- SEQ_FILL_TIMEOUT (R331): the oldest unsent pallet of a partition goes once it is full or its fill timeout has run. -/
def execSeqFillTimeout (sdie : Die) (part : Part) (s : State) : Out :=
  match (sdieAt s sdie.val).seqPallets.find? (fun p => p.part == part && !p.sent) with
  | some p =>
    if 128 ≤ p.rows.length ∨ p.firstNs + seqFill s part.val ≤ nowNs s then .next (trySend sdie.val p.id s) else .next s
  | none => .next s

/-! ### Results (R331, R334 to R338) -/

/-- The integer of 0 to 65,535 that an FP32 value is exactly, if it is one (R337). -/
def exactToken (w : Word) : Option (BitVec 16) :=
  if !isFinite32 w then none
  else
    let v := val32 w
    let n := rnaInt v
    if (dyAdd v (dyNeg (dyInt n))).m = 0 ∧ 0 ≤ n ∧ n ≤ 65535 then some (BitVec.ofNat 16 n.toNat) else none

/-- Whether a surprise value reaches the threshold: a NaN never does (R335). -/
def reaches (a th : Word) : Bool := !isNan32 a && !fpLess (fpRead fp32 a.toNat).1 (fpRead fp32 th.toNat).1

/-- The SURPRISE rule on one scoring row (R335). -/
def surpriseRow (i : Nat) (p : SeqPallet) (env : HEnv) (r : Nat) (k : Nat) (t : TokenMsg) (s : State) : State :=
  match env.surprise with
  | none => s
  | some (as, bs) =>
    let a := as.getD r 0
    match ctxAt s i k with
    | none => s
    | some c =>
      if reaches a (partAt s p.part.val).seqThresh then
        if heldOff s c t.ts then cntSdie i 106 1 s
        else emitAdvisory i k 1 p.epoch.toNat t.tok.toNat a.toNat (bs.getD r 0).toNat s
      else s

/-- A rollout starts once the scoring row of its token has completed: the shadow takes the row's state, and its first row (R336, R337). -/
def startRollout (i k : Nat) (p : SeqPallet) (t : TokenMsg) (state : List Nat) (s : State) : State :=
  let x := sdieAt s i
  let w := (partAt s p.part.val)
  if !bit 30 w.seqCtl.toNat || decide (4096 ≤ x.shadows.length) || (ctxAt s i k).isNone then s
  else
    let s := modSdie i (fun x => { x with shadows := mapSet k { state, left := max 1 (bits 22 16 w.seqAdv.toNat), tok := t.tok } x.shadows }) s
    let s := modCtx i k (fun c => { c with rollout := true }) s
    joinSeq i p.part p.epoch p.structEpoch { ctx := k, tok := t.tok, rollout := true } s

/-- A scoring row's results. -/
def scoringRow (i : Nat) (p : SeqPallet) (ep : ModelEpoch) (env : HEnv) (row : SeqRow) (r : Nat) (s : State) : State :=
  match row.msg, ctxAt s i row.ctx with
  | some t, some c =>
    let s := match t.req with
      | some k =>
        match mapFind k (pdieAt s t.pdie.val).slots, env.emit with
        | some z, some es =>
          let e := es.getD r (0, 0)
          answerSlot t.pdie.val k (fun _ => mapAnswer 2 ep.vd.seqMap z e.1 e.2 (env.absent.getD r false)) s
        | _, _ => answerRequest t 4 s
      | none => s
    if c.markedLost then freeContext i row.ctx s
    else
      let s := surpriseRow i p env r row.ctx t s
      let state := match env.newCtx with
        | some st => st.getD r c.state
        | none => c.state
      let e := if env.newCtx.isSome then p.epoch else c.epoch
      let s := modSdie i (fun x => { x with writebacks := x.writebacks ++ [(row.ctx, state, e)] }) s
      if row.starts then startRollout i row.ctx p t state s else s
  | some t, none => answerRequest t 4 s
  | none, _ => s

/-- A rollout row's results (R337, R338). -/
def rolloutRow (i : Nat) (p : SeqPallet) (env : HEnv) (row : SeqRow) (r : Nat) (s : State) : State :=
  match mapFind row.ctx (sdieAt s i).shadows with
  | none => s
  | some sh =>
    let drop := fun (s : State) => modCtx i row.ctx (fun c => { c with rollout := false })
      (modSdie i (fun x => { x with shadows := mapDel row.ctx x.shadows }) s)
    match env.predict.bind (fun a => exactToken (a.getD r 0x7FC00000)) with
    | none => drop (cntSdie i 110 1 s)
    | some tok =>
      let state := match env.newCtx with
        | some st => st.getD r sh.state
        | none => sh.state
      let preds := sh.preds ++ [tok]
      if sh.left ≤ 1 then
        cntSdie i 109 1 (modCtx i row.ctx (formEnvelope (partAt s p.part.val).seqAdv preds) (drop s))
      else
        let s := modSdie i (fun x => { x with shadows := mapSet row.ctx { state, left := sh.left - 1, tok, preds } x.shadows }) s
        joinSeq i p.part p.epoch p.structEpoch { ctx := row.ctx, tok, rollout := true } s

/-- A failed pallet rolled back: it runs again from its tokens and the unchanged states; the rows of contexts marked lost are not run again
(R328, R331). -/
def rerunSeq (i : Nat) (p : SeqPallet) (s : State) : State :=
  let lost := fun (r : SeqRow) => !r.rollout && ((ctxAt s i r.ctx).map (·.markedLost)).getD false
  let s := (p.rows.filter lost).foldl (fun s r => freeContext i r.ctx (match r.msg with
    | some t => answerRequest t 4 s
    | none => s)) s
  let keep := p.rows.filter (fun r => !lost r)
  if keep.isEmpty then modSdie i (fun x => { x with seqPallets := x.seqPallets.filter (fun q => q.id != p.id) }) s
  else trySend i p.id (modSeq i p.id (fun q => { q with rows := keep, sent := false, failed := false, bricks := [] }) s)

/-- SEQ_PALLET_RESULT (R331, R334 to R337): the results of a sequence pallet: verdicts, advisories, state write-backs and rollout rows; a failed pallet
runs again. -/
def execSeqPalletResult (sdie : Die) (pallet : Nat) (s : State) : Out :=
  let i := sdie.val
  match (sdieAt s i).seqPallets.find? (fun p => p.id == pallet && p.sent) with
  | none => .next s
  | some p =>
    if p.failed then .next (rerunSeq i p s)
    else
      match epochAt s p.part.val p.epoch, (epochAt s p.part.val p.epoch).bind (fun e => e.vd.seqCode) with
      | some ep, some c =>
        let r := programParams c p.params s
        let s := r.2
        let states := p.rows.map (fun q => if q.rollout then
            ((mapFind q.ctx (sdieAt s i).shadows).map (·.state)).getD (List.replicate 512 0)
          else ((ctxAt s i q.ctx).map (·.state)).getD (List.replicate 512 0))
        let cx := { modelCtx ep c r.1 [] with ctxs := states, snaps := p.rows.map (fun q => q.msg.map (·.snap)) }
        let env := hProgram cx 1 (p.rows.map seqRecord) (List.replicate 5 0x78)
        let s := modSdie i (fun x => { x with seqPallets := x.seqPallets.filter (fun q => q.id != pallet) }) s
        let s := p.bricks.foldl (fun s b => modBrick b (stick env.flags) s) s
        let s := match p.bricks.head? with
          | some b => modBrick b (addStats p.part p.epoch env.stats) s
          | none => s
        let s := (p.rows.zipIdx).foldl (fun s q => if q.1.rollout then rolloutRow i p env q.1 q.2 s else scoringRow i p ep env q.1 q.2 s) s
        let s := p.bricks.foldl (fun s b => (List.finRange 4).foldl (fun s w => closeReplay pallet w b s) s) s
        .next s
      | _, _ => .next (dropSeqRows i p s)

/-! ### The sweeper (R329, R339, R345) -/

/-- The next context that a sweep visits: the first index from a position upwards that is not FREE, wrapping. -/
def nextCtx (x : SDie) : Option Nat :=
  match (x.ctxs.map (·.1)).find? (fun k => decide (x.sweepPos ≤ k)) with
  | some k => some k
  | none => (x.ctxs.map (·.1)).head?

/-- CONTEXT_SWEEP (R328, R329, R339, R345): the sweeper visits the next context: stale or aged, it is freed, when IDLE at once; else the SILENT rule. -/
def execContextSweep (sdie : Die) (s : State) : Out :=
  let i := sdie.val
  let x := sdieAt s i
  match nextCtx x with
  | none => .next s
  | some k =>
    let s := putSdie i { x with sweepPos := k + 1 } s
    match ctxAt s i k with
    | none => .next s
    | some c =>
      let w := partAt s c.part.val
      let idle := bits 11 0 w.seqCtl.toNat
      let stale_ := c.gen != w.gen || c.freeWhenIdle
      let s := if stale_ then s else silentCheck i k s
      let aged_ := !stale_ && idle != 0 && decide (idleUnits (min 3600 idle) ≤ ageOf (nowTs s) c.lastTs)
      let s := if aged_ then cntSdie i 108 1 s else s
      if stale_ || aged_ then
        (if c.busy then .next (modCtx i k (fun c => { c with freeWhenIdle := true }) s)
         else .next (freeContext i k (c.queue.foldl (fun s t => answerRequest t 4 s) s)))
      else .next s

end Sys2Proof.Machine
end

