-- ==== Sys2Proof/Machine/Translate.lean ====
section
/-!
DEFINITION. What the loader and the translator refuse of a model image's contents: the checks of stored codes and tables (R122, R129, R130,
R138, R150, R154, R224) and the refusals that the words themselves decide (Table 9 of the Hykai chapter; R273, R277 to R280, R559, R560).
-/

namespace Sys2Proof.Machine

open Sys2Proof

/-! ### Contents of a code section (R122, R129, R130, R138, R150, R154, R224) -/

/-- The tensors of a kind, with their indices. -/
def tensorsOf (c : HCtx) (kind : Nat) : List (TensorDesc × Nat) := c.code.tensors.zipIdx.filter (fun t => t.1.kind == kind)

/-- Whether a weight tensor holds narrow codes. -/
def narrowWeight (t : TensorDesc) : Bool := decide (t.format ≤ 1) && decide (t.g ≤ 2)

/-- The stored code of a weight, bits as stored. -/
def storedCode (c : HCtx) (t : TensorDesc) (k n : Nat) : Nat :=
  let rb := ceilDiv (t.dim0 * (hElem t).bits) 8
  unpack (hElem t) ((c.data.drop (t.dataOff + n * rb)).take rb) k

/-- Whether a stored T2 weight tensor contains code 0b10 (R122). -/
def badT2 (c : HCtx) (t : TensorDesc) : Bool :=
  t.format == 1 && (List.range t.dim1).any (fun n => (List.range t.dim0).any (fun k => storedCode c t k n == 2))

/-- Whether the stored column sums differ from the sums of the weight codes (R130). -/
def badColSums (c : HCtx) (t : TensorDesc) : Bool :=
  narrowWeight t && (List.range (hGroups t)).any (fun g => (List.range t.dim1).any (fun n =>
    let ks := (rangeFrom (g * hGroup t) (hGroup t)).filter (fun k => decide (k < t.dim0))
    hColSum c t g n != (ks.map (fun k => hWeight c t k n)).sum))

/-- Whether a weight tensor's outlier channels break R138: a main-array code that is not 0, the quartered layout, or no buttress. -/
def badOutliers (buttress : Bool) (c : HCtx) (t : TensorDesc) : Bool :=
  t.outliers && (!buttress || c.code.layout != 0 || (List.range (hTiles c t)).any (fun i => (List.range 8).any (fun j =>
    match hChannel c (hWMap t) (hTile c t) i j with
    | some k => (List.range t.dim1).any (fun n => hWeight c t k n != 0)
    | none => false)))

/-- Whether an output multiplier is zero, negative, subnormal, infinite or NaN (R150). -/
def badMult (m : Word) : Bool := bit 31 m.toNat || bits 30 23 m.toNat == 0 || bits 30 23 m.toNat == 255

/-- Whether a QUANT target's multipliers are refused (R150). -/
def badMults (c : HCtx) (t : TensorDesc) : Bool :=
  t.multEn && (List.range t.dim1).any (fun n => badMult (hData32 c (t.auxOff + 4 * n)))

/-- Whether a lookup table is refused (R224): 63 breakpoints strictly ascending, then 64 slopes and intercepts, all finite. -/
def badTable (ws : List Word) : Bool :=
  ws.any (fun w => !isFinite32 w)
  || (List.range 62).any (fun i => !dyLt (val32 (ws.getD i 0)) (val32 (ws.getD (i + 1) 0)))

/-- Whether a record's map is refused (R129): reserved bits, group scales, offsets; K_rec a multiple of G and at most 1,024. -/
def badRecord (c : HCtx) (i : Nat) : Bool :=
  let t := hTensor c i
  decide (1024 < t.dim1) || t.dim1 % hGroup t != 0
  || (recordMap c.code c.data i).any (fun e => bits 14 9 e != 0)
  || (recordScales c.code c.data i).any (fun x => x == 0 || s8Reserved x)
  || (recordOffsets c.code c.data i).any (fun o => !isFinite32 o)

/-- The elements of one row that a statistics set may temper. -/
def temperable (c : HCtx) (d : StatDesc) : Nat :=
  if d.temper then
    let t := hTensor c d.tensor
    min t.dim1 ((d.gLast + 1) * hGroup t) - d.gFirst * hGroup t
  else 0

/-- Whether a statistics-set descriptor is refused (R154). -/
def badStat (c : HCtx) (d : StatDesc) : Bool :=
  let t := hTensor c d.tensor
  !c.code.words.any (fun w => hOp w == 0x24 && hD w == d.tensor) || decide (d.gLast < d.gFirst) || decide (ceilDiv t.dim1 (hGroup t) ≤ d.gLast)
  || d.reservedBits || (d.outlier && d.temper) || bit 31 d.threshold.toNat || !isFinite32 d.threshold || d.threshold == 0

/-- Whether the statistics sets are refused: at most 8, each accepted, at most 8,192 temperable elements in a row. -/
def badStats (c : HCtx) (ds : List StatDesc) : Bool :=
  decide (8 < ds.length) || ds.any (badStat c) || decide (8192 < (ds.map (temperable c)).sum)

/-- Whether the contents of a code section with its data are refused. -/
def codeContentBad (buttress : Bool) (c : HCtx) : Bool :=
  (tensorsOf c 1).any (fun t => badT2 c t.1 || badColSums c t.1 || badOutliers buttress c t.1)
  || (tensorsOf c 2).any (fun t => badMults c t.1) || (tensorsOf c 3).any (fun t => badRecord c t.2)
  || (tensorsOf c 6).any (fun t => badTable (hTable c t.2))

/-! ### Translator refusals of the tables (Table 9 of the Hykai chapter) -/

/-- A refusal: code, stage, word. -/
structure XlFail where
  code : Nat
  stage : Nat := 0
  word : Nat := 0
  deriving DecidableEq, Repr

/-- The first refusal of a list of tests. -/
def firstFail (l : List (Bool × XlFail)) : Option XlFail := (l.find? (·.1)).map (·.2)

/-- A tensor's own kind, format and group size (R272, R273). -/
def tensorOk (t : TensorDesc) : Bool :=
  match t.kind with
  | 0 => true
  | 1 => (decide (t.format ≤ 1) && decide (t.g ≤ 2)) || (t.format == 3 && t.g == 3 && t.dim0 == 1)
  | 2 => decide (t.format ≤ 2) && decide (t.g ≤ 2)
  | 3 => t.format == 0
  | 4 => t.format == 3 || t.format == 4
  | 5 => t.format == 4
  | 6 => t.format == 3
  | 7 => t.format == 3
  | _ => false

/-- A tensor's own shape (R272). -/
def tensorShape (t : TensorDesc) : Bool :=
  match t.kind with
  | 2 => t.rank == 2 && t.dim0 == 128
  | 3 => t.rank == 2 && t.dim0 == 128
  | 4 => t.rank == 2 && (t.dim0 == 128 || t.dim0 == 1)
  | 7 => t.rank == 2 && (t.dim0 == 128 || t.dim0 == 1)
  | 5 => t.rank == 0
  | 0 => true
  | _ => t.rank == 2

/-- The refusals of the header and the tables. -/
def headerFail (c : HykaiCode) : Option XlFail :=
  firstFail [
    (c.magic != 0x31594B48 || c.layoutBroken || decide (1 < c.layout) || c.tensors.isEmpty || decide (4096 < c.tensors.length)
      || c.stages.isEmpty || decide (16 < c.stages.length) || c.words.isEmpty || decide (262144 < c.words.length)
      || c.tensors.any (·.reservedBits) || c.stages.any (fun d => d.reservedBits || decide (c.words.length < d.first + d.count)), { code := 1 }),
    (c.major != 1 || c.minor != 0, { code := 2 }),
    (decide (8 < c.paramCount) || c.params.any (fun p => decide (1 < p.source) || decide (7 < p.number))
      || !(c.params.map (·.number)).Nodup, { code := 0x0C }),
    (!c.tensors.all tensorOk, { code := 4 }),
    (!c.tensors.all tensorShape, { code := 5 })]

/-! ### Words (R274, Table 4) -/

/-- The fields a word may use: mod, a, b, d, imm. -/
def usedFields (w : DWord) : Option (Bool × Bool × Bool × Bool × Bool) :=
  match hOp w with
  | 0x00 => some (false, false, false, false, false)
  | 0x01 => some (false, false, false, false, true)
  | 0x02 => some (false, false, false, false, false)
  | 0x03 => some (if hMod w = 0 then (false, false, false, false, true) else (true, true, false, false, false))
  | 0x04 => some (false, false, false, false, false)
  | 0x05 => some (false, true, false, false, false)
  | 0x06 => some (false, false, false, false, false)
  | 0x07 => some (false, false, false, false, false)
  | 0x08 => some (false, false, false, false, true)
  | 0x10 => some (true, true, true, true, false)
  | 0x11 => some (true, false, false, true, true)
  | 0x12 => some (true, false, false, true, true)
  | 0x20 => some (true, true, true, true, false)
  | 0x21 => some (true, true, false, true, false)
  | 0x22 => some (true, true, decide (hMod w ≤ 4), true, false)
  | 0x23 => some (false, true, true, true, false)
  | 0x24 => some (false, true, false, true, false)
  | 0x25 => some (false, true, false, true, false)
  | 0x26 => some (false, true, false, true, false)
  | 0x27 => some (false, true, false, true, false)
  | 0x30 => some (false, false, false, true, true)
  | 0x31 => some (false, true, true, false, false)
  | 0x38 => some (false, true, false, false, false)
  | 0x39 => some (false, true, true, false, true)
  | 0x3A => some (false, false, false, true, false)
  | 0x3B => some (false, true, false, false, false)
  | _ => none

/-- The greatest mod and imm of an opcode. -/
def modLimit (op : Nat) : Nat :=
  match op with
  | 0x10 => 10
  | 0x22 => 7
  | _ => 1

/-- Whether a word breaks the rules of its opcode: XL_OPCODE. `slow` is the slow-path stage, in which FSTORE reads b. -/
def badWord (slow : Bool) (w : DWord) : Bool :=
  match usedFields w with
  | none => true
  | some (m, a, b, d, i) =>
    (!m && hMod w != 0) || decide (modLimit (hOp w) < hMod w) || (!a && hA w != 0) || ((!b || (hOp w == 0x31 && !slow)) && hB w != 0)
    || (!d && hD w != 0) || (!i && hImm w != 0)
    || (hOp w == 0x03 && hMod w == 0 && hImm w == 0) || (hOp w == 0x08 && decide (3 < hImm w))
    || (hOp w == 0x12 && decide (7 < hImm w)) || (hOp w == 0x30 && decide (41 < hImm w))

/-- The tensors that a word reads. -/
def wordReads (slow : Bool) (w : DWord) : List Nat :=
  match hOp w with
  | 0x03 => if hMod w = 1 then [hA w] else []
  | 0x05 => [hA w]
  | 0x10 => [hA w, hB w]
  | 0x11 => if hMod w = 1 then [hD w] else []
  | 0x20 => [hA w, hB w] ++ (if hMod w = 1 then [hD w] else [])
  | 0x21 => [hA w, hD w]
  | 0x22 => if hMod w ≤ 4 then [hA w, hB w] else [hA w]
  | 0x23 => [hA w, hB w]
  | 0x24 => [hA w]
  | 0x25 => [hA w]
  | 0x26 => [hA w]
  | 0x27 => [hA w]
  | 0x31 => if slow then [hA w, hB w] else [hA w]
  | 0x38 => [hA w]
  | 0x39 => [hA w, hB w]
  | 0x3B => [hA w]
  | _ => []

/-- The tensor that a word writes. -/
def wordWrites (w : DWord) : Option Nat :=
  if [0x10, 0x11, 0x12, 0x20, 0x21, 0x22, 0x23, 0x24, 0x25, 0x26, 0x27, 0x30, 0x3A].contains (hOp w) then some (hD w) else none

/-- An FP32 accumulator or output tensor. -/
def fpRows (t : TensorDesc) : Bool := (t.kind == 4 || t.kind == 7) && t.format == 3

/-- Whether an operand's kind or format is not allowed for its word (R273). -/
def badOperand (c : HykaiCode) (slow : Bool) (w : DWord) : Bool :=
  let t := fun (i : Nat) => c.tensors.getD i { kind := 0, format := 0 }
  let a := t (hA w)
  let b := t (hB w)
  let d := t (hD w)
  let fpW := fun (x : TensorDesc) => x.kind == 1 && x.format == 3
  let acc := fun (x : TensorDesc) => x.kind == 4 && x.format == 3
  (wordReads slow w ++ (wordWrites w).toList).any (fun i => decide (c.tensors.length ≤ i)) ||
  (match hOp w with
   | 0x03 => hMod w == 1 && a.kind != 5
   | 0x05 => a.kind != 5
   | 0x10 => a.kind != 5 || b.kind != 5 || d.kind != 5
   | 0x11 => d.kind != 5
   | 0x12 => d.kind != 5
   | 0x20 => !(a.kind == 3 || (a.kind == 2 && decide (a.format ≤ 1))) || !(b.kind == 1 && decide (b.format ≤ 1)) || !acc d
   | 0x21 => !(fpW a || fpRows a) || !acc d
   | 0x22 => !fpRows a || !fpRows d || (decide (hMod w ≤ 4) && !(fpRows b || fpW b))
   | 0x23 => !fpRows a || !fpRows d || b.kind != 6
   | 0x24 => !acc a || d.kind != 2
   | 0x25 => a.kind != 2 || !acc d
   | 0x26 => !acc a || !acc d
   | 0x27 => !acc a || !acc d
   | 0x30 => d.kind != 4
   | 0x31 => a.kind != 4 || (slow && b.kind != 4)
   | 0x38 => !fpRows a
   | 0x39 => a.kind != 7 || b.kind != 7
   | 0x3A => d.kind != 2
   | 0x3B => a.kind != 2
   | _ => false)

/-- Whether a word's shapes break R277, with the shapes that Table 4 gives. -/
def badShape (c : HykaiCode) (slow : Bool) (w : DWord) : Bool :=
  let t := fun (i : Nat) => c.tensors.getD i { kind := 0, format := 0 }
  let a := t (hA w)
  let b := t (hB w)
  let d := t (hD w)
  let same := fun (x y : TensorDesc) => x.dim0 == y.dim0 && x.dim1 == y.dim1
  let is := fun (x : TensorDesc) (r n : Nat) => x.dim0 == r && x.dim1 == n
  match hOp w with
  | 0x20 => a.dim1 != b.dim0 || d.dim1 != b.dim1 || d.dim0 != 128
  | 0x21 => a.dim0 != 1 || a.dim1 != d.dim1 || d.dim0 != 128
  | 0x22 => !same a d || (decide (hMod w ≤ 4) && (!(same b a || (b.dim0 == 1 && b.dim1 == a.dim1))))
  | 0x23 => !same a d
  | 0x24 => !same a d
  | 0x25 => !same a d
  | 0x26 => a.dim0 != 128 || !is d 128 1
  | 0x27 => a.dim0 != 128 || !is d 128 1
  | 0x30 => !is d 128 1
  | 0x31 => !is a 128 4 || (slow && !is b 128 16)
  | 0x38 => a.dim0 != 128 || a.dim1 == 0 || decide (16 < a.dim1)
  | 0x39 => a.dim0 != 128 || b.dim0 != 128
  | _ => false

/-- Whether a MATMUL's groups break R135 or R277. -/
def badGroup (c : HykaiCode) (w : DWord) : Bool :=
  let t := fun (i : Nat) => c.tensors.getD i { kind := 0, format := 0 }
  let a := t (hA w)
  let b := t (hB w)
  hOp w == 0x20 && (a.g != b.g || b.dim0 % (32 * 2 ^ b.g) != 0 || (b.format == 1 && b.g == 0 && c.layout == 0))

/-- Whether a MATMUL has outliers in a quartered image. -/
def badLayout (c : HykaiCode) (w : DWord) : Bool :=
  hOp w == 0x20 && c.layout != 0 && ((c.tensors.getD (hA w) { kind := 0, format := 0 }).outliers || (c.tensors.getD (hB w) { kind := 0, format := 0 }).outliers)

/-- Whether a word is used in a stage kind that does not allow it (R559). -/
def badUse (kind : Nat) (w : DWord) : Bool :=
  ([0x39, 0x3A, 0x3B].contains (hOp w) && kind != 1) || (hOp w == 0x31 && kind == 1)

/-! ### Paths through a stage (R273, R279, R560) -/

/-- A list of tensors without one of two: what both paths have written. -/
def bothOf (x y : List Nat) : List Nat := x.filter (fun i => y.contains i)

/-- The number under which the outlier exponents of an ACT tensor count as written. -/
def expsOf (i : Nat) : Nat := i + 4096

/-- An open LOOP or IF: whether it is an IF, whether its count comes from a SCALAR, its count, what had been written and emitted before it, and
for an ELSE what its first branch wrote and emitted. -/
structure XFrame where
  isIf : Bool
  scalar : Bool := false
  count : Nat := 1
  before : List Nat
  emits : Nat × Nat
  first : Option (List Nat × (Nat × Nat)) := none
  deriving DecidableEq, Repr

/-- Where the analysis of a stage stands: what is written on every path, the fewest and most EMITs, the open frames, the first refusal. -/
structure XPath where
  written : List Nat
  emits : Nat × Nat := (0, 0)
  open_ : List XFrame := []
  fail : Option (Nat × Nat) := none
  deriving DecidableEq, Repr

/-- The EMITs of a body taken n times; a count from a SCALAR may be anything. -/
def timesEmits (f : XFrame) (e : Nat × Nat) : Nat × Nat :=
  if f.scalar then (0, if e.2 = 0 then 0 else 2) else (min 2 (f.count * e.1), min 2 (f.count * e.2))

/-- Two ranges of EMITs in sequence. -/
def addEmits (x y : Nat × Nat) : Nat × Nat := (min 2 (x.1 + y.1), min 2 (x.2 + y.2))

/-- The tensors that hold no value when a replay starts. -/
def startsEmpty (t : TensorDesc) : Bool := t.kind == 2 || t.kind == 4 || t.kind == 5 || t.kind == 7

/-- Whether a word reads something that a path has not written (R273). -/
def readsUnwritten (c : HykaiCode) (slow : Bool) (w : DWord) (written : List Nat) : Bool :=
  let t := fun (i : Nat) => c.tensors.getD i { kind := 0, format := 0 }
  (wordReads slow w).any (fun i => startsEmpty (t i) && !written.contains i)
  || ((hOp w == 0x20 || hOp w == 0x25) && (t (hA w)).kind == 2 && (t (hA w)).outliers && !written.contains (expsOf (hA w)))

/-- What a word adds to the written tensors. -/
def wordAdds (c : HykaiCode) (w : DWord) : List Nat :=
  match wordWrites w with
  | some d => if hOp w = 0x24 ∧ (c.tensors.getD d { kind := 0, format := 0 }).outliers then [d, expsOf d] else [d]
  | none => []

/-- The control words in a stage: LOOP, IF, ELSE, ENDIF, ENDLOOP, CBAR (R279). A broken nesting is XL_CONTROL (9). -/
def controlStep (d : StageDesc) (w : DWord) (x : XPath) : XPath ⊕ Nat :=
  match hOp w, x.open_ with
  | 0x03, o =>
    if 8 ≤ o.length ∨ (d.lockstep ∧ hMod w = 1) then .inr 9
    else .inl { x with emits := (0, 0), open_ := { isIf := false, scalar := hMod w == 1, count := hImm w, before := x.written, emits := x.emits } :: o }
  | 0x05, o =>
    if 8 ≤ o.length ∨ d.lockstep then .inr 9
    else .inl { x with emits := (0, 0), open_ := { isIf := true, before := x.written, emits := x.emits } :: o }
  | 0x04, f :: o =>
    if f.isIf then .inr 9
    else .inl { x with written := if f.scalar then f.before else x.written, emits := addEmits f.emits (timesEmits f x.emits), open_ := o }
  | 0x06, f :: o =>
    if !f.isIf || f.first.isSome then .inr 9
    else .inl { x with written := f.before, emits := (0, 0), open_ := { f with first := some (x.written, x.emits) } :: o }
  | 0x07, f :: o =>
    if !f.isIf then .inr 9
    else
      let other := f.first.getD (f.before, (0, 0))
      .inl { x with written := bothOf x.written other.1,
                    emits := addEmits f.emits (min x.emits.1 other.2.1, max x.emits.2 other.2.2), open_ := o }
  | 0x08, _ => if d.spread ≤ 1 then .inr 9 else .inl x
  | 0x04, [] => .inr 9
  | 0x06, [] => .inr 9
  | 0x07, [] => .inr 9
  | 0x38, _ => .inl { x with emits := addEmits x.emits (1, 1) }
  | _, _ => .inl x

/-- The first code for which a word is refused, in the order of Table 9. -/
def wordFail (c : HykaiCode) (d : StageDesc) (recMatmul : Bool) (units : Bool × Bool) (w : DWord) (x : XPath) : Option Nat :=
  let slow := d.kind == 2
  let t := fun (i : Nat) => c.tensors.getD i { kind := 0, format := 0 }
  ([(badWord slow w, 3),
    (badOperand c slow w || readsUnwritten c slow w x.written || (hOp w == 0x21 && hMod w == 1 && !recMatmul), 4),
    (badShape c slow w, 5), (badGroup c w, 6), (badLayout c w, 7),
    ((hOp w == 0x20 && (t (hB w)).outliers && !units.1) || (hOp w == 0x3A && !units.2), 8),
    (match controlStep d w x with
     | .inr _ => true
     | .inl _ => false, 9),
    (badUse d.kind w, 0x0B),
    (hOp w == 0x12 && !c.params.any (fun p => p.number == hImm w), 0x0C)].find? (·.1)).map (·.2)

/-- One word of a stage analysed. `i` is its index in the section. -/
def wordStep (c : HykaiCode) (d : StageDesc) (recMatmul : Bool) (units : Bool × Bool) (x : XPath) (wi : DWord × Nat) : XPath :=
  if x.fail.isSome then x
  else match wordFail c d recMatmul units wi.1 x with
    | some e => { x with fail := some (e, d.first + wi.2) }
    | none => match controlStep d wi.1 x with
      | .inl y => { y with written := wordAdds c wi.1 ++ y.written }
      | .inr e => { x with fail := some (e, d.first + wi.2) }

/-- The RECORD tensors that the words of a stage name. -/
def namedRecords (c : HykaiCode) (d : StageDesc) : List Nat :=
  ((stageWords c d).flatMap (fun w => (wordReads (d.kind == 2) w).filter (fun i => (c.tensors.getD i { kind := 0, format := 0 }).kind == 3))).dedup

/-- A stage analysed from what it starts with: its refusal, what it has written at END, its EMITs. `si` is its index in the table. -/
def stageCheck (c : HykaiCode) (section_ si : Nat) (d : StageDesc) (start : List Nat) (units : Bool × Bool) : Option XlFail × XPath :=
  let ws := stageWords c d
  let inner := (ws.drop 1).dropLast
  let recs := namedRecords c d
  let recMatmul := ws.any (fun w => hOp w == 0x20 && recs.contains (hA w))
  let x := ((ws.zipIdx.drop 1).take inner.length).foldl (wordStep c d recMatmul units) { written := start }
  let t := fun (i : Nat) => c.tensors.getD i { kind := 0, format := 0 }
  let at_ := fun (code word : Nat) => ({ code, stage := si, word } : XlFail)
  let early := firstFail [
    (d.kind != section_ || decide (7 < d.order) || (section_ != 0 && d.order != 0), at_ 0x0B 0),
    ((d.lockstep && (d.spread == 0 || decide (16 < d.spread))) || (!d.lockstep && d.spread != 1), at_ 0x0B 0),
    (decide (ws.length < 2) || (ws.head?.map (fun w => hOp w == 1 && hImm w == si)) != some true || (ws.getLast?.map (fun w => hOp w == 2)) != some true
      || inner.any (fun w => hOp w == 1 || hOp w == 2), at_ 9 d.first),
    ((d.order == 0 && recs.length != 1) || (d.order != 0 && !recs.isEmpty), at_ 0x0B 0)]
  let late := match x.fail with
    | some (e, w) => some (at_ e w)
    | none => firstFail [
        (!x.open_.isEmpty, at_ 9 (d.first + d.count - 1)),
        (d.carry != 0xFFFF && decide (c.tensors.length ≤ d.carry), at_ 4 0),
        (d.carry != 0xFFFF && (t d.carry).kind != 2, at_ 0x0B 0),
        (d.carry != 0xFFFF && !x.written.contains d.carry, at_ 4 (d.first + d.count - 1))]
  ((early.orElse (fun _ => late)), x)

/-- What the stage after this one starts with: the carry tensor, with its exponents where they were written. -/
def carried (d : StageDesc) (x : XPath) : List Nat := x.written.filter (fun i => i == d.carry || i == expsOf d.carry)

/-- The stages of a section in the order of their positions, analysed in turn: the first refusal and the EMITs of every path. -/
def stagesCheck (c : HykaiCode) (section_ : Nat) (units : Bool × Bool) : List (StageDesc × Nat) → List Nat → Nat × Nat → Option XlFail
  | [], _, em => if section_ ≠ 2 ∧ em ≠ (1, 1) then some { code := 9 } else none
  | d :: rest, start, em =>
    let r := stageCheck c section_ d.2 d.1 start units
    match r.1 with
    | some f => some f
    | none => stagesCheck c section_ units rest (carried d.1 r.2) (addEmits em r.2.emits)

/-- The refusal of a code section that its tables and words decide: section kinds 0 PALLET, 1 SEQUENCE, 2 SLOWPATH. `units` says whether the
device has the buttress and the context streamer. -/
def xlFail (c : HykaiCode) (section_ : Nat) (units : Bool × Bool) : Option XlFail :=
  match headerFail c with
  | some f => some f
  | none =>
    match c.stages.zipIdx.find? (fun d => d.1.kind != section_) with
    | some d => some { code := 0x0B, stage := d.2 }
    | none =>
      let orders := c.stages.map (·.order)
      if !orders.Nodup || orders.any (fun o => decide (c.stages.length ≤ o)) || decide (8 < c.stages.length) then some { code := 0x0B }
      else stagesCheck c section_ units ((List.range 8).filterMap (fun o => c.stages.zipIdx.find? (fun d => d.1.order == o))) [] (0, 0)

end Sys2Proof.Machine
end

