-- ==== Sys2Proof/Machine/Load.lean ====
section
/-!
DEFINITION. The load of a model: the commands of the loader, the checks of an image, the placement, and the life of a model epoch
(R348 to R373).
-/

namespace Sys2Proof.Machine

open Sys2Proof

/-! ### Status (R371, R372) -/

/-- The number of a load state (Table 13). -/
def loadPhaseNum : LoadPhase → Nat
  | .idle => 0
  | .fetching => 1
  | .verifying => 2
  | .translating => 3
  | .prepared => 4
  | .committing => 5

/-- PRT_LOAD_STATUS. -/
def loadStatus (l : LoadSt) : Nat := l.code.toNat * 2 ^ 24 + l.variant.val * 2 ^ 16 + loadPhaseNum l.phase

/-- The load of a partition changed; a change of its state or code is an event (R433). -/
def setLoad (p : Nat) (f : LoadSt → LoadSt) (s : State) : State :=
  let old := (modelAt s p).load
  let new := f old
  let s := modModel p (fun m => { m with load := new }) s
  if old.phase = new.phase ∧ old.code = new.code then s else event p 7 (loadStatus new) s

/-- A command refused with a code: the load stays where it is. -/
def loadCode (p : Nat) (code : Byte) (s : State) : State := setLoad p (fun l => { l with code }) s

/-- The record of a deferred outcome of a load (R511): code, epoch, image_id. -/
def auditLoad (p : Nat) (result : Nat) (code : Byte) (epoch : BitVec 16) (s : State) : State :=
  auditDevice 0x0021 p result (leBytes 2 code.toNat ++ leBytes 2 epoch.toNat
    ++ leBytes 4 ((((modelAt s p).load.image.map (fun (i : ModelImage) => i.imageId)).getD 0).toNat)) s

/-- What a load that ends leaves (R355): IDLE with a code, nothing of the image. -/
def endLoad (code : Byte) (l : LoadSt) : LoadSt := { l with phase := .idle, code, image := none, vd := none, place := {}, gap := false }

/-- A load refused in progress (R355): IDLE with its code, the failing section and offset, and its second audit record. -/
def refuseLoad (p : Nat) (code : Byte) (sec : Nat) (off : BitVec 26) (s : State) : State :=
  setLoad p (fun l => { endLoad code l with detailSection := BitVec.ofNat 6 sec, detailOffset := off }) (auditLoad p 4 code 0 s)

/-- A load not yet COMMITTING abandoned from outside: partition reset, supply sag, lost staging (R355, R368). -/
def abandonLoad (p : Nat) (code : Byte) (s : State) : State :=
  match (modelAt s p).load.phase with
  | .idle => s
  | .committing => s
  | _ => refuseLoad p code 0 0 s

/-! ### The image's form, keys and variant (R348 to R352) -/

/-- The type of a section (Table 4). -/
def sectionType : SectionBody → Nat
  | .tier2Code _ => 1
  | .seqCode _ => 2
  | .data _ => 3
  | .ensemble _ => 4
  | .t2Map _ => 5
  | .seqMap _ => 6
  | .stats _ => 7
  | .seqCfg _ => 8
  | .native => 9
  | .span _ => 10
  | .reserved => 0

/-- The sections of a variant, with their indices. -/
def variantSections (i : ModelImage) (v : Nat) : List (SectionEntry × Nat) :=
  i.sections.zipIdx.filter (fun x => x.1.variants.getLsbD v)

/-- Whether a variant has a section of a type. -/
def hasSection (i : ModelImage) (v t : Nat) : Bool := (variantSections i v).any (fun x => sectionType x.1.body == t)

/-- Whether a variant breaks the rule of R351: one ENSEMBLE, no type twice, a verdict map for every code. -/
def badVariantSections (i : ModelImage) (v : Nat) : Bool :=
  let ts := (variantSections i v).map (fun x => sectionType x.1.body)
  !ts.contains 4 || !ts.Nodup || (ts.contains 1 && !ts.contains 5) || (ts.contains 2 && !ts.contains 6)

/-- Whether an image breaks R348 to R352 in its form; `len` is the length the driver gave. -/
def imageMalformed (i : ModelImage) (len : Nat) : Bool :=
  i.magic != 0x4D49444D || i.version != 1 || bits 7 3 i.flags.toNat != 0 || i.formBroken || i.length != len
  || i.sections.isEmpty || decide (64 < i.sections.length) || i.envelopes.isEmpty || decide (16 < i.envelopes.length)
  || i.variants.isEmpty || decide (8 < i.variants.length)
  || i.sections.any (fun x => sectionType x.body == 0)
  || (List.range i.variants.length).any (badVariantSections i)

/-- The identifier of a key: the first 8 bytes of SHA-384 over its point (R501). -/
def keyIdOf (point : List Byte) : DWord := BitVec.ofNat 64 (leNat ((sha384 point).take 8))

/-- The model key of a partition with an identifier, in slots 16 + 4p + m (Table 1 of the role chapter). -/
def modelKey (s : State) (p : Nat) (keyId : DWord) : Option (List Byte) :=
  (List.range 4).findSome? (fun m => match mapFind (16 + 4 * p + m) s.auth.keys with
    | some pt => if keyIdOf pt = keyId then some pt else none
    | none => none)

/-- Whether a signature over a digest verifies under a key. -/
def verifies (point : List Byte) (digest : BitVec 384) (sig : BitVec 768) : Bool :=
  Config.ecdsaVerifies (BitVec.ofNat 776 (beNat point)) digest sig

/-- The bricks in service of a partition's groups. -/
def shareBricks (s : State) (p : Nat) : List Nat :=
  match bondOf s.st.running p with
  | some b => (groupBricks s (b.pallet.flatten ++ b.seqGroups)).filter (fun k => clocked (brickAt s k) || (brickAt s k).c.phase == .frozen)
  | none => []

/-- Whether a variant qualifies (R352): the grade, the units, the layout and width of every brick of the share. -/
def variantOk (s : State) (p : Nat) (v : VariantDesc) : Bool :=
  v.grades.getLsbD s.dev.grade.val
  && (!v.needs.getLsbD 0 || hasButtress s) && (!v.needs.getLsbD 1 || hasStreamer s) && (!v.needs.getLsbD 2 || s.dev.grade != 2)
  && (shareBricks s p).all (fun k =>
    let a := (brickAt s k).arr
    if v.layout = 0 then !a.layout && decide (v.minWidth ≤ wholeWidth a)
    else a.layout && decide (v.minWidth ≤ min (quadWidth a 0) (quadWidth a 1)))

/-- The contents of a variant. -/
def variantData (i : ModelImage) (v : Nat) : Option VariantData :=
  let xs := (variantSections i v).map (fun x => x.1.body)
  (xs.findSome? (fun b => match b with
    | .ensemble e => some e
    | _ => none)).map (fun ensemble =>
    { ensemble,
      t2 := xs.findSome? (fun b => match b with
        | .tier2Code c => some c
        | _ => none),
      seqCode := xs.findSome? (fun b => match b with
        | .seqCode c => some c
        | _ => none),
      data := (xs.findSome? (fun b => match b with
        | .data d => some d
        | _ => none)).getD [],
      t2Map := (xs.findSome? (fun b => match b with
        | .t2Map m => some m
        | _ => none)).getD [],
      seqMap := (xs.findSome? (fun b => match b with
        | .seqMap m => some m
        | _ => none)).getD [],
      stats := (xs.findSome? (fun b => match b with
        | .stats d => some d
        | _ => none)).getD [],
      stateKeep := (xs.findSome? (fun b => match b with
        | .seqCfg k => some k
        | _ => none)).getD false,
      span := xs.findSome? (fun b => match b with
        | .span q => some q
        | _ => none) })

/-- Whether a partition has placement groups for every stage kind of a variant (R355, R356). -/
def hasGroups (s : State) (p : Nat) (v : VariantData) : Bool :=
  let b := bondOf s.st.running p
  (v.t2.isNone || ((b.map (fun (x : PartBond) => x.pallet.any (fun g => !g.isEmpty))).getD false))
  && (v.seqCode.isNone || ((b.map (fun (x : PartBond) => !x.seqGroups.isEmpty)).getD false) || !s.st.running.bond.seqPool.isEmpty)

/-- The index of a variant's section of a type. -/
def sectionIndex (i : ModelImage) (v t : Nat) : Nat :=
  (((variantSections i v).find? (fun x => sectionType x.1.body == t)).map (·.2)).getD 0

/-- The first type of section whose contents are refused (R107, R114, R122, R129, R130, R138, R150, R154, R224). -/
def contentRefused (s : State) (v : VariantData) : Option Nat :=
  let cx := fun (c : HykaiCode) => ({ code := c, data := v.data, stats := v.stats } : HCtx)
  let n := v.ensemble.nClasses
  let codeBad := fun (c : HykaiCode) => codeContentBad (hasButtress s) (cx c)
  ([(ensembleRefused v.t2.isSome v.ensemble, 4),
    (v.t2.isSome && badMap true v.t2.isSome n v.t2Map, 5),
    (v.seqCode.isSome && badMap true v.t2.isSome n v.seqMap, 6),
    ((v.t2.map codeBad).getD false, 3), ((v.seqCode.map codeBad).getD false, 3),
    (match v.t2 with
      | some c => badStats (cx c) v.stats
      | none => !v.stats.isEmpty, 7)].find? (·.1)).map (·.2)

/-- The first check of VERIFYING that an image fails, in the order of R355: code and section; or the variant chosen with its contents. -/
def verifyImage (s : State) (p : Nat) (i : ModelImage) : (Byte × Nat) ⊕ (Nat × VariantData) :=
  if imageMalformed i (modelAt s p).load.len.toNat then .inl (0x01, 0)
  else match modelKey s p i.keyId with
    | none => .inl (0x02, 0)
    | some pt =>
      if !verifies pt i.digest i.signature then .inl (0x03, 0)
      else if !i.envelopes.contains s.dev.deviceId then .inl (0x04, 0)
      else match (i.variants.zipIdx.find? (fun v => variantOk s p v.1)).bind (fun v => (variantData i v.2).map (fun d => (v.2, d))) with
        | none => .inl (0x05, 0)
        | some (v, d) =>
          if !hasGroups s p d then .inl (0x0B, 0)
          else match (variantSections i v).find? (fun x => !x.1.tagOk) with
            | some x => .inl (0x04, x.2)
            | none => match contentRefused s d with
              | some t => .inl (0x06, sectionIndex i v t)
              | none => .inr (v, d)

/-! ### The load up to PREPARED (R353 to R362) -/

/-- PREPARE (R354, R355): role, partition, then LOAD_BUSY where a load is in progress. -/
def execLoadPrepare (path : Path) (part : Part) (s : State) : Out :=
  let p := part.val
  let idle := fun (s : State) => (modelAt s p).load.phase = .idle
  .next (commandWith path operatorRights 0x0020 p (fun s => partEnabled s p && decide (idle s)) (leBytes 2 1) (loadCode p 0x0C)
    (fun s =>
      if (modelAt s p).load.phase ≠ .idle then loadCode p 0x0A s
      else if !partEnabled s p then loadCode p 0x0B s
      else setLoad p (fun l => { endLoad 0 l with phase := .fetching, detailSection := 0, detailOffset := 0 }) s) s)

/-- IMAGE_FETCHED (R355): the image is in staging. -/
def execImageFetched (part : Part) (image : ModelImage) (s : State) : Out :=
  .next (if (modelAt s part.val).load.phase = .fetching then
    setLoad part.val (fun l => { l with phase := .verifying, image := some image }) s else s)

/-- The bytes of the image hash that a wall carry names (Table 10 of the link chapter): the first 8 of SHA-384 over the signature. -/
def imageHashOf (i : ModelImage) : DWord := BitVec.ofNat 64 (leNat ((sha384 (beBytes 96 i.signature.toNat)).take 8))

/-- VERIFY_COMPLETE (R350 to R355): the checks in order; the first that fails ends the load. -/
def execVerifyComplete (part : Part) (s : State) : Out :=
  let p := part.val
  let l := (modelAt s p).load
  .next (if l.phase ≠ .verifying then s
    else match l.image with
      | none => s
      | some i => match verifyImage s p i with
        | .inl (code, sec) => refuseLoad p code sec 0 s
        | .inr (v, d) => setLoad p (fun l => { l with phase := .translating, variant := Fin.ofNat 8 v, vd := some d, imageHash := imageHashOf i }) s)

/-- Whether a stage's groups do not suit it (R357, R358): none, a spread that is not the group's brick count, and under mirroring a group
without a buddy in another course. -/
def badGroups (mirror : Bool) (d : StageDesc) (gs : List Group) : Bool :=
  gs.isEmpty || gs.any (fun g => g.lockstep != d.lockstep || (if d.lockstep then g.bricks.length != d.spread else g.bricks.length != 1))
  || (mirror && gs.any (fun g => !gs.any (fun h => h.bricks.all (fun b => g.bricks.all (fun c => b / 16 != c / 16)))))

/-- Whether the stages of a variant find their groups among those in service. -/
def stagesUnfit (s : State) (p : Nat) (v : VariantData) : Bool :=
  match bondOf s.st.running p, v.t2 with
  | some b, some c =>
    let probe : ModelEpoch := { num := 0, st := .prepared, vd := v }
    (stagesOf c 0).any (fun d => localStage s probe d.order && badGroups b.mirror d (groupsAt s p d.order))
  | none, some _ => true
  | _, none => false

/-- node_quota of a partition (R117). -/
def nodeQuota (s : State) (p : Nat) : Nat := min 262144 (bits 18 0 (partAt s p).tree.toNat)

/-- The ensembles resident on the P-dies: those of every epoch not yet freed (R111, R112). -/
def residentEnsembles (s : State) : List Ensemble := s.models.flatMap (fun m => m.2.epochs.map (fun (e : ModelEpoch) => e.vd.ensemble))

/-- The tree words that a partition's resident epochs take on a P-die. -/
def treeUse (s : State) (p : Nat) : Nat := ((modelAt s p).epochs.map (fun (e : ModelEpoch) => treeWords e.vd.ensemble)).sum

/-- The free node words of a level bank (R96, R97, R118). -/
def bankFree (s : State) (l : Nat) : Nat :=
  (bankSizes s.st.running.treeGeom).getD l 0 * 1024 - ((residentEnsembles s).map (fun e => (e.levels.getD l []).length)).sum

/-- The free leaf words. -/
def leafFree (s : State) : Nat := 131072 - ((residentEnsembles s).map (fun e => e.leaves.length)).sum
/-- The free bitmap words. -/
def bitmapFree (s : State) : Nat := 4096 - ((residentEnsembles s).map (fun e => e.bitmaps.length)).sum

/-- Whether an ensemble does not fit beside those resident (R111). -/
def treesUnfit (s : State) (p : Nat) (e : Ensemble) : Bool :=
  decide (nodeQuota s p < treeUse s p + treeWords e)
  || (e.levels.zipIdx).any (fun l => decide (bankFree s l.2 < l.1.length))
  || decide (leafFree s < e.leaves.length) || decide (bitmapFree s < e.bitmaps.length)

/-- The passes of an ensemble (R108). -/
def passesOf (e : Ensemble) : Nat := if recirculates e then 2 else 1

/-- The first refusal of the words of a variant, with the section type of the code (R293). -/
def translateRefused (s : State) (v : VariantData) : Option (XlFail × Nat) :=
  let units := (hasButtress s, hasStreamer s)
  let one := fun (c : Option HykaiCode) (kind t : Nat) => (c.bind (fun c => xlFail c kind units)).map (fun f => (f, t))
  (one v.t2 0 1).orElse (fun _ => one v.seqCode 1 2)

/-- How the excess of a plan is placed (R360, R361): the kind of placement and whether with a gap, or none. -/
def placeExcess (streamed gapOk stripes : Bool) (plan : TranslationPlan) : Option (Fin 4 × Bool) :=
  if plan.excessPages = 0 then some (0, false)
  else if streamed then (if plan.pinnedFits then some (1, false) else if stripes then some (2, false) else none)
  else if gapOk then some (0, true)
  else none

/-- PRT_LOAD_REPORT (R362, Table 13). -/
def loadReport (predicted : Nat) (kind : Fin 4) (passes : Nat) (mirrored gap : Bool) (gapKib : Nat) : DWord :=
  BitVec.ofNat 64 (min 0xFFFF predicted * 2 ^ 48 + kind.val * 2 ^ 30 + passes * 2 ^ 28 + bitAt 27 mirrored + bitAt 26 gap + gapKib % 2 ^ 26)

/-- PRT_XLATE_STATUS and PRT_XLATE_INFO at the end of a translation (R297). -/
def setXlate (p : Nat) (code stage word predicted bundles : Nat) (s : State) : State :=
  modModel p (fun m => { m with load := { m.load with
    xlCode := BitVec.ofNat 8 code, xlStage := Fin.ofNat 16 stage, xlWord := BitVec.ofNat 18 word,
    xlPredicted := BitVec.ofNat 16 (min 0xFFFF predicted), xlBundles := BitVec.ofNat 14 bundles } }) s

/-- A commit accepted (R364): it waits its turn, and T_c is broadcast once no epoch drains. -/
def acceptCommit (p : Nat) (kind : CommitKind) (s : State) : State :=
  broadcastTc p (modModel p (fun m => { m with load := { m.load with commits := m.load.commits ++ [{ kind }] } }) s)

/-- A PREPARED load committed. -/
def commitLoad (p : Nat) (s : State) : State := acceptCommit p .load (setLoad p (fun l => { l with phase := .committing }) s)

/-- TRANSLATION_COMPLETE (R281, R355 to R362): the refusals of the words, then those of the plan, the fit, the time; else the report and
PREPARED, or COMMITTING under auto_commit. -/
def execTranslationComplete (part : Part) (plan : TranslationPlan) (s : State) : Out :=
  let p := part.val
  let l := (modelAt s p).load
  .next (match l.phase, l.image, l.vd with
    | .translating, some i, some v =>
      match translateRefused s v with
      | some (f, t) => refuseLoad p 0x07 (sectionIndex i l.variant.val t) 0 (setXlate p f.code f.stage f.word 0 0 s)
      | none =>
        if plan.xlCode = 0x07 ∨ plan.xlCode = 0x08 then
          refuseLoad p 0x07 plan.section_.toNat plan.offset (setXlate p plan.xlCode.toNat plan.xlStage.val plan.xlWord.toNat 0 0 s)
        else if plan.xlCode = 0x0A then
          refuseLoad p 0x08 plan.section_.toNat plan.offset (setXlate p 0x0A plan.xlStage.val plan.xlWord.toNat 0 0 s)
        else if plan.refusal = 0x0E then refuseLoad p 0x0E plan.section_.toNat plan.offset s
        else
          let s := setXlate p 0 0 0 plan.predictedNs plan.bundles s
          let ctl := l.ctl.toNat
          let passes := passesOf v.ensemble
          let recircOk := passes = 1 ∨ ((bit 1 i.flags.toNat || bit 2 ctl) = true ∧ bit 31 (partAt s p).tree.toNat = true)
          match placeExcess (bit 0 i.flags.toNat || bit 1 ctl) (bit 3 ctl) (!(s.sdies.any (fun x => x.2.lost))) plan with
          | none => refuseLoad p 0x08 0 0 s
          | some (kind, gap) =>
            if stagesUnfit s p v || treesUnfit s p v.ensemble || decide (¬ recircOk) then refuseLoad p 0x08 0 0 s
            else if bits 31 16 ctl ≠ 0 ∧ bits 31 16 ctl < plan.predictedNs then refuseLoad p 0x09 0 0 s
            else
              let mirrored := ((bondOf s.st.running p).map (fun (b : PartBond) => b.mirror)).getD false
              let place : Placement :=
                { kind, streamed := plan.streamedBytes, dramBw := plan.dramBw, sramBw := plan.sramBw, predictedNs := plan.predictedNs }
              let s := setLoad p (fun l => { l with
                  phase := .prepared, passes, gap, place,
                  report := loadReport plan.predictedNs kind passes mirrored gap (if gap then plan.excessPages * 4 else 0) }) s
              let s := auditLoad p 1 0 0 s
              if bit 4 ctl then commitLoad p s else s
    | _, _, _ => s)

/-! ### The commands on a PREPARED load and the active epoch (R364 to R367) -/

/-- The number after an epoch's (R363). -/
def nextNum (n : BitVec 16) : BitVec 16 := if n = 0xFFFF then 1 else n + 1

/-- COMMIT (R364, R367). -/
def execLoadCommit (path : Path) (part : Part) (s : State) : Out :=
  let p := part.val
  let m := modelAt s p
  let ok := fun (s : State) => decide ((modelAt s p).load.phase = .prepared)
  .next (commandWith path operatorRights 0x0020 p ok (leBytes 2 2 ++ leBytes 2 (nextNum m.lastNum).toNat) (loadCode p 0x0C)
    (fun s => if ok s then commitLoad p s else loadCode p 0x0F s) s)

/-- ABORT (R355, R367). -/
def execLoadAbort (path : Path) (part : Part) (s : State) : Out :=
  let p := part.val
  let ok := fun (s : State) => decide ((modelAt s p).load.phase = .prepared)
  .next (commandWith path operatorRights 0x0020 p ok (leBytes 2 3) (loadCode p 0x0C)
    (fun s => if ok s then refuseLoad p 0x0D 0 0 s else loadCode p 0x0F s) s)

/-- UNLOAD (R367): model epoch 0 committed; with no model committed LOAD_STATE. -/
def execLoadUnload (path : Path) (part : Part) (s : State) : Out :=
  let p := part.val
  let ok := fun (s : State) => (activeEpoch s p).isSome && !(modelAt s p).load.commits.any (fun (c : CommitSt) => c.kind == .unload)
  .next (commandWith path operatorRights 0x0020 p ok (leBytes 2 4) (loadCode p 0x0C)
    (fun s => if ok s then acceptCommit p .unload s else loadCode p 0x0F s) s)

/-! ### Placement (R211, R212, R231, R282, R299, R309) -/

/-- The BMEM pages and DMEM units that a window may have: the whole brick, or its quarter (log 38). -/
def windowShare (layout : Bool) (w : Fin 4) : Nat × Nat × Nat × Nat :=
  if layout then (512 * w.val, 512, 64 * w.val, 64) else (0, 2048, 0, 255)

/-- A window bound to a partition (R212): its DMEM range and BMEM pages zeroed, their loaded bits cleared, its parameter file cleared, then
BRK_WIN written. Its extents within the share are the loader's choice (free, log 38). -/
def bindWindow (w : Fin 4) (part : Part) (f : List DWord) (x : BrickSt) : BrickSt :=
  let old := x.wins.get w
  let (pb, pn, db, dn) := windowShare x.arr.layout w
  let pages := (f.getD 0 0).toNat % (pn + 1)
  let base := pb + (f.getD 1 0).toNat % (pn - pages + 1)
  let len := (f.getD 2 0).toNat % (dn + 1)
  let dbase := db + (f.getD 3 0).toNat % (dn - len + 1)
  let keep := fun (lo n : Nat) => ~~~(BitVec.ofNat 2048 ((2 ^ n - 1) * 2 ^ lo))
  let m := { x.m with
    bmem := memZero (base * 4096) (pages * 4096) (memZero (old.bmemBase * 4096) (old.bmemPages * 4096) x.m.bmem),
    dmem := memZero (dbase * 256) (len * 256) (memZero (old.dmemBase * 256) (old.dmemLen * 256) x.m.dmem),
    luts := x.m.luts.filter (fun q => q.1 / 262144 != w.val),
    loaded := x.m.loaded &&& keep old.bmemBase old.bmemPages &&& keep base pages }
  { x with m, params := x.params.set w.val {} w.isLt, everPatched := x.everPatched &&& ~~~(1#4 <<< w.val),
           wins := x.wins.set w.val { valid := true, part, bmemPages := pages, bmemBase := base, dmemLen := len, dmemBase := dbase } w.isLt }

/-- A mask of 2,048 free bits. -/
def freeMask (fs : List DWord) : BitVec 2048 := BitVec.ofNat 2048 ((fs.zipIdx.map (fun x => x.1.toNat * 2 ^ (64 * x.2))).sum)

/-- The pages of a window that are free, of those that a mask names. -/
def pagesFor (x : BrickSt) (w : Fin 4) (mask : BitVec 2048) : BitVec 2048 :=
  let win := x.wins.get w
  mask &&& ~~~x.m.loaded &&& BitVec.ofNat 2048 ((2 ^ win.bmemPages - 1) * 2 ^ win.bmemBase)

/-- Free bytes written to a memory, from an address upwards. -/
def freeRun (n a : Nat) (acc : List Host.Cell × State) : List Host.Cell × State :=
  let r := freeBytes n acc.2
  (memPutBytes a r.1 acc.1, r.2)

/-- A page of free bytes written (log 38). -/
def freePage (pg : Nat) (acc : List Host.Cell × State) : List Host.Cell × State := freeRun 4096 (pg * 4096) acc

/-- Pages of free bytes written. -/
@[irreducible] def freePages (l : List Nat) (acc : List Host.Cell × State) : List Host.Cell × State := l.foldl (fun a i => freePage i a) acc

/-- The pages of a mask, by number. -/
def pageList (pages : BitVec 2048) : List Nat := (List.range 2048).filter (fun i => pages.getLsbD i)

/-- Pages written in one brick, with free bytes: their loaded bits are set (R210). -/
def writeMask (l : List Nat) (pages : BitVec 2048) (b : Nat) (acc : Placement × State) : Placement × State :=
  let q := freePages l ((brickAt acc.2 b).m.bmem, acc.2)
  ({ acc.1 with pages := mapMod 0 b (fun m => m ||| pages) acc.1.pages },
   modBrick b (fun x => { x with m := { x.m with bmem := q.1, loaded := x.m.loaded ||| pages } }) q.2)

/-- The loader's pages written in one brick (R210). Which pages, and what they hold, are the translator's choice (free, log 38). -/
def writePages (w : Fin 4) (b : Nat) (acc : Placement × State) : Placement × State :=
  let r := takeFrees 32 acc.2
  let pages := pagesFor (brickAt r.2 b) w (freeMask r.1)
  writeMask (pageList pages) pages b (acc.1, r.2)

/-- The stack window and the exception vector written (R235, R248, log 44): free, but for a window that would overlap a bound window's DMEM
range, which is not written. -/
def writeStack (lo hi vec_ : DWord) (x : BrickSt) : BrickSt :=
  let l := lo.toNat % 65536
  let h := hi.toNat % 65536
  let clash := x.wins.toList.any (fun (w : Win) => w.valid && decide (l < (w.dmemBase + w.dmemLen) * 256) && decide (w.dmemBase * 256 ≤ h))
  if l ≤ h ∧ !clash then { x with c := { x.c with stkLo := BitVec.ofNat 16 l, stkHi := BitVec.ofNat 16 h, excVec := vec_.setWidth 13 } }
  else { x with c := { x.c with stkLo := 0, stkHi := 0, excVec := vec_.setWidth 13 } }

/-- The lookup tables of an epoch's code (R224, R273). -/
def epochTables (v : VariantData) : List (List Word) :=
  (v.t2.toList ++ v.seqCode.toList).flatMap (fun c =>
    (List.range c.tensors.length).filterMap (fun i =>
      if (c.tensors.getD i { kind := 0, format := 0 }).kind = 6 then some (hTable { code := c, data := v.data } i) else none))

/-- The four lookup tables of an epoch in a window of a brick (R224): which of the epoch's tables each holds is the translator's choice
(free, log 44). -/
def writeTables (w : Fin 4) (e : BitVec 16) (ts : List (List Word)) (f : List DWord) (x : BrickSt) : BrickSt :=
  let luts := (List.range 4).foldl (fun m i => mapSet (lutKey w.val e.toNat i) (ts.getD ((f.getD i 0).toNat % ts.length) []) m) x.m.luts
  if ts.isEmpty then x else { x with m := { x.m with luts } }

/-- The tables that an epoch has in a brick, under its successor's number as well: a re-tempered epoch shares its parent's placement. -/
def shareTables (w : Fin 4) (old new : BitVec 16) (x : BrickSt) : BrickSt :=
  let luts := (List.range 4).foldl (fun (m : Map (List Word)) i =>
    match mapFind (lutKey w.val old.toNat i) m with
    | some t => mapSet (lutKey w.val new.toNat i) t m
    | none => m) x.m.luts
  { x with m := { x.m with luts } }

/-- The sets of an epoch whose tensor a stage quantises. -/
def setsOfStage (v : VariantData) (c : HykaiCode) (d : StageDesc) : List Nat :=
  (v.stats.zipIdx.filter (fun x => (stageWords c d).any (fun w => hOp w == 0x24 && hD w == x.1.tensor))).map (·.2)

/-- A statistics slot assigned to each set of an epoch on a brick, and cleared (R156, log 27). -/
def assignSlots (part : Part) (e : BitVec 16) (sets : List Nat) (x : BrickSt) : BrickSt :=
  sets.foldl (fun x k =>
    { x with vec := { x.vec with stats := mapSet (statSlotOf x part e k) { valid := true, part, epoch := e, set := Fin.ofNat 8 k } x.vec.stats } }) x

/-- A code region written in a brick with the brick's stamp (R208, R248, R282): its place, its length and its bytes are the translator's
choice (free, log 38). -/
def writeRegion (rg : Fin 8) (b : Nat) (len base : DWord) (s : State) : State :=
  let n := 1 + len.toNat % 8192
  let at_ := base.toNat % (8192 - n + 1)
  let code := freeBytes (32 * n) s
  modBrick b (fun x => { x with
    m := { x.m with imem := memPutBytes (32 * at_) code.1 x.m.imem },
    regions := x.regions.set rg.val { stamp := x.c.capHash, valid := true, length := n, base := BitVec.ofNat 13 at_ } rg.isLt }) code.2

/-- One brick of a group placed for an epoch: the window bound, the stack window and the code region written, the lookup tables, the pages,
the statistics slots. -/
def placeBrick (part : Part) (e : BitVec 16) (g : Group) (sets : List Nat) (tables : List (List Word)) (whole : Bool) (b : Nat)
    (acc : Placement × State) : Placement × State :=
  let r := takeFrees 13 acc.2
  let f := r.1
  let s := modBrick b (fun x =>
    let win := x.wins.get g.window
    let x := if win.valid && win.part == part then x
      else writeStack (f.getD 6 0) (f.getD 7 0) (f.getD 8 0) (bindWindow g.window part f x)
    { x with c := { x.c with lockstep := g.lockstep, replayBeats := if g.lockstep then min 255 (ceilDiv acc.1.predictedNs 128) else 0 } }) r.2
  let s := writeRegion (Fin.ofNat 8 (2 * g.window.val + acc.1.reg % 2)) b (f.getD 4 0) (f.getD 5 0) s
  let s := modBrick b (fun x => assignSlots part e sets (writeTables g.window e tables (f.drop 9) x)) s
  if whole then writePages g.window b (acc.1, s) else (acc.1, s)

/-- The groups that a variant is placed on, each with the sets that its stage runs (R357, R358). -/
def placeGroups (s : State) (p : Nat) (e : ModelEpoch) : List (Group × List Nat) :=
  (match e.vd.t2 with
   | some c => ((stagesOf c 0).filter (fun d => localStage s e d.order)).flatMap (fun d =>
       (groupsAt s p d.order).map (fun g => (g, setsOfStage e.vd c d)))
   | none => [])
  ++ (match e.vd.seqCode, bondOf s.st.running p with
   | some c, some b =>
     let gs := if b.seqGroups.isEmpty then s.st.running.bond.seqPool.map (fun k => ({ bricks := [k] } : Group)) else b.seqGroups
     (gs.filter (groupServes s)).map (fun g => (g, ((stagesOf c 1).map (setsOfStage e.vd c)).flatten))
   | _, _ => [])

/-- Bandwidth reserved on the S-dies, or given back (R309): striped streams on every stack, pinned ones on one SRAM. -/
def reserve (pl : Placement) (sign : Bool) (s : State) : State :=
  let add := fun (a n : Nat) => if sign then a + n else a - n
  (List.range 4).foldl (fun s i => modSdie i (fun x =>
    { x with dramReserved := if pl.kind = 2 then add x.dramReserved pl.dramBw else x.dramReserved,
             sramReserved := if pl.kind = 1 ∧ pl.home.val = i then add x.sramReserved pl.sramBw else x.sramReserved }) s) s

/-- The grant of a streamed placement (R299, R312): a read extent of the pinned region of one S-die, or of the striped model store, at an
address that the loader chooses (free). -/
def streamGrant (s : State) (part : Part) (pl : Placement) (f : DWord) : List Grant :=
  let len := ceilDiv pl.streamed 4096 * 4096
  match pl.kind.val with
  | 1 =>
    let room := (sdieAt s pl.home.val).pinnedMib * 2 ^ 20
    [{ part, base := 3 * 2 ^ 38 + pl.home.val * 2 ^ 36 + 0xC000000 + f.toNat % ((room - len) / 4096 + 1) * 4096, len, epoch := pl.id }]
  | 2 => [{ part, base := 2 * 2 ^ 38 + f.toNat % ((0x1600000000 - len) / 4096 + 1) * 4096, len, epoch := pl.id }]
  | _ => []

/-- The scratch of a partition granted (R299, R301, R318): its quota in equal parts on the four stacks, above what is granted there. -/
def scratchGrants (s : State) (part : Part) : List Grant :=
  let q := (partAt s part.val).scratchMib
  if q = 0 || s.grants.any (fun g => g.part == part && g.epoch == 0) then []
  else (List.range 4).map (fun i =>
    let lo := 2 ^ 38 + i * 2 ^ 36 + 0x920000000
    let top := s.grants.foldl (fun m g => if g.epoch = 0 ∧ lo ≤ g.base ∧ g.base < lo + 2 ^ 35 then max m (g.base + g.len) else m) lo
    { part, base := top, len := q * 2 ^ 20 / 4, write := true })

/-- A new model placed on its groups (R357, R359 to R361). -/
def placeEpoch (p : Part) (e : ModelEpoch) (s : State) : ModelEpoch × State :=
  let r := takeFrees 2 s
  let pl := { e.place with id := e.num, home := Fin.ofNat 4 (r.1.getD 0 0).toNat }
  let acc := (placeGroups r.2 p.val e).foldl (fun acc g =>
    (groupBricks r.2 [g.1]).foldl (fun acc b => placeBrick p e.num g.1 g.2 (epochTables e.vd) (!e.gapMissing) b acc) acc) (pl, r.2)
  let s := acc.2
  let s := { s with grants := s.grants ++ streamGrant s p acc.1 (r.1.getD 1 0) ++ scratchGrants s p }
  ({ e with place := acc.1 }, reserve acc.1 true s)

/-! ### T_c, retirement and freeing (R363 to R367) -/

/-- A re-tempering attempt ended (Table 5 of the quantiser chapter): its outcome, the state it leaves, the capture buffer and its grant
free. An accepted result whose T_c has not come is dropped, unless this is its commit. -/
def endAttempt (p : Nat) (outcome : Byte) (state : Fin 5) (s : State) : State :=
  let d := (partAt s p).drift
  if d.state.val = 3 ∨ d.state.val = 4 then
    let s := modPart p (fun x => { x with drift := { x.drift with state, outcome, attempt := none, holdCount := 0, calm := 0, lastEnd := some (nowNs s) } }) s
    let drop := (modelAt s p).load.commits.filter (fun (c : CommitSt) => c.kind == .retemper)
    let s := modModel p (fun m => { m with load := { m.load with commits := m.load.commits.filter (fun (c : CommitSt) => c.kind != .retemper) } }) s
    let s := { s with dev := { s.dev with sched := s.dev.sched.filter (fun x => !(x.2.2.val == p && drop.any (fun c => c.tc == some x.1))) },
                      grants := s.grants.filter (fun g => !(g.part.val == p && g.epoch != 0 && g.base % 2 ^ 36 == 0x8A0000000)) }
    { s with sdies := mapAll (fun (x : SDie) => if x.captureOf.map (fun q => q.val) == some p then { x with captureOf := none } else x) s.sdies }
  else modPart p (fun x => { x with drift := { x.drift with state } }) s

/-- The sums of a statistics set over every slot of an epoch on every brick (R158). -/
def statTotals (s : State) (p : Nat) (e : BitVec 16) (set : Nat) : Dyadic2 × Dyadic2 × Nat :=
  s.bricks.foldl (fun acc b => (b.2.vec.stats).foldl (fun (acc : Dyadic2 × Dyadic2 × Nat) q =>
    if q.2.valid && q.2.part.val == p && q.2.epoch == e && q.2.set.val == set then
      (dyAdd acc.1 (val64 q.2.sumX2), dyAdd acc.2.1 (val64 q.2.sumE2), acc.2.2 + q.2.count.toNat)
    else acc) acc) (⟨0, 0⟩, ⟨0, 0⟩, 0)

/-- The sums of every set of the active epoch as they stand. -/
def statsNow (s : State) (p : Nat) : Map (Dyadic2 × Dyadic2 × Nat) :=
  match activeEpoch s p with
  | some e => (List.range e.vd.stats.length).map (fun k => (k, statTotals s p e.num k))
  | none => []

/-- A partition that is OFF starts to watch once watch_en and cascade_on are both 1 (R160). -/
def startWatch (p : Nat) (s : State) : State :=
  if (partAt s p).drift.state.val = 0 ∧ bit 30 (partAt s p).drift.ctl.toNat = true ∧ (modelAt s p).cascadeOn = true then
    let seen := statsNow s p
    modPart p (fun x => { x with drift := { x.drift with state := 1, windowNs := nowNs s, holdCount := 0, calm := 0, seen } }) s
  else s

/-- What a commit means to the drift watch (R159, R160, R169). -/
def driftAtCommit (p : Nat) (kind : CommitKind) (s : State) : State :=
  let d := (partAt s p).drift
  let s := match kind with
    | .load => if d.state.val = 3 ∨ d.state.val = 4 then endAttempt p 0x04 1 s else s
    | .unload => endAttempt p 0x08 0 s
    | _ => s
  let s := match kind with
    | .load => modPart p (fun x => { x with drift := { x.drift with parentScales := [] } }) s
    | _ => s
  startWatch p (modPart p (fun x => { x with drift := { x.drift with holdCount := 0, calm := 0, seen := [] } }) s)

/-- The active epoch DRAINING, retired at once where nothing is in flight (R364 to R366). -/
def drainActive (p : Nat) (s : State) : State :=
  modModel p (fun m => { m with epochs := m.epochs.map (fun e =>
    if e.st == .active then retireIfDone { e with st := .draining, since := nowNs s } else e) }) s

/-- An epoch made ACTIVE (R364): PRT_EPOCH, cascade_on; the commit clears target_lost (R451). -/
def activate (p : Nat) (e : ModelEpoch) (s : State) : State :=
  let s := modModel p (fun m => { m with epochs := m.epochs ++ [{ e with st := .active, since := nowNs s }], lastNum := e.num, cascadeOn := true }) s
  modPart p (fun x => { x with
    cascade := x.cascade ||| 1,
    fault := { x.fault with targetLost := false, haltTimes := [] },
    stream := BitVec.ofNat 64 (e.place.dramBw * 2 ^ 48 + e.place.sramBw * 2 ^ 32 + e.place.kind.val * 2 ^ 28 + e.place.streamed % 2 ^ 28) }) s

/-- Whether a parameter block is refused (R370, LOAD_CONTENT). -/
def badBlock (e : ModelEpoch) (b : ParamBlock) : Bool :=
  match e.vd.t2 with
  | none => !b.vals.isEmpty || b.count != 0
  | some c =>
    let rt := ((stagesOf c 0).head?.map (recordTensor c)).getD 0
    b.vals.any (fun v => !c.params.any (fun q => q.number == v.1 && q.source == 0)) || b.offsets.any (fun o => !isFinite32 o)
    || b.count != (recordOffsets c e.vd.data rt).length || b.offsets.length != b.count

/-- A parameter block taken for the ACTIVE epoch: refused, or applied at T_p, the next instant (R370, R388, log 37). -/
def takeBlock (p : Nat) (b : ParamBlock) (s : State) : State :=
  match activeEpoch s p with
  | none => loadCode p 0x0F s
  | some e =>
    if badBlock e b then loadCode p 0x06 s
    else
      let t := nextInstant s
      scheduleTc t 2 (Fin.ofNat 1024 p) (modModel p (fun m =>
        { m with load := { m.load with blocks := m.load.blocks ++ [{ block := b, epoch := e.num, tp := some t }] } }) s)

/-- The blocks that waited for a commit to end are taken now. -/
def wakeBlocks (p : Nat) (s : State) : State :=
  let waiting := (modelAt s p).load.blocks.filter (fun b => b.tp.isNone)
  let s := modModel p (fun m => { m with load := { m.load with blocks := m.load.blocks.filter (fun b => b.tp.isSome) } }) s
  waiting.foldl (fun s b => takeBlock p b.block s) s

/-- The epoch that a commit makes, from the load, or from the active epoch with other scales (R167, R168). -/
def committed (s : State) (p : Nat) (kind : CommitKind) : Option ModelEpoch :=
  let m := modelAt s p
  let num := nextNum m.lastNum
  let d := (partAt s p).drift
  match kind with
  | .load => m.load.vd.map (fun vd =>
      { num, st := .prepared, vd, imageHash := m.load.imageHash, passes := m.load.passes, gapMissing := m.load.gap,
        place := { m.load.place with reg := ((activeEpoch s p).map (fun (a : ModelEpoch) => a.place.reg + 1)).getD 0 % 2 } })
  | .retemper => (activeEpoch s p).map (fun a => { a with num, inflight := 0, tempered := true, scales := d.next })
  | .revert => (activeEpoch s p).map (fun a => { a with num, inflight := 0, tempered := false, scales := d.parentScales })
  | .unload => none

/-- A re-tempering result or a revert takes effect (R163, R167, R168). -/
def temperCommitted (p : Nat) (kind : CommitKind) (parent : Option ModelEpoch) (num : BitVec 16) (s : State) : State :=
  let pn := (parent.map (·.num)).getD 0
  match kind with
  | .retemper =>
    let s := endAttempt p 0x01 1 s
    let s := modPart p (fun x => { x with drift := { x.drift with
      parent := pn, parentScales := (parent.map (·.scales)).getD [], next := [],
      pinWatch := if x.drift.clamped = 0 then none else some (num, nowNs s + 1000000) } }) s
    event p 3 num.toNat (auditDevice 0x0029 p 1 (leBytes 2 num.toNat ++ leBytes 2 pn.toNat) s)
  | .revert =>
    modPart p (fun x => { x with drift := { x.drift with parent := pn, clamped := 0, hold := true, outcome := 0x0A, pinWatch := none } }) s
  | _ => s

/-- The first commit of a partition takes effect (R364, R367). -/
def takeCommit (part : Part) (c : CommitSt) (t : DWord) (s : State) : State :=
  let p := part.val
  let parent := activeEpoch s p
  let e := committed s p c.kind
  let s := modModel p (fun m => { m with load := { m.load with commits := m.load.commits.drop 1 } }) s
  let s := passTc t 0 part (drainActive p s)
  let s := match e with
    | some e =>
      let r := if c.kind = .load then placeEpoch part e s else
        (e, (placeGroups s p e).foldl (fun s g => (groupBricks s [g.1]).foldl (fun s b => modBrick b (fun x =>
          shareTables g.1.window ((parent.map (fun (a : ModelEpoch) => a.num)).getD 0) e.num (assignSlots part e.num g.2 x)) s) s) s)
      activate p r.1 r.2
    | none =>
      modPart p (fun x => { x with cascade := x.cascade &&& ~~~(1#32), stream := 0 }) (modModel p (fun m => { m with cascadeOn := false }) s)
  let s := driftAtCommit p c.kind s
  let s := temperCommitted p c.kind parent ((e.map (·.num)).getD 0) s
  match c.kind with
  | .load =>
    let s := modModel p (fun m => { m with load := { m.load with commits := m.load.commits.filter (fun (x : CommitSt) => x.kind == .unload || x.kind == .load) } }) s
    wakeBlocks p (setLoad p (endLoad 0) (auditLoad p 1 0 (activeNum s p) s))
  | .unload => auditLoad p 1 0 0 (modModel p (fun m => { m with load := { m.load with commits := m.load.commits.filter (fun (x : CommitSt) => x.kind == .load) } }) s)
  | _ => s

/-- MODEL_TC (R364, R367): at T_c the committed epoch becomes ACTIVE and the previous one DRAINING. -/
def execModelTc (part : Part) (s : State) : Out :=
  match (modelAt s part.val).load.commits with
  | c :: _ =>
    match c.tc with
    | some t => .next (if t.toNat ≤ s.time.wall.toNat ∧ s.st.pause.isNone = true then broadcastTc part.val (takeCommit part c t s) else s)
    | none => .next (broadcastTc part.val s)
  | [] => .next s

/-- PARAM (R370): during COMMITTING it waits; with no ACTIVE epoch it records LOAD_STATE. -/
def execParamCommit (path : Path) (part : Part) (block : ParamBlock) (s : State) : Out :=
  let p := part.val
  let ok := fun (s : State) => decide ((modelAt s p).load.phase = .committing) ||
    ((activeEpoch s p).map (fun e => !badBlock e block)).getD false
  .next (commandWith path operatorRights 0x0022 p ok (leBytes 2 5 ++ leBytes 2 (activeNum s p).toNat) (loadCode p 0x0C)
    (fun s => if (modelAt s p).load.phase = .committing then
        modModel p (fun m => { m with load := { m.load with blocks := m.load.blocks ++ [{ block }] } }) s
      else takeBlock p block s) s)

/-- PARAM_TP (R370, R132): at T_p every open pallet of the partition leaves, and the block applies to the epoch with the version raised. -/
def execParamTp (part : Part) (s : State) : Out :=
  let p := part.val
  match (modelAt s p).load.blocks with
  | b :: _ =>
    match b.tp with
    | none => .next s
    | some t =>
      .next (if s.time.wall.toNat < t.toNat then s
        else
          let s := modModel p (fun m => { m with load := { m.load with blocks := m.load.blocks.drop 1 } }) s
          let s := passTc t 2 part s
          let s := s.pdies.foldl (fun s x => (x.2.open_.filter (fun q => q.part == part)).foldl (fun s q => closePallet x.1 q s) s) s
          let s := modEpoch p b.epoch (fun e =>
            { e with params := b.block.vals.foldl (fun m v => mapSet v.1 v.2 m) e.params, offsets := b.block.offsets, offVersion := e.offVersion + 1 }) s
          loadCode p 0x00 s)
  | [] => .next s

/-- Whether a stamped slice is pinned to an epoch of a partition. -/
def pinnedTo (part : Part) (e : BitVec 16) (st : Stamped) : Bool := dPart st.s.desc == part && st.modelEpoch == e

/-- The pinned slices of one P-die answered at once (R366): retained ones with source `hi`, the others with source `lo`. -/
def answerPinned (pin : Stamped → Bool) (hi lo : Nat) (s : State) (x : Nat × PDie) : State :=
  let s := (x.2.slots.filter (fun k => pin k.2.st)).foldl (fun s k => answerSlot x.1 k.1 (slotAnswer hi) s) s
  let early := x.2.inbox.filter pin
  let slow := (x.2.slow.filter (fun w => pin w.st)).map (·.st)
  let s := modPdie x.1 (fun y => { y with inbox := y.inbox.filter (fun st => !pin st), slow := y.slow.filter (fun w => !pin w.st) }) s
  (early ++ slow).foldl (fun s st => finalVerdict st { defaultAnswer s st with source := lo } s) s

/-- Tokens that wait or are on their way discarded. -/
def dropTokens (drop : TokenMsg → Bool) (s : State) : State :=
  let keep := fun (l : List TokenMsg) => l.filter (fun t => !drop t)
  { s with sdies := mapAll (fun (x : SDie) => { x with tokens := keep x.tokens, ctxs := mapAll (fun (c : SeqContext) => { c with queue := keep c.queue }) x.ctxs }) s.sdies }

/-- Every slice and token pinned to an epoch of a partition answered or discarded. -/
def answerEpoch (part : Part) (e : BitVec 16) (hi lo : Nat) (s : State) : State :=
  dropTokens (fun t => t.part == part && t.epoch == e) (s.pdies.foldl (answerPinned (pinnedTo part e) hi lo) s)

/-- FORCED_RETIREMENT (R366): 2 ms after its T_c an epoch still DRAINING is retired; escalated and SEQUENCE slices are answered with source 4, the
rest with source 5. -/
def execForcedRetirement (part : Part) (s : State) : Out :=
  let p := part.val
  match drainingEpoch s p with
  | none => .next s
  | some e =>
    .next (if nowNs s < e.since + 2000000 then s
      else
        let s := answerEpoch part e.num 4 5 s
        let s := modEpoch p e.num (fun x => { x with st := .retired, inflight := 0 }) s
        broadcastTc p (modModel p (fun m => { m with forced := if m.forced = 255 then 255 else m.forced + 1 }) s))

/-- The bytes of the pages of a mask zeroed (R364, R314). -/
def zeroPages (mask : BitVec 2048) (m : List Host.Cell) : List Host.Cell := m.filter (fun c => !mask.getLsbD (c.1 / 4096))

/-- A placement withdrawn (Table 6): pages zeroed and their loaded bits cleared, the code regions invalid, grants and reservations dropped. -/
def withdraw (part : Part) (groups : List Group) (pl : Placement) (s : State) : State :=
  let s := pl.pages.foldl (fun s q => modBrick q.1 (fun x =>
    { x with m := { x.m with bmem := zeroPages q.2 x.m.bmem, loaded := x.m.loaded &&& ~~~q.2 } }) s) s
  let s := groups.foldl (fun s g => (groupBricks s [g]).foldl (fun s b => modBrick b (fun x =>
    let rg := Fin.ofNat 8 (2 * g.window.val + pl.reg % 2)
    { x with regions := x.regions.set rg.val { x.regions.get rg with valid := false } rg.isLt }) s) s) s
  reserve pl false { s with grants := s.grants.filter (fun g => !(g.part == part && g.epoch == pl.id && g.epoch != 0)) }

/-- The statistics slots and the lookup tables of an epoch freed on every brick (R156, R224). -/
def freeSlots (part : Part) (e : BitVec 16) (s : State) : State :=
  let ofWin := fun (x : BrickSt) (k : Nat) => (x.wins.get (Fin.ofNat 4 (k / 262144))).part == part && k / 4 % 65536 == e.toNat
  { s with bricks := mapAll (fun (x : BrickSt) => { x with
      vec := { x.vec with stats := x.vec.stats.filter (fun q => !(q.2.part == part && q.2.epoch == e)) },
      m := { x.m with luts := x.m.luts.filter (fun q => !ofWin x q.1) } }) s.bricks }

/-- EPOCH_FREED (R364, R112): a retired epoch leaves, and its placement is withdrawn unless another resident epoch shares it. -/
def execEpochFreed (part : Part) (s : State) : Out :=
  let p := part.val
  match (modelAt s p).epochs.find? (fun e => e.st == .retired) with
  | none => .next s
  | some e =>
    let groups := (placeGroups s p e).map (·.1)
    let s := modModel p (fun m => { m with epochs := m.epochs.filter (fun x => x.num != e.num) }) s
    let s := freeSlots part e.num s
    .next (if (modelAt s p).epochs.any (fun x => x.place.id == e.place.id) then s else withdraw part groups e.place s)

/-- GAP_PAGES_WRITTEN (R361): once the previous epoch is freed, the remaining pages are written and the target is available. -/
def execGapPagesWritten (part : Part) (s : State) : Out :=
  let p := part.val
  match activeEpoch s p with
  | none => .next s
  | some e =>
    .next (if !e.gapMissing || (modelAt s p).epochs.any (fun x => x.st == .draining || x.st == .retired) then s
      else
        let acc := (placeGroups s p e).foldl (fun acc g => (groupBricks s [g.1]).foldl (fun acc b => writePages g.1.window b acc) acc) (e.place, s)
        modEpoch p e.num (fun x => { x with gapMissing := false, place := acc.1 }) acc.2)

end Sys2Proof.Machine
end

