-- ==== Sys2Proof/Machine/Drift.lean ====
section
/-!
DEFINITION. The drift watch and re-tempering (R158 to R175).
-/

namespace Sys2Proof.Machine

open Sys2Proof

/-! ### Windows (R158, R159) -/

/-- window_ms of PRT_DRIFT_CTL. -/
def windowMs (ctl : Word) : Nat := bits 9 0 ctl.toNat
/-- hold_windows. -/
def holdWindows (ctl : Word) : Nat := bits 23 16 ctl.toNat
/-- watch_en. -/
def watchEn (ctl : Word) : Bool := bit 30 ctl.toNat
/-- retemper_en. -/
def retemperEn (ctl : Word) : Bool := bit 31 ctl.toNat

/-- Whether a set was short and whether it was above in a window: the increases of its sums since the last window (R158). -/
def evalSet (d : StatDesc) (now was : Dyadic2 × Dyadic2 × Nat) : Bool × Bool :=
  let n := now.2.2 - was.2.2
  let e := dyAdd now.2.1 (dyNeg was.2.1)
  if n < d.minCount then (true, false)
  else if n = 0 then (false, false)
  else
    let q := rnaRatio 53 e.m n
    (false, dyLt (val32 d.threshold) ⟨q.m, q.e + e.e⟩)

/-- The watched sets of an epoch with what they were in the window: index, short, above. -/
def evalWindow (e : ModelEpoch) (now was : Map (Dyadic2 × Dyadic2 × Nat)) : List (Nat × Bool × Bool) :=
  (e.vd.stats.zipIdx.filter (fun d => d.1.watch)).map (fun d =>
    (d.2, evalSet d.1 (mapGet (⟨0, 0⟩, ⟨0, 0⟩, 0) now d.2) (mapGet (⟨0, 0⟩, ⟨0, 0⟩, 0) was d.2)))

/-- A mask of set indices. -/
def setMask (l : List Nat) : Byte := BitVec.ofNat 8 ((l.map (fun i => 2 ^ i)).sum)

/-! ### The start of an attempt (R162, R164) -/

/-- Whether a partition's tier-2 model spans wall peers. -/
def spans (s : State) (p : Nat) : Bool := ((activeEpoch s p).map (fun e => (peerStage s e).isSome)).getD false

/-- Whether min_interval has elapsed since the end of the previous attempt. -/
def intervalOver (s : State) (p : Nat) : Bool :=
  match (partAt s p).drift.lastEnd with
  | some t => decide (t + (effectiveBound s 8 p).2 * 1000000000 ≤ nowNs s)
  | none => true

/-- The lowest S-die whose capture buffer is free. -/
def freeCapture (s : State) : Option Nat :=
  (List.range 4).find? (fun i => let x := sdieAt s i; x.captureOf.isNone && x.hbmReady && !x.lost)

/-- An attempt starts: CAPTURING, with the bounds in force. -/
def startAttempt (part : Part) (s : State) : State :=
  match freeCapture s, activeEpoch s part.val with
  | some i, some e =>
    let a : Attempt :=
      { bounds := (rangeFrom 7 9).map (fun k => effectiveBound s k part.val), epoch := e.num, sdie := Fin.ofNat 4 i, startNs := nowNs s }
    let s := modPart part.val (fun x => { x with drift := { x.drift with state := 3, attempt := some a } }) s
    modSdie i (fun x => { x with captureOf := some part }) s
  | _, _ => s

/-- Whether an attempt may start but for the state, the last window and min_interval (R162). -/
def mayTemper (s : State) (p : Nat) : Bool :=
  let d := (partAt s p).drift
  retemperEn d.ctl && !d.hold && (freeCapture s).isSome && (activeEpoch s p).isSome && !spans s p

/-- DRIFT_WINDOW_END (R158, R159, R162): the watched sets are evaluated; the hold count and the state follow; the automatic trigger comes
with the window that ends in DRIFTING. -/
def execDriftWindowEnd (part : Part) (s : State) : Out :=
  let p := part.val
  let d := (partAt s p).drift
  match activeEpoch s p with
  | none => .next s
  | some e =>
    .next (if d.state.val = 0 ∨ nowNs s < d.windowNs + windowMs d.ctl * 1000000 then s
      else
        let now := statsNow s p
        let r := evalWindow e now d.seen
        let above := (r.filter (fun x => x.2.2)).map (·.1)
        let short := (r.filter (fun x => x.2.1)).map (·.1)
        let allShort := r.all (fun x => x.2.1)
        let d : DriftSt := { d with setsAbove := setMask above, setsShort := setMask short, windowNs := nowNs s, seen := now }
        if d.state.val = 3 ∨ d.state.val = 4 then modPart p (fun x => { x with drift := d }) s
        else
          let hold : Nat := if !above.isEmpty then min 255 (d.holdCount + 1) else if allShort then d.holdCount else 0
          let calm : Nat := if above.isEmpty && !allShort then d.calm + 1 else 0
          let d : DriftSt := { d with holdCount := hold, calm }
          let s := if d.state.val = 1 ∧ holdWindows d.ctl ≤ hold then
              event p 1 d.setsAbove.toNat (modPart p (fun x => { x with drift := { d with state := 2, calm := 0 } }) s)
            else if d.state.val = 2 ∧ holdWindows d.ctl ≤ calm then
              event p 2 0 (modPart p (fun x => { x with drift := { d with state := 1, calm := 0 } }) s)
            else modPart p (fun x => { x with drift := d }) s
          if (partAt s p).drift.state.val = 2 ∧ !above.isEmpty ∧ mayTemper s p = true ∧ intervalOver s p = true then startAttempt part s else s)

/-! ### The operator's commands (R160, R162, R168, R174, R175) -/

/-- PRT_DRIFT_CTL as a write stores it (Table 11 of the quantiser chapter). -/
def driftCtlStored (s : State) (p : Nat) (v : Word) : Word :=
  let n := v.toNat
  let en := bit 31 n && decide (0 < (effectiveBound s 7 p).2)
  BitVec.ofNat 32 (bitAt 31 en + bitAt 30 (bit 30 n) + max 1 (bits 23 16 n) * 2 ^ 16 + clampNat 1 1000 (bits 9 0 n))

/-- PRT_DRIFT_CTL takes a value: an attempt may be cancelled, the watch ends or starts (R160, R169). -/
def setDriftCtl (p : Nat) (v : Word) (s : State) : State :=
  let v := driftCtlStored s p v
  let s := modPart p (fun x => { x with drift := { x.drift with ctl := v } }) s
  let busy := (partAt s p).drift.state.val = 3 ∨ (partAt s p).drift.state.val = 4
  if !watchEn v then endAttempt p 0x08 0 s
  else if busy ∧ !retemperEn v then endAttempt p 0x08 1 s
  else startWatch p s

/-- DRIFT_CTL_WRITE (R160, R174): accepted in an operator or installer session. -/
def execDriftCtlWrite (path : Path) (part : Part) (value : Word) (s : State) : Out :=
  .next (commandWith path operatorRights 0x0028 part.val (fun _ => true) (leBytes 4 value.toNat) id (setDriftCtl part.val value) s)

/-- Step 1 of a partition reset (R438, R439): the fence, the load and the attempt abandoned; a trigger during a reset is counted alone. Step 2
follows. -/
def startReset (p : Nat) (s : State) : State :=
  let s := cntPart p 11 1 s
  if fenced s p then s
  else
    let s := modPart p (fun x => { x with resetStep := 2, resetAnswered := 0 }) s
    let s := abandonLoad p 0x0D s
    let d := (partAt s p).drift.state.val
    if d = 3 ∨ d = 4 then endAttempt p 0x05 0 s else s

/-- The outcome field set. -/
def setOutcome (p : Nat) (o : Byte) (s : State) : State := modPart p (fun x => { x with drift := { x.drift with outcome := o } }) s

/-- RETEMPER_START (R162): accepted from WATCHING or DRIFTING; min_interval blocks it with TOO_SOON, a spanned model with NOT_PERMITTED. -/
def execRetemperStart (path : Path) (part : Part) (s : State) : Out :=
  let p := part.val
  let watching := fun (s : State) => (partAt s p).drift.state.val = 1 ∨ (partAt s p).drift.state.val = 2
  let ok := fun (s : State) => decide (watching s) && mayTemper s p && intervalOver s p
  .next (commandWith path operatorRights 0x0028 p ok (leBytes 4 1) id
    (fun s => if spans s p then setOutcome p 0x0C s
      else if ok s then startAttempt part s
      else if watching s ∧ mayTemper s p = true then setOutcome p 0x09 s
      else s) s)

/-- REVERT (R168): valid only while the active epoch was created by re-tempering and its parent's codes are kept. -/
def execRetemperRevert (path : Path) (part : Part) (s : State) : Out :=
  let p := part.val
  let ok := fun (s : State) => ((activeEpoch s p).map (fun e => e.tempered)).getD false
    && !(modelAt s p).load.commits.any (fun (c : CommitSt) => c.kind == .revert)
  .next (commandWith path operatorRights 0x0028 p ok (leBytes 4 2) id
    (fun s => if ok s then acceptCommit p .revert s else setOutcome p 0x0B s) s)

/-- RELEASE (R168): the hold bit cleared. -/
def execRetemperRelease (path : Path) (part : Part) (s : State) : Out :=
  .next (commandWith path operatorRights 0x0028 part.val (fun _ => true) (leBytes 4 4) id
    (modPart part.val (fun x => { x with drift := { x.drift with hold := false } })) s)

/-- CAPTURE_TIMEOUT (R164): capture_time expires. -/
def execCaptureTimeout (part : Part) (s : State) : Out :=
  let d := (partAt s part.val).drift
  match d.attempt with
  | some a => .next (if d.state.val = 3 ∧ a.startNs + attemptBound a 10 * 1000000 ≤ nowNs s then endCapture part.val a s else s)
  | none => .next s

/-! ### The optimisation (R165) -/

/-- OPTIMISATION_START (R165): a free standby brick of the bond takes the capture, with a read grant on the capture region (R299). -/
def execOptimisationStart (part : Part) (brick : Brick) (s : State) : Out :=
  let p := part.val
  let d := (partAt s p).drift
  let busy := s.parts.any (fun q => (q.2.drift.attempt.bind (fun a => a.brick)) == some brick.val)
  match d.attempt with
  | some a =>
    .next (if d.state.val = 4 ∧ a.brick.isNone = true ∧ s.st.running.bond.standby.contains brick.val = true ∧ brickServes s brick.val = true
        ∧ busy = false then
      { modPart p (fun x => { x with drift := { x.drift with attempt := some { a with brick := some brick.val } } }) s with
        grants := s.grants ++ [{ part, base := 2 ^ 38 + a.sdie.val * 2 ^ 36 + 0x8A0000000, len := 2 ^ 31, epoch := a.epoch }] }
      else s)
  | none => .next s

/-- A temperable set with its place in the captured rows: its tensor's format, the groups, and of each lane its group. -/
structure TemperSet where
  set : Nat
  tensor : Nat
  elem : Elem
  gFirst : Nat
  codes : List Nat
  lanes : List Nat
  start : Nat
  deriving DecidableEq, Repr

/-- The temperable sets of an epoch in ascending order. -/
def temperSets (e : ModelEpoch) (c : HykaiCode) : List TemperSet :=
  let cx := modelCtx e c [] []
  (e.vd.stats.zipIdx.filter (fun d => d.1.temper)).foldl (fun acc d =>
    let t := hTensor cx d.1.tensor
    let G := hGroup t
    let out := hOutliers cx d.1.tensor
    let lanes := (List.range t.dim1).filter (fun n => !out.any (· == some n) && hInSet d.1 false d.1.tensor (n / G))
    acc ++ [{ set := d.2, tensor := d.1.tensor, elem := hElem t, gFirst := d.1.gFirst,
              codes := ((hActScales cx d.1.tensor).drop d.1.gFirst).take (d.1.gLast + 1 - d.1.gFirst),
              lanes := lanes.map (fun n => n / G - d.1.gFirst),
              start := (acc.map (fun x => x.lanes.length)).sum }]) []

/-- The finite values of a group of a set in some rows, rows ascending and then lanes ascending. -/
def groupValues (t : TemperSet) (g : Nat) (rows : List (List Word)) : List Word :=
  rows.flatMap (fun r => ((t.lanes.zipIdx.filter (fun l => l.1 == g)).map (fun l => r.getD (t.start + l.2) 0)).filter isFinite32)

/-- rna32 of the exact quotient of a value by a scale. -/
def quot32 (u s : Dyadic2) : Word :=
  let q := rnaRatio 24 u.m s.m.natAbs
  (rna32 ⟨if s.m < 0 then -q.m else q.m, q.e + (u.e - s.e)⟩).1

/-- One element's term of the gradient (R165). -/
def gradStep (L : Nat) (s : Dyadic2) (d : Word) (w : Word) : Word :=
  let u := val32 w
  let r := rnaQuot u s
  let q := clampInt (-(L : Int)) L r
  let j := if r.natAbs ≤ L then (rna32 (dyAdd (dyInt q) (dyNeg (val32 (quot32 u s))))).1 else (rna32 (dyInt q)).1
  let e := (rna32 (dyAdd (dyMul s (dyInt q)) (dyNeg u))).1
  (fadd d (rna32 (dyMul (val32 e) (val32 j))).1).1

/-- The scale that a parameter stands for: its nearest code within its bounds. -/
def psiCode (lo hi : Nat) (psi : Word) : Nat := (clampInt lo hi (rnaInt (val32 psi))).toNat

/-- The gradient of a group over a batch. -/
def groupGrad (L : Nat) (s : Dyadic2) (us : List Word) : Word :=
  if us.isEmpty then 0
  else
    let d := us.foldl (gradStep L s) 0
    quot32 (val32 (rna32 (dyMul (val32 d) s)).1) ⟨us.length, 0⟩

/-- The least S8 code whose value times 7 reaches a magnitude. -/
def leastScale (m : Dyadic2) : Nat :=
  if m.m = 0 then 0 else ((rangeFrom 1 0xF7).find? (fun c => dyLe m (dyMul ⟨7, 0⟩ (s8Val c)))).getD 0xF7

/-- narrow of one block of at most 32 parameters (R165). -/
def narrowBlock (b : List Word) : List Word :=
  let sc := leastScale (b.foldl (fun m x => dyMax m (magnitude x)) ⟨0, 0⟩)
  if sc = 0 then b.map (fun _ => 0)
  else b.map (fun x => (rna32 (dyMul (dyInt (clampInt (-7) 7 (rnaQuot (val32 x) (s8Val sc)))) (s8Val sc))).1)

/-- narrow, block by block; `n` is the number of blocks. -/
def narrowAll : Nat → List Word → List Word
  | 0, _ => []
  | n + 1, l => narrowBlock (l.take 32) ++ narrowAll n (l.drop 32)

/-- One step of the optimisation of a set (R165): the parameters and the momentum after it. -/
def temperStep (t : TemperSet) (bounds : List (Nat × Nat)) (eta : Dyadic2) (batch : List (List Word)) (x : List Word × List Word) :
    List Word × List Word :=
  let grad := (t.codes.zipIdx).map (fun c =>
    if c.1 = 0 then (0 : Word)
    else
      let b := bounds.getD c.2 (1, 0xF7)
      groupGrad t.elem.limit (s8Val (psiCode b.1 b.2 (x.1.getD c.2 0))) (groupValues t c.2 batch))
  let nb := ceilDiv t.codes.length 32
  let gq := narrowAll nb grad
  let mom := narrowAll nb ((x.2.zip gq).map (fun m => (rna32 (dyAdd (dyMul ⟨7, -3⟩ (val32 m.1)) (dyMul ⟨1, -3⟩ (val32 m.2)))).1))
  ((x.1.zip mom).map (fun p => (rna32 (dyAdd (val32 p.1) (dyNeg (dyMul eta (val32 p.2))))).1), mom)

/-- The batch of step t: the next 128 training rows, cyclically. -/
def batchOf (train : List (List Word)) (t : Nat) : List (List Word) :=
  (List.range 128).map (fun i => train.getD ((t * 128 + i) % max 1 train.length) [])

/-- The bounds of each group of a set: max_step codes about the active code (R165). -/
def temperBounds (t : TemperSet) (step : Nat) : List (Nat × Nat) := t.codes.map (fun c => (max 1 (c - step), min 0xF7 (c + step)))

/-- The new codes of a set, each with whether the final clamp held it at lo or hi (R163, R165). A code 0x00 is never changed (R161). -/
def temperSet (a : Attempt) (t : TemperSet) : List (Nat × Bool) :=
  let train := trainingRows a
  let bounds := temperBounds t (attemptBound a 13)
  let eta : Dyadic2 := ⟨1, -(attemptBound a 12 : Int)⟩
  let x := (List.range (attemptBound a 11)).foldl (fun x k => temperStep t bounds eta (batchOf train k) x)
    (t.codes.map (fun c => (rna32 (dyInt c)).1), t.codes.map (fun _ => (0 : Word)))
  (t.codes.zipIdx).map (fun c =>
    if c.1 = 0 then (0, false)
    else
      let b := bounds.getD c.2 (1, 0xF7)
      let r := rnaInt (val32 (x.1.getD c.2 0))
      ((clampInt b.1 b.2 r).toNat, decide (r < b.1 ∨ (b.2 : Int) < r)))

/-- The sum of squared errors of a set on the held-out rows under some codes, in binary64 (R155, R166). -/
def heldOutError (a : Attempt) (t : TemperSet) (codes : List Nat) : DWord :=
  let held := (a.rows.zipIdx.filter (fun r => r.2 % 4 == 3)).map (·.1)
  held.foldl (fun acc r => (t.lanes.zipIdx).foldl (fun acc l =>
    let sc := codes.getD l.1 0
    let el := hStat t.set t.elem.bits (s8Val sc) (quantLane t.elem false sc (r.getD (t.start + l.2) 0) none)
    if el.counted then dadd acc el.e2 else acc) acc) 0

/-- What an attempt finds: the new scale codes by tensor and group, how many are clamped, and whether they are accepted (R165, R166). -/
def optimise (a : Attempt) (e : ModelEpoch) (c : HykaiCode) : Map Nat × Nat × Bool :=
  let sets := (temperSets e c).map (fun t => (t, temperSet a t))
  let errs := sets.map (fun x => (val64 (heldOutError a x.1 x.1.codes), val64 (heldOutError a x.1 (x.2.map (·.1)))))
  let sum := fun (f : Dyadic2 × Dyadic2 → Dyadic2) => errs.foldl (fun m x => dyAdd m (f x)) ⟨0, 0⟩
  let gain : Dyadic2 := dyAdd ⟨1, 0⟩ (dyNeg ⟨1, -(attemptBound a 14 : Int)⟩)
  let scales := sets.foldl (fun m x => (x.2.zipIdx).foldl (fun m g => mapSet (x.1.tensor * 4096 + x.1.gFirst + g.2) g.1.1 m) m) e.scales
  (scales, (sets.map (fun x => (x.2.filter (·.2)).length)).sum,
   errs.all (fun x => dyLe x.2 x.1) && dyLe (sum (·.2)) (dyMul gain (sum (·.1))))

/-- OPTIMISATION_COMPLETE (R165 to R167): the result is accepted and committed, or NO_GAIN. -/
def execOptimisationComplete (part : Part) (s : State) : Out :=
  let p := part.val
  let d := (partAt s p).drift
  match d.attempt, activeEpoch s p with
  | some a, some e =>
    .next (if d.state.val ≠ 4 ∨ a.brick.isNone = true ∨ (modelAt s p).load.commits.any (fun (c : CommitSt) => c.kind == .retemper) = true then s
      else match e.vd.t2 with
        | none => s
        | some c =>
          let r := optimise a e c
          if r.2.2 then
            acceptCommit p .retemper (modPart p (fun x => { x with drift := { x.drift with next := r.1, clamped := BitVec.ofNat 8 (min 255 r.2.1) } }) s)
          else endAttempt p 0x02 1 s)
  | _, _ => .next s

/-- RETEMPER_TIMEOUT (R163, Table 8 of the quantiser chapter): time_limit from the end of capture expires before a result is accepted. -/
def execRetemperTimeout (part : Part) (s : State) : Out :=
  let p := part.val
  let d := (partAt s p).drift
  match d.attempt with
  | some a =>
    .next (if d.state.val = 4 ∧ a.captureEndNs + attemptBound a 15 * 1000000 ≤ nowNs s
        ∧ (modelAt s p).load.commits.any (fun (c : CommitSt) => c.kind == .retemper) = false then endAttempt p 0x03 1 s else s)
  | none => .next s

/-- RETEMPER_LOOP_PINNED (R163): 1 ms after its commit an epoch that carries a clamped code is still active; the bound is max_step. -/
def execRetemperLoopPinned (part : Part) (s : State) : Out :=
  let p := part.val
  match (partAt s p).drift.pinWatch with
  | some (e, t) =>
    .next (if nowNs s < t then s
      else
        let s := modPart p (fun x => { x with drift := { x.drift with pinWatch := none } }) s
        if activeNum s p = e then event p 4 13 s else s)
  | none => .next s

end Sys2Proof.Machine
end

