-- ==== Sys2Proof/Machine/FlowEvents.lean ====
section
/-!
DEFINITION. The events of the flow table's tiers: warm probes, demotions and the sweepers (R79 to R84).
-/

namespace Sys2Proof.Machine

open Sys2Proof

/-! ### The warm tier (R82 to R84) -/

/-- The home S-die of a digest (R82). -/
def warmHome (d : BitVec 111) : Nat := d.toNat % 4

/-- The warm bucket of a digest. -/
def warmBucketOf (d : BitVec 111) : Nat := d.toNat / 4 % 2 ^ 23

/-- Whether a warm bucket is lost: its S-die or its channel is retired (R466, R467). -/
def warmLost (x : SDie) (b : Nat) : Bool := x.lost || inHole x (b * 1024)

/-- Whether two entries are the same flow's (R82). -/
def sameFlow (a b : FlowEntry) : Bool := a.digest == b.digest && a.part == b.part && a.gen == b.gen

/-- The lowest-numbered P-die in service, or P-die i while it is (R82). -/
def countingPdie (s : State) (i : Nat) : Nat :=
  if !(pdieAt s i).lost then i else ((List.range 4).find? (fun p => !(pdieAt s p).lost)).getD i

/-- The warm entry that a probe finds: the same digest, partition and generation, not EMPTY (R70, R83, R89). -/
def warmFind (s : State) (pr : WarmProbe) : Option FlowEntry :=
  let x := sdieAt s (warmHome pr.digest)
  if warmLost x (warmBucketOf pr.digest) then none
  else (mapGet [] x.warm (warmBucketOf pr.digest)).find? (fun e =>
    e.digest == pr.digest && e.part == pr.part && e.gen == pr.gen && !stale (flowCtx s) e)

/-- Whether a probe's entry still waits for its reply: the entry is YOUNG and no later insertion of its flow has probed again (R83). -/
def probeOpen (s : State) (p : Nat) (pr : WarmProbe) : Bool :=
  let x := pdieAt s p
  let r : FlowRef := { tracked := true, digest := pr.digest, bucket := pr.bucket, part := pr.part, gen := pr.gen, geom := pr.geom }
  (((peekEntry (flowCtx s) r x).map (·.young)).getD false)
    && !x.probes.any (fun q => q.digest == pr.digest && q.part == pr.part && decide (pr.id < q.id))

/-- WARM_PROBE_REPLY (R83): within 2 us a hit leaves the warm tier and is merged into the entry, and a miss leaves the entry; a later reply,
or one whose entry has left the table, is discarded and counted. -/
def execWarmProbeReply (p : Die) (probe : Nat) (s : State) : Out :=
  let x := pdieAt s p.val
  match x.probes.find? (fun q => q.id == probe) with
  | none => .next s
  | some pr =>
    if probeOpen s p.val pr && decide (nowNs s ≤ pr.sentNs + 2000) then
      let hit := warmFind s pr
      let s := match hit with
        | some e => modSdie (warmHome pr.digest) (fun d =>
            { d with warm := mapMod [] (warmBucketOf pr.digest) (fun l => l.filter (fun y => !sameFlow y e)) d.warm }) s
        | none => s
      .next (modPdie p.val (warmReply (flowCtx s) pr hit) s)
    else
      let live := probeOpen s p.val pr
      .next (modPdie p.val (fun y =>
        let y := if live then warmTimeout (flowCtx s) pr y else y
        pcnt 110 1 { y with probes := y.probes.filter (fun q => q.id != pr.id) }) s)

/-- WARM_PROBE_TIMEOUT (R83): 2 us after the insertion without a reply, the entry becomes ESTABLISHED. -/
def execWarmProbeTimeout (p : Die) (probe : Nat) (s : State) : Out :=
  match (pdieAt s p.val).probes.find? (fun q => q.id == probe) with
  | none => .next s
  | some pr =>
    if probeOpen s p.val pr && decide (pr.sentNs + 2000 ≤ nowNs s) then .next (modPdie p.val (warmTimeout (flowCtx s) pr) s)
    else .next s

/-- An entry put into a warm bucket of 8 (R82): merged with its flow's, into a free place, in the place of a stale entry (R89), or in place of
the oldest. What is given beside the bucket: whether a stale entry was reclaimed, and whether a live one was replaced. -/
def warmPlace (c : FlowCtx) (e : FlowEntry) (l : List FlowEntry) : List FlowEntry × Bool × Bool :=
  if l.any (fun y => sameFlow y e && !stale c y) then
    (l.map (fun y => if sameFlow y e && !stale c y then { mergeEntries y e with young := false } else y), false, false)
  else if l.length < 8 then (l ++ [e], false, false)
  else
    match l.findIdx? (fun y => stale c y) with
    | some i => (l.set i e, true, false)
    | none =>
      match oldestOf c.ts (l.zipIdx.map (fun y => (y.2, y.1))) with
      | some o => (l.set o.1 e, false, true)
      | none => (l ++ [e], false, false)

/-- DEMOTION (R79, R82): the oldest entry on its way reaches its home S-die. -/
def execDemotion (sdie : Die) (s : State) : Out :=
  let x := sdieAt s sdie.val
  match x.demoting with
  | [] => .next s
  | d :: rest =>
    let b := warmBucketOf d.entry.digest
    let s := putSdie sdie.val { x with demoting := rest } s
    if warmLost x b then .next (cntPdie d.pdie.val 111 1 s)
    else
      let r := warmPlace (flowCtx s) d.entry (mapGet [] x.warm b)
      let s := modSdie sdie.val (fun y => { y with warm := mapSet b r.1 y.warm }) s
      let s := if r.2.1 then cntPdie (countingPdie s sdie.val) 113 1 s else s
      .next (if r.2.2 then cntPdie d.pdie.val 111 1 s else s)

/-! ### The sweepers (R81, R82, R89, R90) -/

/-- The buckets per us that the idle timeouts need; 1 while no partition has one (R81). -/
def sweepNeed (s : State) : Nat :=
  let us := (s.parts.filterMap (fun x =>
    let idle := min 3600 (bits 31 20 x.2.flow.toNat)
    if idle = 0 then none else some (idle * 1000000)))
  match us with
  | [] => 1
  | a :: t => ceilDiv (786432 * 16) (t.foldl min a)

/-- SWEEPER_VISIT (R81): the next bucket is swept; after the last the sweep's wall time is kept. -/
def execSweeperVisit (p : Die) (s : State) : Out :=
  let s := loopOutput 6 0 (sweepNeed s) s
  .next (modPdie p.val (fun x =>
    let i := x.sweepPos
    let x := if i = 0 then { x with sweepStartNs := nowNs s } else x
    let x := sweepBucket (flowCtx s) i x
    let x := { x with flushLeft := x.flushLeft - 1 }
    if i + 1 < hotBuckets then { x with sweepPos := i + 1 }
    else { x with sweepPos := 0, lastSweepMs := min 65535 ((nowNs s - x.sweepStartNs) / 1000000) }) s)

/-- WARM_SWEEPER_VISIT (R82): the next warm bucket is swept by age, generation and flow-geometry epoch. -/
def execWarmSweeperVisit (sdie : Die) (s : State) : Out :=
  let x := sdieAt s sdie.val
  let c := flowCtx s
  let l := mapGet [] x.warm x.warmPos
  let old := (l.filter (fun e => stale c e)).length
  let idle := (l.filter (fun e => !stale c e && aged c e)).length
  let keep := l.filter (fun e => !stale c e && !aged c e)
  let warm := if l.isEmpty then x.warm else if keep.isEmpty then mapDel x.warmPos x.warm else mapSet x.warmPos keep x.warm
  let s := putSdie sdie.val { x with warm, warmPos := (x.warmPos + 1) % 2 ^ 23 } s
  let k := countingPdie s sdie.val
  .next (cntPdie k 113 old (cntPdie k 105 idle s))

end Sys2Proof.Machine
end

