-- ==== Sys2Proof/Machine/MemSys.lean ====
section
/-!
DEFINITION. The memory system: device addresses, grants, the general cache with its prefetcher, lines read and written over mortar
(R298 to R308, R315).
-/

namespace Sys2Proof.Machine

open Sys2Proof

/-! ### Device addresses (R298, R302) -/

/-- Where the byte of a device address lies: the S-die, whether in its SRAM, the offset there. -/
structure MemPlace where
  sdie : Nat
  sram : Bool
  off : Nat
  deriving DecidableEq, Repr

/-- The place of a device address; none beyond its space's limit. -/
def placeOf (a : Nat) : Option MemPlace :=
  match bits 39 38 a with
  | 1 => if bits 35 0 a < 0xB00000000 then some ⟨bits 37 36 a, false, bits 35 0 a⟩ else none
  | 2 =>
    let o := bits 37 0 a
    let j := o / 4096
    if o < 0x1600000000 then some ⟨j % 4, false, 0x320000000 + j / 4 * 4096 + o % 4096⟩ else none
  | 3 => if bits 27 0 a < 0x10000000 then some ⟨bits 37 36 a, true, bits 27 0 a⟩ else none
  | _ => none

/-- The home S-die that an address names, beyond the limit too. -/
def homeOf (a : Nat) : Nat :=
  match bits 39 38 a with
  | 2 => bits 37 0 a / 4096 % 4
  | _ => bits 37 36 a

/-- The name of a line among an S-die's failed lines. -/
def lineName (p : MemPlace) : Nat := p.off / 256 * 2 + b2n p.sram

/-- Whether a grant of a partition covers bytes of device address space with the right asked for (R299). -/
def granted (s : State) (part : Part) (a n : Nat) (write : Bool) : Bool :=
  s.grants.any (fun g => g.part == part && (g.write || !write) && decide (g.base ≤ a) && decide (a + n ≤ g.base + g.len))

/-! ### The general cache (R303, R304, R307) -/

/-- The sets of an S-die's general cache: what the pinned region leaves of 64 MiB, on grade E with the 144 MiB of the contexts. -/
def cacheSets (s : State) (x : SDie) : Nat := (64 - x.pinnedMib + (if s.dev.grade.val = 2 then 144 else 0)) * 256

/-- Whether a line is in the cache. -/
def cached (sets : Nat) (x : SDie) (line : Nat) : Bool := (mapGet [] x.cache (line % sets)).any (fun c => c.line == line)

/-- A line made the most recently used of its set of 16; what falls out is the least recently used. The second part says that a prefetched
line fell out unread. -/
def cacheTouch (sets line : Nat) (unread : Bool) (x : SDie) : SDie × Bool :=
  let set := mapGet [] x.cache (line % sets)
  let l := { line, unread } :: set.filter (fun (c : CacheLine) => c.line != line)
  ({ x with cache := mapSet (line % sets) (l.take 16) x.cache }, (l.drop 16).any (fun c => c.unread))

/-- A DRAM line read by a brick stream or the loader: served from the cache, or read and allocated. -/
def cacheRead (sets line i : Nat) (s : State) : State :=
  let x := sdieAt s i
  let hit := cached sets x line
  let r := cacheTouch sets line false x
  let s := cntSdie i (if hit then 0 else 1) 1 (putSdie i r.1 s)
  if r.2 then cntSdie i 3 1 s else s

/-- Lines prefetched: those of a list that are not cached yet (R307). -/
def prefetch (sets i : Nat) (lines : List Nat) (s : State) : State :=
  lines.foldl (fun s line =>
    let x := sdieAt s i
    if cached sets x line then s
    else
      let r := cacheTouch sets line true x
      let s := cntSdie i 2 1 (putSdie i r.1 s)
      if r.2 then cntSdie i 3 1 s else s) s

/-- The lines of DRAM at an S-die that a stream will read in the bytes from `lo`, `n` of them in steps of 32 (every address and length of a
stream is a multiple of 32). -/
def linesAhead (d : Vector DWord 4) (i lo n : Nat) : List Nat :=
  (((List.range (n / 32)).filterMap (fun k =>
    (placeOf (dAddr d (dSrc d) (lo + 32 * k))).bind (fun p => if p.sdie = i ∧ !p.sram then some (p.off / 256) else none))).dedup)

/-! ### Requests (R299, R305, R307, R315) -/

/-- The bytes of the next request of a stream: to the end of the row, the line and the stream. -/
def requestBytes (d : Vector DWord 4) (store : Bool) (pos a : Nat) : Nat :=
  min (256 - a % 256) (min (dTotal d - pos) (if store then 256 else dRowLen d - pos % dRowLen d))

/-- The outcome of an ECC check counted, a lasting error recorded (R315, R316); `addr` is the device address. -/
def eccCount (i : Nat) (ecc : EccOutcome) (addr line : Nat) (s : State) : State :=
  match ecc with
  | .good => s
  | .corrected => cntSdie i 4 1 s
  | .retried => cntSdie i 5 1 s
  | .failed => modSdie i (fun x => { x with errAddr := addr % 2 ^ 48, errValid := true, failedLines := mapSet line () x.failedLines })
      (cntSdie i 6 1 s)

/-- The line requests of a brick on their way: at most 128 (R307). -/
def requestsOf (s : State) (b : Nat) : Nat := (s.sdies.map (fun x => (x.2.responses.filter (fun r => r.brick.val == b)).length)).sum

/-- The bytes of a place. -/
def placeBytes (s : State) (p : MemPlace) (n : Nat) : List Byte :=
  let x := sdieAt s p.sdie
  memBytes (if p.sram then x.sram else x.dram) p.off n

/-- Bytes written to a place. -/
def placeWrite (p : MemPlace) (bs : List Byte) (s : State) : State :=
  modSdie p.sdie (fun x => if p.sram then { x with sram := memPutBytes p.off bs x.sram } else { x with dram := memPutBytes p.off bs x.dram }) s

/-- A response put on its way. -/
def respond (i : Nat) (r : MemResponse) (s : State) : State := modSdie i (fun x => { x with responses := x.responses ++ [r] }) s

/-- Whether a brick's stream runs over mortar. -/
def overMortar (st : Stream) : Bool := fromDevice st.desc || dKind st.desc == 7

/-- The next request of a brick's stream at its home S-die. -/
def streamRequest (i b d : Nat) (ecc : EccOutcome) (s : State) : State :=
  let x := brickAt s b
  match mapFind d x.fl.streams with
  | none => s
  | some st =>
    let store := dKind st.desc == 7
    let pos := st.requested
    let a := if store then dDst st.desc + pos else dAddr st.desc (dSrc st.desc) pos
    if !overMortar st || decide (dTotal st.desc ≤ pos) || homeOf a != i || decide (128 ≤ requestsOf s b) then s
    else
      let n := requestBytes st.desc store pos a
      let part := (x.wins.get (dWin st.desc)).part
      let s := putBrick b { x with fl := { x.fl with streams := mapSet d { st with requested := pos + n } x.fl.streams } } s
      let r : MemResponse := { brick := Fin.ofNat 288 b, d := Fin.ofNat 16 d, pos, n }
      let tile := tileOf st.desc * (tileOf st.desc / 2)
      let s := if dTranspose st.desc && pos % tile == 0 then cntSdie i 8 1 s else s
      match placeOf a with
      | none => respond i { r with bad := some (0x06, BitVec.ofNat 32 a) } (cntSdie i 7 1 s)
      | some p =>
        if !granted s part a n store then respond i { r with bad := some (0x06, BitVec.ofNat 32 a) } (cntSdie i 7 1 s)
        else if store then
          respond i r (placeWrite p ((List.range n).map (fun k => memByte x.m.staging (dAddr st.desc (dSrc st.desc) (pos + k)))) s)
        else
          let dest := BitVec.ofNat 32 (2 ^ 29 + (dDst st.desc + pos) % 2 ^ 28)
          let s := eccCount i ecc a (lineName p) s
          let sets := cacheSets s (sdieAt s i)
          let s := if p.sram then cntSdie i 0 1 s else cacheRead sets (p.off / 256) i s
          let c := if dChunk st.desc = 0 then 4096 else dChunk st.desc * 256
          let reach := min (dfield st.desc 0 54 51 * c) (dTotal st.desc - (pos + n))
          let s := if p.sram then s else prefetch sets i (linesAhead st.desc i (pos + n) reach) s
          if (sdieAt s i).lost || (mapFind (lineName p) (sdieAt s i).failedLines).isSome then
            respond i { r with bad := some (0x0C, dest) } s
          else respond i { r with data := placeBytes s p n } s

/-- MEMORY_REQUEST (R299, R305 to R307, R315): the next line of a running stream, or a line of the loader's, reaches its home S-die. -/
def execMemoryRequest (sdie : Die) (req : MemRequest) (ecc : EccOutcome) (s : State) : Out :=
  let i := sdie.val
  match req with
  | .stream b d => .next (streamRequest i b.val d.val ecc s)
  | .loaderRead addr =>
    match placeOf addr with
    | some p =>
      if p.sdie = i then
        let s := eccCount i ecc addr (lineName p) s
        .next (if p.sram then cntSdie i 0 1 s else cacheRead (cacheSets s (sdieAt s i)) (p.off / 256) i s)
      else .next s
    | none => .next s
  | .loaderWrite addr data =>
    match placeOf addr with
    | some p => if p.sdie = i ∧ p.off % 256 + data.length ≤ 256 then .next (placeWrite p data s) else .next s
    | none => .next s

/-! ### Responses (R222, R307, R310) -/

/-- The responses that have come in order taken up; `fuel` is how many may wait. -/
def takeParts : Nat → Stream → Stream
  | 0, st => st
  | n + 1, st =>
    match mapFind st.got st.parts with
    | some (k, bs) => if k = 0 then st else takeParts n { st with got := st.got + k, raw := st.raw ++ bs, parts := mapDel st.got st.parts }
    | none => st

/-- What has come in order made ready: acknowledged bytes of a store, the bytes of a plain load, the whole tiles of a transposed one. -/
def ready (st : Stream) : Stream :=
  if dKind st.desc = 7 then { st with arrived := st.got }
  else if dTranspose st.desc then
    let tile := tileOf st.desc * (tileOf st.desc / 2)
    let n := if tile = 0 then 0 else st.raw.length / tile
    { st with buf := st.buf ++ streamForm st.desc (st.raw.take (n * tile)), raw := st.raw.drop (n * tile), arrived := st.arrived + n * tile }
  else { st with buf := st.buf ++ st.raw, raw := [], arrived := st.got }

/-- A response taken by its stream. -/
def takeResponse (r : MemResponse) (st : Stream) : Stream :=
  match r.bad with
  | some (c, info) =>
    match st.bad with
    | some b => if b.1 ≤ r.pos then st else { st with bad := some (r.pos, c, info) }
    | none => { st with bad := some (r.pos, c, info) }
  | none =>
    let st := { st with parts := mapSet r.pos (r.n, r.data) st.parts }
    ready (takeParts st.parts.length st)

/-- MEMORY_RESPONSE (R222, R307): the oldest response of an S-die returns to its brick's engine; a stream that has stopped takes none. -/
def execMemoryResponse (sdie : Die) (s : State) : Out :=
  let x := sdieAt s sdie.val
  match x.responses with
  | [] => .next s
  | r :: rest =>
    let s := putSdie sdie.val { x with responses := rest } s
    .next (modBrick r.brick.val (fun b =>
      match mapFind r.d.val b.fl.streams with
      | some st => if overMortar st then { b with fl := { b.fl with streams := mapSet r.d.val (takeResponse r st) b.fl.streams } } else b
      | none => b) s)

/-- LINE_REWRITE (R315): the loader has rewritten a failed line from the encrypted image; the device address names it. -/
def execLineRewrite (sdie : Die) (addr : Nat) (s : State) : Out :=
  match placeOf addr with
  | some p =>
    if p.sdie = sdie.val then .next (modSdie sdie.val (fun x => { x with failedLines := mapDel (lineName p) x.failedLines }) s) else .next s
  | none => .next s

end Sys2Proof.Machine
end

