-- ==== Sys2Proof/Machine/Structure.lean ====
section
/-!
DEFINITION. The structure image: its checks, the apply classes, the bounded pause, and the structure epochs (R58 to R60, R90, R374 to R389).
-/

namespace Sys2Proof.Machine

open Sys2Proof

/-! ### Status (R389, Table 11 of the structure chapter) -/

/-- The number of an apply state. -/
def structPhaseNum : StructPhase → Nat
  | .idle => 0
  | .checking => 1
  | .staged => 2
  | .applying => 3

/-- WDN_STRUCT_STATUS. -/
def structStatus (x : StructSt) : Nat := x.code.toNat * 2 ^ 24 + bitAt 8 x.restartPending + structPhaseNum x.phase

/-- The structure side changed; a change of its status is an event of the device (R433). -/
def setStruct (f : StructSt → StructSt) (s : State) : State :=
  let old := structStatus s.st
  let s := { s with st := f s.st }
  if structStatus s.st = old then s else event 0 8 (structStatus s.st) s

/-- A command refused with a code. -/
def structCode (code : Byte) (s : State) : State := setStruct (fun x => { x with code }) s

/-- The record of the outcome of a structure command (R511): the code, the image_id. -/
def auditStruct (result : Nat) (code : Byte) (s : State) : State :=
  auditDevice 0x0041 0xFFFFFFFF result (leBytes 2 code.toNat ++ leBytes 2 0
    ++ leBytes 4 (((s.st.image.map (fun (i : StructImage) => i.imageId)).getD 0).toNat)) s

/-- What an apply or a check that ends leaves: IDLE with a code. -/
def endStruct (code : Byte) (x : StructSt) : StructSt := { x with phase := .idle, code, image := none, dLeft := [], tc := none }

/-- The image of an apply becomes the stored and verified one (R387, R500). -/
def adoptImage (i : StructImage) (s : State) : State :=
  { s with st := { s.st with storedId := i.imageId, storedSig := i.signature },
           power := { s.power with structValid := true } }

/-- A structure command ended with a failure, and its second audit record. -/
def failStruct (code : Byte) (sec : Nat) (s : State) : State :=
  setStruct (fun x => { endStruct code x with detailSection := BitVec.ofNat 5 sec, detailOffset := 0 }) (auditStruct 4 code s)

/-- An image being checked, staged or applied given up from outside: supply sag (Table 3). -/
def abandonStruct (code : Byte) (s : State) : State := if s.st.phase = .idle then s else failStruct code 0 s

/-! ### The checks of an image (R374 to R378, R389) -/

/-- Whether the container breaks R374 to R377; `len` is the length that the driver gave. -/
def structMalformed (i : StructImage) (len : Nat) : Bool :=
  i.magic != 0x54534D47 || i.version != 1 || i.sectionCount != 13 || i.envelopes.isEmpty || decide (16 < i.envelopes.length)
  || i.length != len || decide (1048576 < i.length) || i.formBroken

/-- The installer key with an identifier, in slots 1 and 2. -/
def installerKey (s : State) (keyId : DWord) : Option (List Byte) :=
  [1, 2].findSome? (fun k => match mapFind k s.auth.keys with
    | some pt => if keyIdOf pt = keyId then some pt else none
    | none => none)

/-- The bricks of a grade (R3). -/
def gradeBricks (s : State) : Nat :=
  match s.dev.grade.val with
  | 0 => 256
  | 1 => 128
  | _ => 32

/-- The devices that a wall of a grade may have (R3). -/
def gradePeers (s : State) : Nat :=
  match s.dev.grade.val with
  | 0 => 16
  | 1 => 4
  | _ => 0

/-- PORTS (R397): 1 to 16 active lanes a port, on an L-die that is present, each lane to at most one port. -/
def portsRefused (s : State) (ps : List PortCfg) : Bool :=
  !(ps.map (fun (c : PortCfg) => c.port)).Nodup
  || ps.any (fun c => c.badItem || c.lanes.isEmpty || decide (16 < c.lanes.length) || c.lanes.any (fun n => decide (100 ≤ n))
       || (ldieAt s (ldieOfPort c.port.val)).lost)
  || !(ps.flatMap (fun c => c.lanes.map (fun n => laneKey (ldieOfPort c.port.val) n))).Nodup

/-- WALL (R415): peers below 16 other than the device, routes over Derlor or wall-only ports. -/
def wallRefused (ps : List PortCfg) (w : WallSec) : Bool :=
  !(w.routes.map (·.1)).Nodup
  || w.routes.any (fun r => decide (16 ≤ r.1) || r.1 == w.ownId.val || r.2.isEmpty
       || r.2.any (fun p => !ps.any (fun c => c.port.val == p && c.mode != 1)))

/-- The SLICE and WALL credits that the feeds and peers of an L-die are granted (R404). -/
def grantSum (x : StructSections) (l : Nat) : Nat :=
  ((x.feeds.feeds.filter (fun f => f.port.val / 16 == l)).map (fun (f : FeedCfg) => f.credits)).sum
  + (((x.wall.map (fun (w : WallSec) => w.routes)).getD []).map (fun r =>
      (r.2.filter (fun p => p / 16 == l)).length * x.feeds.wallCredits.getD r.1 0)).sum

/-- FEEDS (R389, R398, R404, R408, R413). -/
def feedsRefused (x : StructSections) : Bool :=
  let fs := x.feeds.feeds
  !(fs.map (fun (f : FeedCfg) => f.feed)).Nodup || !(fs.map (fun f => f.port.val * 65536 + f.loc)).Nodup
  || fs.any (fun f => decide (15 < f.loc) || !(f.reclen == 64 || f.reclen == 128 || f.reclen == 192) || decide (f.spillUs < 2)
       || decide (50 < f.spillUs) || (partCfg x f.part.val).isNone || decide (8 < f.crcRanges.length)
       || !x.ports.any (fun c => c.port == f.port && c.mode != 2))
  || (List.range 4).any (fun l => decide (16384 < grantSum x l))

/-- FLOW_GEOM (R46): 256 entries, each naming a P-die that is present. -/
def flowGeomRefused (s : State) (g : FlowGeom) : Bool :=
  g.steer.length != 256 || g.steer.any (fun b => decide (4 ≤ b.toNat) || (pdieAt s b.toNat).lost)

/-- TREE_GEOM (R97), with the resident ensembles in the new banks. -/
def treeGeomRefused (s : State) (g : List Nat) : Bool :=
  geomRefused g || (List.range 12).any (fun l =>
    decide ((bankSizes g).getD l 0 * 1024 < ((residentEnsembles s).map (fun e => (e.levels.getD l []).length)).sum))

/-- The scratch quota as PRT_SCRATCH stores it (R318). -/
def scratchMax (s : State) : Nat := if s.dev.grade = 2 then 32768 else 14336

/-- PARTITIONS (R389, R423): each partition once, with its own function, and quotas within the device's totals. -/
def partsRefused (s : State) (x : PartsSec) : Bool :=
  !(x.parts.map (fun (c : PartCfg) => c.part)).Nodup || x.parts.any (fun c => c.fn != c.part.val)
  || decide (12582912 < (x.parts.map (fun (c : PartCfg) => c.flowQuota.toNat % 2 ^ 24)).sum)
  || decide (397312 < (x.parts.map (fun (c : PartCfg) => min 262144 (bits 18 0 c.tree.toNat))).sum)
  || decide (67108864 < (x.parts.map (fun (c : PartCfg) => c.seqQuota.toNat % 2 ^ 26)).sum)
  || decide (scratchMax s < (x.parts.map (fun (c : PartCfg) => min (scratchMax s) c.scratchMib)).sum)

/-- BOUNDS (R390): an index of Table 8, within the device range, lo at most hi. -/
def boundsRefused (s : State) (bs : List BoundCfg) : Bool :=
  bs.any (fun b => decide (16 < b.index) || decide (b.hi < b.lo) || decide (b.lo < (loopRange s b.index).1) || decide ((loopRange s b.index).2 < b.hi))

/-- BOND (R356): every brick is one of the grade's. -/
def bondRefused (s : State) (b : BondSec) : Bool :=
  let bad := fun (k : Nat) => decide (gradeBricks s ≤ k)
  b.parts.any (fun p => (p.pallet.flatten ++ p.seqGroups).any (fun g => g.bricks.isEmpty || decide (16 < g.bricks.length) || g.bricks.any bad
    || g.bricks.any (fun k => k / 16 != g.bricks.headD 0 / 16)) || decide (8 < p.pallet.length))
  || b.slowPool.any bad || b.seqPool.any bad || b.standby.any bad

/-- Whether a model keeps its place under new BOND and LAYOUT sections (R357, R358, R378). -/
def modelUnplaced (s : State) (x : StructSections) (p : Nat) (v : VariantData) : Bool :=
  let t : State := { s with st := { s.st with running := { s.st.running with bond := x.bond, wall := x.wall } } }
  stagesUnfit t p v || !hasGroups t p v
  || ((v.t2.map (fun (c : HykaiCode) => c.layout)).elim false (fun l =>
       (((bondOf t.st.running p).map (fun (b : PartBond) => b.pallet.flatten)).getD []).any (fun g => g.bricks.any (fun k => x.layout.getD k 0 != l))))

/-- Whether some resident or PREPARED epoch cannot be placed. -/
def modelsUnplaced (s : State) (x : StructSections) : Bool :=
  s.models.any (fun m => m.2.epochs.any (fun (e : ModelEpoch) => modelUnplaced s x m.1 e.vd)
    || (m.2.load.phase == .prepared && (m.2.load.vd.elim false (fun v => modelUnplaced s x m.1 v))))

/-- The refusal of the slow-path program (R278, R293). -/
def slowRefused (s : State) (x : StructSections) : Option XlFail := x.slowpath.bind (fun c => xlFail c 2 (hasButtress s, hasStreamer s))

/-- The first check that fails, in the order of R378: its code and the directory index of its section. -/
def checkImage (s : State) (i : StructImage) : Option (Byte × Nat) :=
  if structMalformed i s.st.len.toNat then some (0x01, 0)
  else match installerKey s i.keyId with
    | none => some (0x02, 0)
    | some pt =>
      if !verifies pt i.digest i.signature then some (0x03, 0)
      else if !i.envelopes.contains s.dev.deviceId || !i.tagsOk then some (0x04, 0)
      else if !i.secs.flowGeom.enc then some (0x04, 3)
      else
        let x := i.secs
        let d := x.device
        ([(!i.grades.getLsbD s.dev.grade.val, (0x05 : Byte), 0),
          ((x.wall.map (fun (w : WallSec) => decide (gradePeers s < w.routes.length + 1))).getD false, 0x05, 12),
          (!hasStreamer s && (!x.bond.seqPool.isEmpty || x.bond.parts.any (fun p => !p.seqGroups.isEmpty)), 0x05, 6),
          (portsRefused s x.ports, 0x0C, 0), (feedsRefused x, 0x0A, 1), (parseRefused x.parse, 0x06, 2),
          (flowGeomRefused s x.flowGeom, 0x07, 3), (treeGeomRefused s x.treeGeom, 0x08, 4),
          (x.layout.any (fun l => decide (1 < l)), 0x09, 5), (bondRefused s x.bond || modelsUnplaced s x, 0x09, 6),
          (partsRefused s x.parts, 0x0A, 7), (boundsRefused s x.bounds, 0x0B, 9), ((slowRefused s x).isSome, 0x0D, 10),
          (!(d.pinnedMib == 0 || d.pinnedMib == 16 || d.pinnedMib == 32 || d.pinnedMib == 48) || d.wdogUs == 0 || decide (15 < d.wdogUs), 0x01, 11),
          ((x.wall.map (wallRefused x.ports)).getD false, 0x0C, 12)].find? (·.1)).map (·.2)

/-- The right to a structure command: the PF driver in an installer session (R378). -/
def structRights (p : Path) : Nat := if p = .pf then installerRights else 0

/-- STAGE (R378): the image is read into the pending bank. -/
def execStructStage (path : Path) (image : StructImage) (s : State) : Out :=
  let ok := fun (s : State) => decide (s.st.phase = .idle)
  .next (commandWith path (structRights path) 0x0040 0xFFFFFFFF ok (leBytes 2 1 ++ leBytes 2 0 ++ leBytes 4 image.imageId.toNat) (structCode 0x0F)
    (fun s => if ok s then setStruct (fun x => { x with phase := .checking, code := 0, image := some image, detailSection := 0, detailOffset := 0 }) s
      else structCode 0x0E s) s)

/-- STRUCT_CHECK_COMPLETE (R378): STAGED, or IDLE with the code of the first check that fails. -/
def execStructCheckComplete (s : State) : Out :=
  .next (match s.st.phase, s.st.image with
    | .checking, some i =>
      match checkImage s i with
      | some (code, sec) =>
        let s := match slowRefused s i.secs with
          | some f => if code = 0x0D then setXlate 0 f.code f.stage f.word 0 0 s else s
          | none => s
        failStruct code sec s
      | none => setStruct (fun x => { x with phase := .staged }) (auditStruct 1 0 s)
    | _, _ => s)

/-- ABORT (R378). -/
def execStructAbort (path : Path) (s : State) : Out :=
  let ok := fun (s : State) => decide (s.st.phase = .staged)
  .next (commandWith path (structRights path) 0x0040 0xFFFFFFFF ok (leBytes 2 3) (structCode 0x0F)
    (fun s => if ok s then failStruct 0x11 0 s else structCode 0x0E s) s)

/-! ### What differs (R379 to R382, R387, R409) -/

/-- The ports that a FEEDS change retrains: a feed's record length or its local number changes (R409). -/
def feedPorts (a b : FeedsSec) : List Nat :=
  b.feeds.filterMap (fun f => match a.feeds.find? (fun (g : FeedCfg) => g.feed == f.feed) with
    | some g => if g.reclen != f.reclen || g.loc != f.loc then some f.port.val else none
    | none => none)

/-- The ports whose lanes, speed or peers change, or that carry such a feed (R381). -/
def portsChanged (a b : StructSections) : List Nat :=
  let peers := fun (x : StructSections) (p : Nat) => (((x.wall.map (fun (w : WallSec) => w.routes)).getD []).filter (fun r => r.2.contains p)).map (·.1)
  ((List.range 64).filter (fun p => (a.ports.find? (fun c => c.port.val == p)) != (b.ports.find? (fun c => c.port.val == p))
    || peers a p != peers b p || (feedPorts a.feeds b.feeds).contains p))

/-- The D steps of an apply, unit by unit (log 39): bricks whose layout changes (2000 + k), partitions whose groups change or whose bricks
change (1000 + p), the pools (64), the wall (65), ports (0 to 63). -/
def dSteps (a b : StructSections) : List Nat :=
  let bricks := (List.range 256).filter (fun k => a.layout.getD k 0 != b.layout.getD k 0)
  let parts := (List.range 1024).filter (fun p => bondOf a p != bondOf b p
    || (((bondOf b p).map (fun (x : PartBond) => (x.pallet.flatten ++ x.seqGroups).any (fun g => g.bricks.any (fun k => bricks.contains k)))).getD false))
  bricks.map (· + 2000) ++ parts.map (· + 1000)
  ++ (if a.bond.slowPool != b.bond.slowPool || a.bond.seqPool != b.bond.seqPool || a.bond.standby != b.bond.standby then [64] else [])
  ++ (if a.wall != b.wall then [65] else []) ++ portsChanged a b

/-- Whether a P or F section differs. -/
def pauseNeeded (a b : StructSections) : Bool := a.parse != b.parse || a.flowGeom != b.flowGeom

/-- Whether an A section differs. -/
def aDiffers (a b : StructSections) : Bool :=
  a.feeds != b.feeds || a.parts != b.parts || a.qos != b.qos || a.bounds != b.bounds || a.slowpath != b.slowpath

/-- Whether an X section differs. -/
def xDiffers (a b : StructSections) : Bool := a.treeGeom != b.treeGeom || a.device != b.device

/-- The sections that an apply makes current: all but X, which wait for the next start-up (R387). -/
def applied (a b : StructSections) : StructSections := { b with treeGeom := a.treeGeom, device := a.device }

/-! ### The D steps (R368, R381) -/

/-- The bricks of an epoch's groups. -/
def epochBricks (s : State) (p : Nat) (e : ModelEpoch) : List Nat := (placeGroups s p e).flatMap (fun g => groupBricks s [g.1])

/-- A brick that an epoch leaves: its pages zeroed, the window free. -/
def leaveBrick (p : Nat) (mask : BitVec 2048) (x : BrickSt) : BrickSt :=
  let wins := x.wins.map (fun (w : Win) => if w.valid && w.part.val == p then { w with valid := false } else w)
  { x with wins, m := { x.m with bmem := zeroPages mask x.m.bmem, loaded := x.m.loaded &&& ~~~mask } }

/-- The resident epochs of a partition placed again on its groups: what they leave is freed, what they newly use is written. -/
def rePlace (p : Part) (before : List (BitVec 16 × List Nat)) (s : State) : State :=
  (modelAt s p.val).epochs.foldl (fun s e =>
    if e.st == .retired then s
    else
      let old := ((before.find? (fun b => b.1 == e.num)).map (·.2)).getD []
      let new := epochBricks s p.val e
      let gone := old.filter (fun b => !new.contains b)
      let s := gone.foldl (fun s b => modBrick b (leaveBrick p.val (mapGet 0 e.place.pages b)) s) s
      let pl := { e.place with pages := gone.foldl (fun m b => mapDel b m) e.place.pages }
      let acc := (placeGroups s p.val e).foldl (fun acc g => ((groupBricks s [g.1]).filter (fun b => !old.contains b)).foldl (fun acc b =>
        placeBrick p e.num g.1 g.2 (epochTables e.vd) (!e.gapMissing) b acc) acc) (pl, s)
      modEpoch p.val e.num (fun y => { y with place := acc.1 }) acc.2) s

/-- The running image changed. -/
def modRunning (f : StructSections → StructSections) (s : State) : State := { s with st := { s.st with running := f s.st.running } }

/-- One D step: the unit is fenced, reconfigured and returned; what it brings becomes part of the running image (R380, R381, R383). -/
def dStep (u : Nat) (x : StructSections) (s : State) : State :=
  if 2000 ≤ u then
    let k := u - 2000
    let s := match physBrick s k with
      | some b =>
        let s := failPalletsOn b s
        modBrick b (fun y =>
          let y := { y with arr := { y.arr with layout := decide (x.layout.getD k 0 = 1) }, fl := {} }
          { y with c := { y.c with capHash := capHashOf s y, phase := if clocked y || y.c.phase == .frozen then .idle else y.c.phase } }) s
      | none => s
    modRunning (fun r => { r with layout := (List.range 256).map (fun i => if i = k then x.layout.getD k 0 else r.layout.getD i 0) }) s
  else if 1000 ≤ u then
    let p : Part := Fin.ofNat 1024 (u - 1000)
    let before := (modelAt s p.val).epochs.map (fun (e : ModelEpoch) => (e.num, epochBricks s p.val e))
    let s := modPart p.val (fun y => { y with fault := { y.fault with targetLost := false, haltTimes := [] } }) s
    let s := { s with flt := { s.flt with subst := s.flt.subst.filter (fun q => !((bondOf s.st.running p.val).any (fun (b : PartBond) =>
      (b.pallet.flatten ++ b.seqGroups).any (fun g => g.bricks.contains q.1)))) } }
    rePlace p before (modRunning (fun r => { r with bond := { r.bond with
      parts := r.bond.parts.filter (fun b => b.part != p) ++ (bondOf x p.val).toList } }) s)
  else if u = 64 then
    modRunning (fun r => { r with bond := { r.bond with slowPool := x.bond.slowPool, seqPool := x.bond.seqPool, standby := x.bond.standby } }) s
  else if u = 65 then modRunning (fun r => { r with wall := x.wall }) s
  else
    let s := portDown u s
    let s := modRunning (fun r => { r with
      ports := r.ports.filter (fun c => c.port.val != u) ++ (x.ports.find? (fun c => c.port.val == u)).toList,
      feeds := { r.feeds with feeds := r.feeds.feeds.map (fun f => match x.feeds.feeds.find? (fun (g : FeedCfg) => g.feed == f.feed) with
        | some g => if g.port.val = u then { f with reclen := g.reclen, loc := g.loc } else f
        | none => f) } }) s
    modPort u (fun y => { y with lanesCfg := [], lanesUp := [], reclens := [] }) s

/-- T_c chosen once the last D step is complete, no structure epoch drains and no partition that the image deletes is being reset (R382,
R384, R388, log 37): broadcast at once where no pause is
needed; the earliest T0 of the pause else (R60). -/
def chooseTc (x : StructSections) (s : State) : State :=
  if s.st.draining.isSome || s.st.tc.isSome || s.st.running.parts.parts.any (fun c => (partCfg x c.part.val).isNone && fenced s c.part.val) then s
  else
    let t := nextInstant s
    if pauseNeeded s.st.running x then
      let t := match s.st.lastPauseT0 with
        | some u => BitVec.ofNat 64 (max t.toNat (u.toNat + 100000))
        | none => t
      { s with st := { s.st with tc := some t } }
    else scheduleTc t 1 0 { s with st := { s.st with tc := some t } }

/-- What comes once no D step is left: ST_OK where nothing of class A, P or F differs, else T_c. -/
def afterDSteps (s : State) : State :=
  match s.st.phase, s.st.image, s.st.dLeft with
  | .applying, some i, [] =>
    if aDiffers s.st.running i.secs || pauseNeeded s.st.running i.secs then chooseTc i.secs s
    else setStruct (endStruct 0) (auditStruct 1 0 (adoptImage i s))
  | _, _, _ => s

/-- APPLY (R379, R380, R387): the sections that differ; X sections are stored and pend; D steps come first. -/
def execStructApply (path : Path) (s : State) : Out :=
  let ok := fun (s : State) => decide (s.st.phase = .staged)
  .next (commandWith path (structRights path) 0x0040 0xFFFFFFFF ok (leBytes 2 2) (structCode 0x0F)
    (fun s => match s.st.phase, s.st.image with
      | .staged, some i =>
        let x := xDiffers s.st.running i.secs
        let stored := { (s.st.stored.getD s.st.running) with treeGeom := i.secs.treeGeom, device := i.secs.device }
        afterDSteps (setStruct (fun y => { y with
          phase := .applying, code := 0, stored := if x then some stored else y.stored, restartPending := x,
          dLeft := dSteps s.st.running i.secs }) s)
      | _, _ => structCode 0x0E s) s)

/-- D_STEP_COMPLETE (R381): the next unit's step is done; after the last, T_c is chosen. -/
def execDStepComplete (s : State) : Out :=
  .next (match s.st.phase, s.st.image, s.st.dLeft with
    | .applying, some i, u :: rest =>
      let s := dStep u i.secs s
      afterDSteps { s with st := { s.st with dLeft := rest } }
    | _, _, _ => afterDSteps s)

/-! ### The new structure epoch (R380, R384, R385, R391) -/

/-- PRT_CASCADE as the image sets it: a reserved action is stored as 0 (R37). -/
def cascadeOf (on : Bool) (v : Word) : Word :=
  BitVec.ofNat 32 (bitAt 0 on + bitAt 8 (bit 8 v.toNat) + (if bits 19 16 v.toNat ≤ 4 then bits 19 16 v.toNat else 0) * 2 ^ 16)

/-- PRT_SEQ_ADV as stored (R346). -/
def seqAdvOf (v : Word) : Word :=
  BitVec.ofNat 32 (bits 31 24 v.toNat * 2 ^ 24 + clampNat 1 64 (bits 22 16 v.toNat) * 2 ^ 16 + bits 15 8 v.toNat * 2 ^ 8)

/-- PRT_SEQ_THRESH as stored: a NaN is stored as +inf (R346). -/
def seqThreshOf (v : Word) : Word := if isNan32 v then 0x7F800000 else v

/-- The gap of a QoS class: the section's, not below the floor (Table 6 of the partition chapter). -/
def classGap (q : QosSec) (c : Nat) : Nat :=
  match q.gaps[c]? with
  | some g => max (1000 * 4 ^ c) g
  | none => 2000 * 4 ^ c

/-- The PRT_ registers of a partition at the values of the image (R37, R92, R93, R117, R174, R318, R346, R442). A partition that it does not
define has none. -/
def imageRegs (p : Nat) (s : State) : State :=
  let r := s.st.running
  let on := (modelAt s p).cascadeOn
  let q := r.qos.parts.find? (fun q => q.1 == p)
  let cls := (q.map (fun q => q.2.1 % 4)).getD 1
  let s := match partCfg r p with
    | some c => modPart p (fun x => { x with
        cascade := cascadeOf on c.cascade,
        flow := BitVec.ofNat 32 (min 3600 (bits 31 20 c.flow.toNat) * 2 ^ 20 + bits 19 18 c.flow.toNat * 2 ^ 18),
        flowQuota := BitVec.ofNat 32 (c.flowQuota.toNat % 2 ^ 24),
        tree := BitVec.ofNat 32 (bitAt 31 (bit 31 c.tree.toNat) + min 262144 (bits 18 0 c.tree.toNat)),
        scratchMib := min (scratchMax s) c.scratchMib,
        seqCtl := BitVec.ofNat 32 (bits 31 12 c.seqCtl.toNat * 2 ^ 12 + min 3600 (bits 11 0 c.seqCtl.toNat)),
        seqAdv := seqAdvOf c.seqAdv, seqThresh := seqThreshOf c.seqThresh, seqQuota := c.seqQuota.toNat % 2 ^ 26 }) s
    | none => modPart p (fun x => { x with
        cascade := 0, flow := 0, flowQuota := 0, tree := 0, scratchMib := 0, seqCtl := 0x00010000, seqAdv := 0x0A201200,
        seqThresh := 0x7F800000, seqQuota := 0 }) s
  modPart p (fun x => { x with
    qosClass := Fin.ofNat 4 cls, weight := max 1 (((q.map (fun q => q.2.2)).getD 1) % 256), minGapNs := classGap r.qos cls }) s

/-- PRT_DRIFT_CTL at the value of the image. -/
def imageDrift (p : Nat) (s : State) : State :=
  match partCfg s.st.running p with
  | some c => setDriftCtl p c.driftCtl s
  | none => setDriftCtl p 0x00320064 s

/-- The partitions that a section or the state knows. -/
def partsKnown (s : State) (a b : StructSections) : List Nat :=
  (s.parts.map (·.1) ++ a.parts.parts.map (fun (c : PartCfg) => c.part.val) ++ b.parts.parts.map (fun (c : PartCfg) => c.part.val)).dedup

/-- Operator bounds clamped into the installer's (R391). -/
def clampBounds (s : State) : State :=
  { s with loops := { s.loops with opBounds := s.loops.opBounds.map (fun x =>
      let b := installerBound s (x.1 / 1024) (x.1 % 1024)
      (x.1, clampNat b.1 b.2 x.2.1, clampNat b.1 b.2 x.2.2)) } }

/-- The steering tables written (R46). -/
def writeSteer (t : List Byte) (s : State) : State := (List.range 4).foldl (fun s l => modLdie l (fun q => { q with steer := t }) s) s

/-- T_c of a structure epoch (R380, R384): the epoch rises, the A, P and F sections become current, the previous epoch drains. -/
def newStruct (t : DWord) (s : State) : State :=
  match s.st.image with
  | none => s
  | some i =>
    let old := s.st.running
    let was := s.st.epoch
    let e := was + 1
    let next := applied old i.secs
    let x := { s.st with
      epoch := e, running := next, contents := mapSet e.toNat next (mapSet was.toNat (secsOf s was) s.st.contents),
      draining := some was, drainSince := nowNs s, lastTc := some t, tc := none, stored := some i.secs,
      flipEpoch := if old.flowGeom != next.flowGeom then e else s.st.flipEpoch }
    let s := passTc t 1 0 { s with st := x }
    let s := if old.parts != next.parts || old.qos != next.qos then (partsKnown s old next).foldl (fun s p => imageRegs p s) s else s
    let s := if old.parts != next.parts then (partsKnown s old next).foldl (fun s p => imageDrift p s) s else s
    let s := if old.bounds != next.bounds then clampBounds s else s
    let s := old.parts.parts.foldl (fun s c => if (partCfg next c.part.val).isNone && fnExists s c.part.val then startReset c.part.val s else s) s
    let s := if old.slowpath != next.slowpath then { s with st := { s.st with slowRefused := false } } else s
    retireStruct (setStruct (endStruct 0) (auditStruct 1 0 (adoptImage i s)))

/-- STRUCT_TC (R382): T_c of an apply without a pause. -/
def execStructTc (s : State) : Out :=
  match s.st.phase, s.st.image, s.st.tc with
  | .applying, some i, some t =>
    .next (if t.toNat ≤ s.time.wall.toNat ∧ s.st.dLeft = [] ∧ pauseNeeded s.st.running i.secs = false then newStruct t s else s)
  | _, _, _ => .next (afterDSteps s)

/-! ### The bounded pause (R58 to R61, R90) -/

/-- PAUSE_START (R58, R60): T0. -/
def execPauseStart (s : State) : Out :=
  match s.st.phase, s.st.image, s.st.tc with
  | .applying, some i, some t =>
    .next (if t.toNat ≤ s.time.wall.toNat ∧ s.st.dLeft = [] ∧ pauseNeeded s.st.running i.secs = true ∧ s.st.pause.isNone = true then
      { s with st := { s.st with pause := some { t0 := s.time.wall, flow := s.st.running.flowGeom != i.secs.flowGeom },
                                 lastPauseT0 := some s.time.wall } }
      else s)
  | _, _, _ => .next (afterDSteps s)

/-- Whether every stamped slice has left the parsers: none waits at a P-die in service. -/
def drained (s : State) : Bool := s.pdies.all (fun x => x.2.lost || x.2.inbox.isEmpty)

/-- The flow banks flip (R90): every hot and warm entry is EMPTY, every context is freed once idle, the steering tables change. -/
def flipFlow (i : StructImage) (s : State) : State :=
  let s := { s with st := { s.st with geomEpoch := s.st.geomEpoch + 1 } }
  let s := (List.range 4).foldl (fun s p => modPdie p (fun x => { x with flushLeft := hotBuckets }) s) s
  let s := { s with sdies := mapAll (fun (x : SDie) => { x with ctxs := mapAll (fun (c : SeqContext) => { c with freeWhenIdle := true }) x.ctxs }) s.sdies }
  writeSteer i.secs.flowGeom.steer s

/-- BANK_FLIP (R58, R59, R90): once the drain is complete, and not after T0 + 800 ns. -/
def execBankFlip (s : State) : Out :=
  match s.st.pause, s.st.image with
  | some p, some i =>
    .next (if !p.flipped && !p.abandoned && drained s && decide (s.time.wall.toNat ≤ p.t0.toNat + 800) then
      let s := if s.st.running.parse != i.secs.parse then
          (List.range 4).foldl (fun s k => modPdie k (fun x => { x with activeBank := !x.activeBank }) s) s else s
      let s := if p.flow then flipFlow i s else s
      { s with st := { s.st with pause := some { p with flipped := true } } }
      else s)
  | _, _ => .next s

/-- PAUSE_ABANDONED (R59, R383): the drain is not complete by T0 + 800 ns; no A, P or F section takes effect. -/
def execPauseAbandoned (s : State) : Out :=
  match s.st.pause with
  | some p =>
    .next (if !p.flipped && !p.abandoned && decide (p.t0.toNat + 800 ≤ s.time.wall.toNat) then
      let s := { s with st := { s.st with pause := some { p with abandoned := true } } }
      failStruct 0x10 0 s
      else s)
  | none => .next s

/-- Model and parameter instants that fall within the pause, or less than 10 us after its release, moved to 10 us after it, in order, each 10 us
after the one before (R388). -/
def moveInstants (release : DWord) (s : State) : State :=
  let r := s.dev.sched.foldl (fun (acc : Nat × List (DWord × DWord × Fin 3 × Part)) x =>
    let t := max x.1.toNat (acc.1 + 10000)
    (t, acc.2 ++ [(x.1, BitVec.ofNat 64 t, x.2.1, x.2.2)])) (release.toNat, [])
  let moved := fun (kind : Fin 3) (p : Nat) (old : Option DWord) => old.map (fun t =>
    ((r.2.find? (fun x => x.1 == t && x.2.2.1 == kind && x.2.2.2.val == p)).map (fun x => x.2.1)).getD t)
  { s with
    dev := { s.dev with sched := r.2.map (fun x => (x.2.1, x.2.2.1, x.2.2.2)) },
    models := s.models.map (fun m => (m.1, { m.2 with load := { m.2.load with
      commits := m.2.load.commits.map (fun c => { c with tc := moved 0 m.1 c.tc }),
      blocks := m.2.load.blocks.map (fun b => { b with tp := moved 2 m.1 b.tp }) } })) }

/-- PAUSE_RELEASE (R58, R59, R61): release and credit return resume; after a flip this instant is T_c of the new structure epoch. -/
def execPauseRelease (s : State) : Out :=
  match s.st.pause with
  | some p =>
    .next (if !p.flipped && !p.abandoned then s
      else
        let len := min 4095 (s.time.wall.toNat - p.t0.toNat)
        let s := (List.range 4).foldl (fun s k => modPdie k (fun x => { x with lastPauseNs := BitVec.ofNat 12 len, lastAbandoned := p.abandoned }) s) s
        let s := { s with st := { s.st with pause := none } }
        let s := if p.flipped then moveInstants s.time.wall (newStruct s.time.wall s) else s
        s.st.running.feeds.feeds.foldl (fun s c => returnCredits c s) s)
  | none => .next s

/-- STRUCT_FORCED_RETIREMENT (R384): 2 ms after T_c the slices still pinned to a DRAINING structure epoch are answered as R366 states. -/
def execStructForcedRetirement (s : State) : Out :=
  match s.st.draining with
  | none => .next s
  | some e =>
    .next (if nowNs s < s.st.drainSince + 2000000 then s
      else
        let s := dropTokens (fun t => t.structEpoch == e && t.req.isNone) (s.pdies.foldl (answerPinned (fun st => st.structEpoch == e) 4 5) s)
        afterDSteps (retireStruct { s with st := { s.st with inflight := mapDel e.toNat s.st.inflight } }))

end Sys2Proof.Machine
end

