-- ==== Sys2Proof/Machine/Point.lean ====
section
/-!
DEFINITION. Pointing: how each kind of unit is fenced, covered, repaired and returned, with the ledger's answers and the placements that
lose their bricks (chapter 17).
-/

namespace Sys2Proof.Machine

open Sys2Proof

/-! ### Units (R453, R478) -/

/-- The unit field of a die: its kind at [31:24], its number at [23:16]. -/
def dieUnit (kind n : Nat) : Word := BitVec.ofNat 32 (kind * 2 ^ 24 + n * 2 ^ 16)

/-- A unit's pointing state set. -/
def unitTo (kind : Nat) (unit : Word) (st : PointState) (s : State) : State := modUnit (unitKey kind unit) (fun u => { u with st }) s

/-- Whether a unit is in service: no fault of it is being pointed. -/
def inService (s : State) (kind : Nat) (unit : Word) : Bool :=
  let x := (unitAt s (unitKey kind unit)).st
  x == .inService || x == .suspect

/-- A lasting fault counted, with DEV_INT_STATUS.lasting (R449, R479). -/
def countLasting (s : State) : State := cntWdn 1 1 (raiseInt 4 s)

/-- DEV_CAPS or the brick map has changed (R539). -/
def capsChanged (s : State) : State := { s with dev := { s.dev with capsGen := s.dev.capsGen + 1 } }

/-- The repair map changed: its generation rises (R479). -/
def repaired (s : State) : State := { s with flt := { s.flt with repairGen := s.flt.repairGen + 1 } }

/-! ### What a fault leaves of the placements (R358, R451, R460, R466) -/

/-- Whether a brick by identifier is lost for good: retired, or of a course that is absent. -/
def brickGone (s : State) (id : Nat) : Bool :=
  match physBrick s id with
  | some b => (brickAt s b).c.phase == .retired
  | none => true

/-- Whether a placement group is lost for good. -/
def groupGone (s : State) (g : Group) : Bool := g.bricks.any (brickGone s)

/-- Whether an epoch streams from an extent that has been withdrawn. -/
def streamGone (s : State) (p : Nat) (e : ModelEpoch) : Bool :=
  e.st != .retired && e.place.kind.val != 0 && !s.grants.any (fun g => g.part.val == p && g.epoch == e.place.id)

/-- Whether a partition has a stage to be placed again, and whether a buddy is missing: a position whose groups lie in one course. -/
def coverage (s : State) (p : Nat) : Bool × Bool :=
  let b := (bondOf s.st.running p).getD { part := 0 }
  let left := fun (gs : List Group) => gs.filter (fun g => !groupGone s g)
  let courses := fun (gs : List Group) => (gs.map (fun g => g.bricks.headD 0 / 16)).dedup.length
  (b.pallet.any (fun gs => !gs.isEmpty && (left gs).isEmpty) || (modelAt s p).epochs.any (streamGone s p),
   b.mirror && b.pallet.any (fun gs => !gs.isEmpty && decide (courses (left gs) < 2)))

/-- PRT_FAULT.target_unavail and unmirrored of a partition with a resident model set as its coverage is, and target_unavail while an activation
translates its code again (R488); the loader then owes a replacement. A load that is TRANSLATING or PREPARED and whose mirrored placement has lost a buddy is refused (R368). -/
def coverPart (p : Nat) (s : State) : State :=
  let c := coverage s p
  let m := modelAt s p
  let s := if m.epochs.isEmpty then s else
    let away := s.power.activating && s.power.phase == 6
    let s := modPart p (fun x => { x with fault := { x.fault with targetUnavail := (c.1 || away) && !x.fault.targetLost, unmirrored := c.2 } }) s
    { s with flt := { s.flt with replacing := s.flt.replacing.filter (fun q => q != p) ++ (if c.1 || c.2 then [p] else []) } }
  if c.2 && (m.load.phase == .translating || m.load.phase == .prepared) then refuseLoad p 0x08 0 0 s else s

/-- Every partition that the bond names looked at again. -/
def coverAll (s : State) : State := s.st.running.bond.parts.foldl (fun s b => coverPart b.part.val s) s

/-! ### Bricks and C-dies (R460 to R462) -/

/-- The dispatch groups that hold a physical brick. -/
def groupsOf (s : State) (b : Nat) : List Group :=
  (s.st.running.bond.parts.flatMap (fun q => q.pallet.flatten ++ q.seqGroups)).filter (fun g => (groupBricks s [g]).contains b)

/-- A halted or faulty brick fenced, in lock-step mode with every other brick of its dispatch groups (R461). -/
def fenceGroup (b : Nat) (s : State) : State :=
  let bs := if (brickAt s b).c.lockstep then (b :: groupBricks s (groupsOf s b)).dedup else [b]
  bs.foldl (fun s k => fenceBrick k s) s

/-- An optimisation on a standby brick that is pointed restarts on another (R169). -/
def dropOptimiser (b : Nat) (s : State) : State :=
  { s with parts := mapAll (fun (x : PartSt) => match x.drift.attempt with
      | some a => if (a.brick.bind (physBrick s)) = some b then { x with drift := { x.drift with attempt := some { a with brick := none } } } else x
      | none => x) s.parts }

/-- The bricks of a C-die that the repair map retires. -/
def retiredOn (s : State) (c : Nat) : Nat := (s.flt.retiredBricks.filter (fun b => b / 16 == c)).length

/-- The physical C-dies of a grade (R535). -/
def cdieCount (s : State) : Nat :=
  match s.dev.grade.val with
  | 0 => 18
  | 1 => 9
  | _ => 3

/-- The spare C-dies of a grade not yet used (R3, R479). -/
def sparesFree (s : State) : List Nat :=
  (rangeFrom (gradeBricks s / 16) (cdieCount s - gradeBricks s / 16)).filter (fun j => !s.flt.sparesUsed.contains j && !s.flt.retiredCdies.contains j)

/-- A spare takes a course: it is powered, its bricks enter RESET (Table 7 of the fault chapter). Without one the course stays absent. -/
def startRehome (course : Nat) (s : State) : State :=
  match sparesFree s with
  | [] => s
  | j :: _ =>
    let s := (courseBricks j).foldl (fun s b => modBrick b (fun x =>
      { x with c := { x.c with phase := if x.c.phase == .off then .reset else x.c.phase, resetDone := nowNs s + 750000000 } }) s) s
    let b := effectiveBound s 0 0
    { s with flt := { s.flt with rehoming := s.flt.rehoming ++ [(Fin.ofNat 18 j, Fin.ofNat 16 course)], sparesUsed := s.flt.sparesUsed ++ [j] },
             loops := { s.loops with clocks := mapSet j (clampNat b.1 b.2 (min 1000 s.loops.ceiling)) s.loops.clocks } }

/-- The logical course that a physical C-die carries, if one. -/
def courseOf (s : State) (c : Nat) : Option Nat := (List.range (gradeBricks s / 16)).find? (fun k => physCdie s k == some c)

/-- A C-die pointed as a whole (R462): its bricks fenced and retired, its course absent until a spare has it. -/
def pointCdie (c det : Nat) (cls : Nat) (detail : Word) (s : State) : State :=
  if s.flt.retiredCdies.contains c then s
  else
    let u := dieUnit 0 c
    let course := courseOf s c
    let s := (courseBricks c).foldl (fun s b => fenceBrick b (dropOptimiser b s)) s
    let s := faultRecord 2 cls det 1 u 0xFFFF 0 detail s
    let s := (courseBricks c).foldl (fun s b => modBrick b (fun x => { x with c := { x.c with phase := .retired } }) s) s
    let s := capsChanged (repaired { s with flt := { s.flt with
      retiredCdies := s.flt.retiredCdies ++ [c],
      courses := match course with
        | some k => mapSet k none s.flt.courses
        | none => s.flt.courses } })
    let s := faultRecord 2 cls det 2 u 0xFFFF 0 detail (unitTo 2 u (if course.isSome && !(sparesFree s).isEmpty then .repairing else .retired) s)
    let s := match course with
      | some k => startRehome k s
      | none => s
    coverAll s

/-- A lasting fault of a brick (R460, R461): its group fenced, the brick retired in the repair map; with more than four of its C-die retired
the C-die follows (R462). -/
def pointBrick (b det halt : Nat) (detail : Word) (s : State) : State :=
  let u := brickUnit b
  let s := faultRecord 0 1 det 1 u 0xFFFF halt detail (fenceGroup b (dropOptimiser b s))
  let s := faultRecord 0 1 det 2 u 0xFFFF halt detail s
  let s := faultRecord 0 1 det 7 u 0xFFFF halt detail (unitTo 0 u .retired (retireBrick b s))
  let s := coverAll s
  if 4 < retiredOn s (b / 16) then pointCdie (b / 16) det 1 detail s else s

/-! ### P-dies (R457, R458, R463) -/

/-- One open ledger entry answered with source 5, or 7 while its partition is being reset (R34, R458). -/
def ledgerAnswer (l : Nat) (e : LedgerEntry) (s : State) : State :=
  let p := e.part.val
  let src := if fenced s p then 7 else 5
  let v : Verdict :=
    { tag := e.tag, feed := e.feed, source := BitVec.ofNat 4 src, action := defaultAction s e.structEpoch p, cls := 0, final := true, prov := false,
      skew := false, absent := false, score := 0, epoch := if enabledIn s (secsOf s e.structEpoch) p then e.epoch else 0, tIn := e.tIn,
      part := e.part, lid := e.lid, orphan := !feedUp s e.feed.val }
  let s := modLdie l (fun q => { q with egress := q.egress ++ [v] }) s
  let s := cntWdn 7 1 (cntPart p src 1 s)
  let s := if src = 7 then modPart p (fun x => { x with resetAnswered := x.resetAnswered + 1 }) s else s
  lowerInflight p e.epoch e.structEpoch s

/-- The ledger of one L-die scanned for a P-die: every entry that it owns and whose primary or final verdict has not come. -/
def ledgerScan (p l : Nat) (s : State) : State :=
  let q := ldieAt s l
  (q.ledger.filter (fun e => e.pdie.map (fun d => d.val) == some p && !q.egress.any (fun v => v.lid == e.lid && !v.prov))).foldl
    (fun s e => ledgerAnswer l e s) s

/-- The steering tables with the entries of lost P-dies given to those that remain (R463). -/
def resteer (s : State) : State :=
  let left := (List.range 4).filter (fun p => !(pdieAt s p).lost)
  if left.isEmpty then s
  else (List.range 4).foldl (fun s l => modLdie l (fun q => { q with steer := (List.range 256).map (fun e =>
    let p := (steerOf q e).val
    if left.contains p then BitVec.ofNat 8 p else BitVec.ofNat 8 (left.getD (e % 3 % left.length) 0)) }) s) s

/-- A P-die fenced: the ledgers answer what it owed, the tables steer round it, its hot tier, retention and pallets are lost (R458, R463). -/
def fencePdie (p : Nat) (s : State) : State :=
  let n := (s.flt.leases.filter (fun l => l.pdie.val == p && l.kind == 1)).length
  let s := cntWdn 6 n { s with flt := { s.flt with leases := s.flt.leases.filter (fun l => !(l.pdie.val == p && l.kind == 1)) } }
  let s := modPdie p (fun x => { x with
    inbox := [], slots := [], open_ := [], inflight := [], slow := [], escBuckets := [], hot := [], probes := [], lost := true }) s
  let s := { s with link := { s.link with wall := { s.link.wall with carries := s.link.wall.carries.filter (fun c => c.pdie.val != p) } } }
  capsChanged (resteer ((List.range 4).foldl (fun s l => ledgerScan p l s) s))

/-- A P-die pointed: it stays retired until a maker service (R463). -/
def pointPdie (p det cls : Nat) (detail : Word) (s : State) : State :=
  let u := dieUnit 1 p
  let s := if (pdieAt s p).lost then s else faultRecord 3 cls det 2 u 0xFFFF 0 detail (fencePdie p (faultRecord 3 cls det 1 u 0xFFFF 0 detail s))
  faultRecord 3 cls det 7 u 0xFFFF 0 detail (repaired (unitTo 3 u .retired s))

/-! ### Macros and banks (R464, R465) -/

/-- A lasting fault of a tree-store macro: a spare takes its place, and the third points the P-die (R464). -/
def pointMacro (p det : Nat) (unit : Word) (detail : Word) (s : State) : State :=
  let s := faultRecord 4 1 det 2 unit 0xFFFF 0 detail s
  if (pdieAt s p).macroSpares < 2 then
    unitTo 4 unit .repairing (modPdie p (fun x => { x with macroSpares := x.macroSpares + 1, macroPending := x.macroPending + 1 }) s)
  else pointPdie p det 1 detail (unitTo 4 unit .retired s)

/-- The bank of the hot tier of an F-die: F-dies 2p and 2p + 1 hold banks 0 to 47 and 48 to 95 of P-die p. -/
def bankKey (f b : Nat) : Nat := f % 2 * 48 + b % 48

/-- A bank of the hot tier dropped without demotion, its buckets untracked (R465). -/
def dropBank (p key : Nat) (s : State) : State :=
  let gone := (pdieAt s p).hot.filter (fun q => q.1 / 8192 == key)
  cntPdie p 105 ((gone.map (fun q => q.2.pos.length)).sum)
    (modPdie p (fun x => { x with hot := x.hot.filter (fun q => q.1 / 8192 != key), badBanks := mapSet key () x.badBanks }) s)

/-! ### S-dies and channels (R466, R467) -/

/-- A grant whose extent an S-die of a set, or a channel of one, held. -/
def grantOn (i : Nat) (hole : Nat → Bool) (g : Grant) : Bool :=
  (List.range (g.len / 256)).any (fun k => match placeOf (g.base + 256 * k) with
    | some x => x.sdie == i && hole x.off
    | none => false)

/-- The scheme of a grant on a whole S-die: LOCAL and SRAM extents of that stack, and every striped one. -/
def grantAt (i : Nat) (g : Grant) : Bool :=
  match bits 39 38 g.base with
  | 2 => true
  | _ => bits 37 36 g.base == i

/-- The BMEM place that a poisoned response names (R315). -/
def poisonInfo (s : State) (r : MemResponse) : Word :=
  match mapFind r.d.val (brickAt s r.brick.val).fl.streams with
  | some st => BitVec.ofNat 32 (2 ^ 29 + (dDst st.desc + r.pos) % 2 ^ 28)
  | none => 0x20000000

/-- The verdict requests of every token of an S-die. -/
def sdieRequests (x : SDie) : List TokenMsg :=
  x.tokens ++ x.ctxs.flatMap (fun c => c.2.queue) ++ x.seqPallets.flatMap (fun p => p.rows.filterMap (fun r => r.msg))

/-- An S-die fenced with its stack (R466): its warm quarter, contexts and fragments are lost, SEQUENCE slices take source 4, demotions homed on
it are dropped, outstanding responses are poisoned, its extents are withdrawn, a capture held on it is abandoned; the dumps in its staging are
lost (R529). -/
def fenceSdie (i : Nat) (s : State) : State :=
  let x := sdieAt s i
  let s := (sdieRequests x).foldl (fun s t => answerRequest t 4 s) s
  let s := x.demoting.foldl (fun s d => cntPdie d.pdie.val 111 1 s) s
  let holds := !x.lost && (List.range i).all (fun k => (sdieAt s k).lost)
  let s := if holds then { s with obs := { s.obs with rubble := s.obs.rubble.filter (fun r => !r.2.written) } } else s
  let s := modSdie i (fun x => { x with
    responses := x.responses.map (fun r => { r with data := [], bad := some (r.bad.getD (0x0C, poisonInfo s r)) }),
    cache := [], warm := [], demoting := [], frags := [], ctxs := [], tokens := [], fetching := [], writebacks := [], seqPallets := [],
    shadows := [], lost := true }) s
  let s := { s with grants := s.grants.filter (fun g => !grantAt i g) }
  let s := s.parts.foldl (fun s q => if (q.2.drift.attempt.map (fun a => a.sdie.val)) == some i then endAttempt q.1 0x06 1 s else s) s
  coverAll (capsChanged s)

/-- An S-die pointed (R466). -/
def pointSdie (i det cls : Nat) (detail : Word) (s : State) : State :=
  let u := dieUnit 4 i
  let s := if (sdieAt s i).lost then s else faultRecord 10 cls det 2 u 0xFFFF 0 detail (fenceSdie i (faultRecord 10 cls det 1 u 0xFFFF 0 detail s))
  faultRecord 10 cls det 7 u 0xFFFF 0 detail (repaired (unitTo 10 u .retired s))

/-- A channel of a stack retired: its addresses are a hole; below 28 channels the S-die follows (R467). -/
def retireChannel (i ch det : Nat) (unit detail : Word) (s : State) : State :=
  if (sdieAt s i).retiredCh.contains ch then s
  else
    let s := modSdie i (fun x => { x with retiredCh := x.retiredCh ++ [ch] }) s
    let x := sdieAt s i
    let s := (x.ctxs.filter (fun c => ctxInHole x c.1)).foldl (fun s c =>
      freeContext i c.1 (c.2.queue.foldl (fun s t => answerRequest t 4 s) s)) s
    let s := modSdie i (fun x => { x with warm := x.warm.filter (fun w => !inHole x (w.1 * 1024)) }) s
    let s := { s with grants := s.grants.filter (fun g => !grantOn i (fun a => inHole { retiredCh := [ch] } a) g) }
    let s := faultRecord 9 1 det 7 unit 0xFFFF 0 detail (repaired (unitTo 9 unit .retired s))
    let s := coverAll s
    if 4 < x.retiredCh.length then pointSdie i det 1 detail (countLasting s) else s

/-! ### L-dies and wardens (R469, R470) -/

/-- An L-die lost (R470): its ports DOWN, its elastic buffer and ledger lost; verdicts for its feeds become orphans. -/
def pointLdie (l det cls : Nat) (detail : Word) (s : State) : State :=
  let u := dieUnit 3 l
  if (ldieAt s l).lost then s
  else
    let s := faultRecord 13 cls det 1 u 0xFFFF 0 detail s
    let s := (rangeFrom (16 * l) 16).foldl (fun s p => if (portAt s p).st.val = 0 then s else portDown p s) s
    let s := modLdie l (fun q => { q with elastic := [], ledger := [], lost := true }) s
    faultRecord 13 cls det 7 u 0xFFFF 0 detail (capsChanged (repaired (unitTo 13 u .retired s)))

/-- A takeover by the standby warden (R469): every session and challenge ends, the standby is used up, INT_N may rise. Without a standby nothing
takes over. -/
def takeover (det : Nat) (s : State) : State :=
  if s.flt.standbyOk then
    let old := b2n s.flt.activeW
    let s := faultRecord 12 1 det 2 (dieUnit 5 old) 0xFFFF 0 0 s
    let s := { s with flt := { s.flt with standbyOk := false, activeW := !s.flt.activeW },
                      auth := { s.auth with sessions := [], challenges := [], sig := [] } }
    raiseInt 5 (auditDevice 0x0061 0xFFFFFFFF 1 [BitVec.ofNat 8 (1 - old)] s)
  else s

/-- A warden die that fails: the active one hands over, the standby leaves the device without one. -/
def pointWarden (w det : Nat) (s : State) : State :=
  if w = b2n s.flt.activeW then takeover det s
  else faultRecord 12 1 det 7 (dieUnit 5 w) 0xFFFF 0 0 { s with flt := { s.flt with standbyOk := false } }

/-! ### Classification (R448 to R450, R459, R476) -/

/-- A lasting fault of a unit: its row of Table 6. -/
def pointUnit (kind : Nat) (unit : Word) (det : Nat) (detail : Word) (s : State) : State :=
  let n := unitCdie unit
  let b := n * 16 + unitBrick unit
  match kind with
  | 0 => pointBrick b det 0 detail (countLasting s)
  | 1 => coverAll (retireGroups b [Fin.ofNat 16 (unitLow unit)] s)
  | 2 => pointCdie n det 1 detail (countLasting s)
  | 3 => pointPdie (n % 4) det 1 detail (countLasting s)
  | 4 => pointMacro (n % 4) det unit detail (countLasting s)
  | 5 => unitTo 5 unit .covered (faultRecord 5 1 det 2 unit 0xFFFF 0 detail (dropBank (n / 2 % 4) (bankKey n (unitLow unit)) (countLasting s)))
  | 6 => removeLane (n % 4) (bits 15 8 unit.toNat) s
  | 7 =>
    let s := faultRecord 7 1 det 2 unit 0xFFFF 0 detail (unitTo 7 unit .retired (countLasting s))
    if bits 31 24 unit.toNat = 4 ∨ bits 31 24 unit.toNat = 6 then pointSdie (n % 4) det 1 detail s
    else if bits 31 24 unit.toNat = 0 then pointCdie n det 1 detail s
    else s
  | 8 => unitTo 8 unit .repairing (faultRecord 8 1 det 2 unit 0xFFFF 0 detail (countLasting s))
  | 9 => retireChannel (n % 4) (bits 15 8 unit.toNat % 32) det unit detail (countLasting s)
  | 10 => pointSdie (n % 4) det 1 detail (countLasting s)
  | 11 => faultRecord 11 1 det 7 unit 0xFFFF 0 detail (unitTo 11 unit .retired (countLasting s))
  | 12 => pointWarden (n % 2) det (countLasting s)
  | 13 => pointLdie (n % 4) det 1 detail (countLasting s)
  | _ => s

/-- A unit fenced and covered while it is being retested (R452, R476). -/
def fenceUnit (kind : Nat) (unit : Word) (s : State) : State :=
  let n := unitCdie unit
  match kind with
  | 0 => fenceGroup (n * 16 + unitBrick unit) s
  | 1 => fenceGroup (n * 16 + unitBrick unit) s
  | 2 => (courseBricks n).foldl (fun s b => fenceBrick b s) s
  | 3 => fencePdie (n % 4) s
  | 5 => dropBank (n / 2 % 4) (bankKey n (unitLow unit)) s
  | 10 => fenceSdie (n % 4) s
  | _ => s

/-- A unit under pointing that returns (R476): a fenced brick is reset, a die takes part again with what it held lost. -/
def returnUnit (kind : Nat) (unit : Word) (s : State) : State :=
  let n := unitCdie unit
  let back := fun (b : Nat) (s : State) => modBrick b (fun x =>
    if x.c.phase == .fenced then let y := brickReset x; { y with c := { y.c with resetDone := nowNs s + 2000 } } else x) s
  match kind with
  | 0 => (groupBricks s (groupsOf s (n * 16 + unitBrick unit)) ++ [n * 16 + unitBrick unit]).foldl (fun s b => back b s) s
  | 1 => (groupBricks s (groupsOf s (n * 16 + unitBrick unit)) ++ [n * 16 + unitBrick unit]).foldl (fun s b => back b s) s
  | 2 => (courseBricks n).foldl (fun s b => back b s) s
  | 3 => capsChanged (resteer (writeSteer s.st.running.flowGeom.steer (modPdie (n % 4) (fun x => { x with lost := false }) s)))
  | 5 => modPdie (n / 2 % 4) (fun x => { x with badBanks := mapDel (bankKey n (unitLow unit)) x.badBanks }) s
  | 10 => coverAll (capsChanged (modSdie (n % 4) (fun x => { x with lost := false }) s))
  | _ => s

/-- The two views of a unit disagree, or its health is in doubt (R476): it is fenced, covered, and retested. -/
def disagree (kind : Nat) (unit : Word) (det : Nat) (detail : Word) (s : State) : State :=
  if !inService s kind unit then s
  else
    let s := faultRecord kind 4 det 1 unit 0xFFFF 0 detail (cntWdn 4 1 s)
    let s := faultRecord kind 4 det 2 unit 0xFFFF 0 detail (unitTo kind unit .covered (fenceUnit kind unit s))
    { s with flt := { s.flt with retests := s.flt.retests ++ [unitKey kind unit] } }

end Sys2Proof.Machine
end

