-- ==== Sys2Proof/Machine/FaultEvents.lean ====
section
/-!
DEFINITION. The meanings of the fault events: errors detected, halts reported, leases and heartbeats that expire, retests, and the repairs that
complete (chapter 17).
-/

namespace Sys2Proof.Machine

open Sys2Proof

/-! ### Detection and classification (R448 to R451) -/

/-- The kinds of unit whose transient faults of detectors 1, 3 and 4 are counted towards the sixteenth (R449): a brick memory, a column group, a
macro, a bank, a channel. -/
def escalates (kind det : Nat) : Bool := [0, 1, 4, 5, 9].contains kind && [1, 3, 4].contains det

/-- ERROR_DETECT (R448, R449): a fault whose retry succeeds is transient and counted, the sixteenth within a second is lasting; one that a retest
retries is a disagreement of views; any other is lasting. Errors of lanes follow R406 alone. A unit already under pointing is left. -/
def execErrorDetect (e : DetectedError) (s : State) : Out :=
  let k := e.kind.val
  let d := e.detector.val
  .next (if d = 0 ∨ inService s k e.unit = false then s
    else if k = 6 then (if d = 10 ∧ e.retryOk = false then pointUnit 6 e.unit 10 e.detail s else s)
    else if e.retryOk then
      let r := noteTransient (unitKey k e.unit) s
      if escalates k d && r.2 then pointUnit k e.unit d e.detail r.1
      else faultRecord k 0 d 0 e.unit 0xFFFF 0 e.detail r.1
    else if d = 7 ∨ d = 8 then disagree k e.unit d e.detail s
    else pointUnit k e.unit d e.detail s)

/-- The partitions charged with a program halt (R451): that of the window that the halting instruction names, else every partition with a
window on the brick. -/
def chargedParts (x : BrickSt) : List Nat :=
  match x.c.haltWin with
  | some w => [(x.wins.get w).part.val]
  | none => ((x.wins.toList.filter (fun w => w.valid)).map (fun w => w.part.val)).dedup

/-- One program halt charged to a partition; the third within a second marks its target lost (R451). -/
def chargeHalt (p : Nat) (reason : Byte) (s : State) : State :=
  modPart p (fun x =>
    let ts := x.fault.haltTimes.filter (fun t => decide (nowNs s < t + 1000000000)) ++ [nowNs s]
    { x with fault := { x.fault with
        programHalts := if x.fault.programHalts = 255 then 255 else x.fault.programHalts + 1, lastHalt := reason, haltTimes := ts,
        targetLost := x.fault.targetLost || decide (3 ≤ ts.length) } }) s

/-- A halt that ends with a brick reset: the group fenced, and the record of its class (R450, R461). -/
def returnHalt (b cls det part : Nat) (s : State) : State :=
  let x := brickAt s b
  let u := brickUnit b
  unitTo 0 u .covered (fenceGroup b (faultRecord 0 cls det 8 u part x.c.haltReason.toNat x.c.haltInfo s))

/-- A program halt (R450, R451). -/
def programHalt (b : Nat) (s : State) : State :=
  let x := brickAt s b
  let ps := chargedParts x
  returnHalt b 2 (if x.c.haltReason = 0x0A then 6 else 0) (ps.headD 0xFFFF) (ps.foldl (fun s p => chargeHalt p x.c.haltReason s) (cntWdn 2 1 s))

/-- The hangs of a brick within the last second. -/
def recentHangs (s : State) (b : Nat) : List Nat :=
  (unitAt s (unitKey 0 (brickUnit b))).hangs.filter (fun t => decide (nowNs s < t + 1000000000))

/-- Whether another brick of the same placement hung within the last second: one with a window of a partition that this brick serves. -/
def otherHung (s : State) (b : Nat) : Bool :=
  let ps := ((brickAt s b).wins.toList.filter (fun w => w.valid)).map (fun w => w.part)
  s.bricks.any (fun k => k.1 != b && !(recentHangs s k.1).isEmpty && k.2.wins.toList.any (fun w => w.valid && ps.contains w.part))

/-- A hang (Table 4 of the fault chapter): the first within a second is transient; the second lasting, or of the program where another brick of the
placement hung too. -/
def hangHalt (b : Nat) (s : State) : State :=
  let x := brickAt s b
  let again := !(recentHangs s b).isEmpty
  let program := otherHung s b
  let s := modUnit (unitKey 0 (brickUnit b)) (fun u => { u with hangs := recentHangs s b ++ [nowNs s] }) s
  if !again then returnHalt b 0 6 0xFFFF (cntWdn 0 1 s)
  else if program then programHalt b s
  else pointBrick b 6 0x0A x.c.haltInfo (countLasting s)

/-- HALT_REPORT (R450, R461): a brick's halt reaches the warden and is classified by its reason. -/
def execHaltReport (brick : Brick) (s : State) : Out :=
  let b := brick.val
  let x := brickAt s b
  .next (if x.c.phase != .halted || x.c.haltReason = 0x0E then s
    else if x.c.haltReason = 0x0C then
      (if x.c.haltPoison then returnHalt b 3 5 0xFFFF (cntWdn 3 1 s) else pointBrick b 5 0x0C x.c.haltInfo (countLasting s))
    else if x.c.haltReason = 0x0A then hangHalt b s
    else programHalt b s)

/-! ### Leases and heartbeats (R471, R472, R476) -/

/-- LEASE_EXPIRE (R472): the lease returns to its router and its expiry is reported: a pallet lease fails its pallet, and the holder is treated as
unreachable; the management lock's expiry is the warden's. -/
def execLeaseExpire (id : Nat) (s : State) : Out :=
  .next (match s.flt.leases.find? (fun l => l.id == id) with
    | none => s
    | some l =>
      if nowNs s < l.until_ then s
      else
        let s := cntWdn 5 1 { s with flt := { s.flt with leases := s.flt.leases.filter (fun x => x.id != id) } }
        let unit := BitVec.ofNat 32 l.holder
        let s := if l.kind.val = 1 then
            modPdie l.pdie.val (fun x =>
              { x with inflight := x.inflight.map (fun (q : Nat × Pallet) => if q.1 = l.pallet then (q.1, { q.2 with failed := true }) else q) }) s
          else s
        if l.kind.val = 6 then takeover 7 s else disagree (l.holder / 2 ^ 32) unit 7 0 s)

/-- The kind of unit of a die's unit field (R478). -/
def dieKind (unit : Word) : Nat :=
  match bits 31 24 unit.toNat with
  | 0 => 2
  | 1 => 3
  | 2 => 3
  | 3 => 13
  | 4 => 10
  | 5 => 12
  | _ => 10

/-- HEARTBEAT_EXPIRE (R471, R476): a die has missed its heartbeats. An L-die has no cover on the device and no retest (R470), a warden hands over;
any other is fenced, covered and retested. The die is named by its unit field; an F-die by its P-die. -/
def execHeartbeatExpire (die : Nat) (s : State) : Out :=
  let u : Word := BitVec.ofNat 32 die
  let u := if bits 31 24 die = 2 then dieUnit 1 (bits 23 16 die / 2) else if bits 31 24 die = 6 then dieUnit 4 (bits 23 16 die) else u
  let k := dieKind u
  let s := cntWdn 5 1 s
  .next (if k = 13 then pointUnit 13 u 8 0 s else if k = 12 then pointWarden (unitCdie u % 2) 8 s else disagree k u 8 0 s)

/-- WARDEN_TAKEOVER (R469): the standby warden takes over. -/
def execWardenTakeover (s : State) : Out := .next (takeover 8 s)

/-- RETEST_COMPLETE (R476): the retested unit returns, unless it is the third return after a disagreement within 10 s; a failed retest makes the
fault lasting. -/
def execRetestComplete (unit : Nat) (pass : Bool) (s : State) : Out :=
  let kind := unit / 2 ^ 32
  let u : Word := BitVec.ofNat 32 unit
  .next (if !s.flt.retests.contains unit then s
    else
      let s := { s with flt := { s.flt with retests := s.flt.retests.filter (fun k => k != unit) } }
      let ts := (unitAt s unit).disagreements.filter (fun t => decide (nowNs s < t + 10000000000)) ++ [nowNs s]
      if pass && decide (ts.length < 3) then
        let s := modUnit unit (fun x => { x with st := .inService, disagreements := ts }) s
        faultRecord kind 4 8 8 u 0xFFFF 0 0 (returnUnit kind u s)
      else pointUnit kind u 8 0 s)

/-! ### Repairs (R291, R460, R462, R464 to R468) -/

/-- Standby bricks for a group of n: of one course, in service and not yet used, the lowest course first (log 41). -/
def standbyFor (s : State) (n : Nat) : Option (List Nat) :=
  let free := s.st.running.bond.standby.filter (fun k => brickServes s k && !s.flt.subst.any (fun q => q.2 == k))
  (List.range 16).findSome? (fun c =>
    let l := free.filter (fun k => k / 16 == c)
    if n ≤ l.length then some (l.take n) else none)

/-- A lost group's bricks replaced by standby bricks. -/
def replaceGroup (g : Group) (s : State) : State :=
  match (if groupGone s g then standbyFor s g.bricks.length else none) with
  | some l => { s with flt := { s.flt with subst := (g.bricks.zip l).foldl (fun m q => mapSet q.1 q.2 m) s.flt.subst } }
  | none => s

/-- The streams of an epoch placed again where their extents were withdrawn (R466, R467): resident, in the pinned region or in the LOCAL model store
of a remaining S-die, as the loader chooses (free). -/
def rehomeStreams (p : Part) (e : ModelEpoch) (s : State) : State :=
  if !streamGone s p.val e then s
  else
    let r := takeFrees 2 s
    let s := reserve e.place false r.2
    let home := ((List.range 4).find? (fun i => !(sdieAt s i).lost)).getD 0
    let kind : Fin 4 := if (sdieAt s home).lost then 0 else Fin.ofNat 4 ((r.1.getD 0 0).toNat % 3)
    let pl := { e.place with kind, home := Fin.ofNat 4 home }
    let len := ceilDiv pl.streamed 4096 * 4096
    let gs : List Grant := match kind.val with
      | 1 => streamGrant s p pl (r.1.getD 1 0)
      | 2 => [{ part := p, base := 2 ^ 38 + home * 2 ^ 36 + 0x320000000 + (r.1.getD 1 0).toNat % ((0x580000000 - len) / 4096 + 1) * 4096,
                len, epoch := pl.id }]
      | _ => []
    modEpoch p.val e.num (fun x => { x with place := { x.place with kind, home := Fin.ofNat 4 home } }) (reserve pl true { s with grants := s.grants ++ gs })

/-- REPLACEMENT_COMPLETE (R460, R466): the lost stages of a partition run on standby groups and its streams on what remains, with a predicted
pallet time of their own (free); a stage that no standby group can hold leaves the target lost. -/
def execReplacementComplete (part : Part) (ok : Bool) (s : State) : Out :=
  let p := part.val
  .next (if !s.flt.replacing.contains p then s
    else
      let before := (modelAt s p).epochs.map (fun (e : ModelEpoch) => (e.num, epochBricks s p e))
      let groups := ((bondOf s.st.running p).map (fun (b : PartBond) => b.pallet.flatten ++ b.seqGroups)).getD []
      let s := if ok then groups.foldl (fun s g => replaceGroup g s) s else s
      let s := if ok then (modelAt s p).epochs.foldl (fun s e => rehomeStreams part e s) (rePlace part before s) else s
      let r := takeFrees 2 s
      let s := if ok then setXlate p 0 0 0 ((r.1.getD 0 0).toNat % 65536) ((r.1.getD 1 0).toNat % 8193) r.2 else s
      let lost := (coverage s p).1
      let s := coverPart p s
      let s := if lost then modPart p (fun x => { x with fault := { x.fault with targetLost := true, targetUnavail := false } }) s else s
      let s := { s with flt := { s.flt with replacing := s.flt.replacing.filter (fun q => q != p) } }
      if ok then faultRecord 0 1 0 6 (brickUnit ((groupBricks s groups).headD 0)) p 0 0 s else s)

/-- One narrowed brick in service again (R291): its capability hash, the stamps of its new code, its array, a brick reset. -/
def rebuildBrick (b : Nat) (s : State) : State :=
  let x := brickAt s b
  if x.arr.state.val != 1 then s
  else
    let h := capHashOf s x
    let x := brickReset { x with arr := { x.arr with state := 0 } }
    let s := putBrick b { x with c := { x.c with capHash := h, resetDone := nowNs s + 2000 },
                                 regions := x.regions.map (fun (r : Region) => if r.valid then { r with stamp := h } else r) } s
    faultRecord 1 1 4 8 (brickUnit b) 0xFFFF 0 0 s

/-- The other members of the dispatch groups of a C-die's narrowed bricks (R292). -/
def misfits (c : Nat) (s : State) : List Nat :=
  let bad := (courseBricks c).filter (fun b => (brickAt s b).arr.state.val == 1)
  ((bad.flatMap (fun b => groupBricks s (groupsOf s b))).dedup).filter (fun k =>
    k / 16 == c && !bad.contains k && (clocked (brickAt s k) || (brickAt s k).c.phase == .frozen))

/-- A member of a dispatch group given its new code while fenced: it returns through a brick reset. -/
def returnMember (b : Nat) (s : State) : State :=
  modBrick b (fun x => let y := brickReset x
    { y with c := { y.c with resetDone := nowNs s + 2000 } }) s

/-- RETRANSLATION_COMPLETE (R291, R292): the stages of a course translated for its new widths; the narrowed bricks return, and the predicted pallet
times and the replay lengths are those of the new code (free). Whether the old and the new code of their groups fit together is free (log 48): where
they do not, the groups are fenced, covered by their buddies and returned. -/
def execRetranslationComplete (course : Course) (s : State) : Out :=
  .next (match physCdie s course.val with
    | none => s
    | some c =>
      if !(courseBricks c).any (fun b => (brickAt s b).arr.state.val == 1) then s
      else
        let fit := takeFree s
        let group := if bit 0 fit.1.toNat then [] else misfits c s
        let s := group.foldl (fun s b => fenceBrick b s) fit.2
        let s := (courseBricks c).foldl (fun s b => rebuildBrick b s) s
        let s := group.foldl (fun s b => returnMember b s) s
        let ps := ((courseBricks c).flatMap (fun b => ((brickAt s b).wins.toList.filter (fun w => w.valid)).map (fun w => w.part.val))).dedup
        let s := ps.foldl (fun s p =>
          let r := takeFrees 2 s
          setXlate p 0 0 0 ((r.1.getD 0 0).toNat % 65536) ((r.1.getD 1 0).toNat % 8193) r.2) s
        let f := takeFree s
        let n := 1 + f.1.toNat % 255
        coverAll (capsChanged ((courseBricks c).foldl (fun s b => modBrick b (fun x =>
          if x.c.lockstep then { x with c := { x.c with replayBeats := n } } else x) s) f.2)))

/-- REHOME_COMPLETE (R462): the spare carries the course with its self-test passed, its capability record written, its stages translated and its
pages and code in place; a spare that fails is pointed in turn, and the next starts. -/
def execRehomeComplete (cdie : Cdie) (ok : Bool) (s : State) : Out :=
  .next (match s.flt.rehoming.find? (fun q => q.1 == cdie) with
    | none => s
    | some q =>
      let c := q.2.val
      let u := dieUnit 0 cdie.val
      let s := { s with flt := { s.flt with rehoming := s.flt.rehoming.filter (fun x => x.1 != cdie) } }
      if ok then
        let all := s.models.map (fun m => (m.1, (modelAt s m.1).epochs.map (fun (e : ModelEpoch) => (e.num, epochBricks s m.1 e))))
        let s := { s with flt := { s.flt with courses := mapSet c (some cdie) s.flt.courses } }
        let s := (courseBricks cdie.val).foldl (fun s b =>
          let layout := decide (s.st.running.layout.getD (c * 16 + b % 16) 0 = 1)
          let x : BrickSt := { arr := { layout }, c := { phase := .idle, wdogLimitUs := clampNat 1 15 s.st.running.device.wdogUs } }
          putBrick b { x with c := { x.c with capHash := capHashOf s x } } s) s
        let s := all.foldl (fun s m => rePlace (Fin.ofNat 1024 m.1) m.2 s) s
        let s := faultRecord 2 1 0 5 u 0xFFFF 0 0 (capsChanged (repaired s))
        coverAll s
      else
        let s := { s with flt := { s.flt with retiredCdies := s.flt.retiredCdies ++ [cdie.val] } }
        let s := (courseBricks cdie.val).foldl (fun s b => modBrick b (fun x => { x with c := { x.c with phase := .retired } }) s) s
        let s := faultRecord 2 1 11 7 u 0xFFFF 0 0 (unitTo 2 u .retired (capsChanged (repaired (countLasting s))))
        startRehome c s)

/-- MACRO_SPARE_READY (R464): the spare macro has been written from the loader's copy. -/
def execMacroSpareReady (p : Die) (s : State) : Out :=
  .next (if (pdieAt s p.val).macroPending = 0 then s
    else
      let s := modPdie p.val (fun x => { x with macroPending := x.macroPending - 1 }) s
      faultRecord 4 1 0 4 (dieUnit 1 p.val) 0xFFFF 0 0 (repaired s))

/-- BANK_SPARE_READY (R465): a zeroed spare replaces the lowest faulty bank of an F-die, while it has one of its two spares. -/
def execBankSpareReady (f : FDie) (s : State) : Out :=
  let p := f.val / 2
  let x := pdieAt s p
  .next (match ((List.range 48).map (fun b => bankKey f.val b)).find? (fun k => (mapFind k x.badBanks).isSome) with
    | none => s
    | some k =>
      let u := BitVec.ofNat 32 (2 * 2 ^ 24 + f.val * 2 ^ 16 + k % 48)
      if 2 ≤ mapGet 0 x.bankSpares f.val then unitTo 5 u .retired s
      else
        let s := modPdie p (fun y => { y with badBanks := mapDel k y.badBanks, bankSpares := mapMod 0 f.val (· + 1) y.bankSpares }) s
        faultRecord 5 1 0 4 u 0xFFFF 0 0 (unitTo 5 u .inService (repaired s)))

/-- ROW_SPARED (R467): a row of a stack replaced from the repair reserve; its correctable sectors are copied. -/
def execRowSpared (sdie : Die) (addr : Nat) (s : State) : Out :=
  let u := dieUnit 6 sdie.val
  .next (faultRecord 8 1 1 4 u 0xFFFF 0 (BitVec.ofNat 32 addr) (unitTo 8 u .inService (repaired s)))

/-- MORTAR_LANE_REPAIR (R468): a module that lost a lane has repaired it and resumes; `link` is its unit field. -/
def execMortarLaneRepair (link : Nat) (s : State) : Out :=
  let u : Word := BitVec.ofNat 32 link
  .next (faultRecord 7 1 10 4 u 0xFFFF 0 0 (unitTo 7 u .inService (repaired (countLasting s))))

/-- RING_WRITE_FAIL (R425, R431): a ring write that completes with an error is reported through AER and clears the ring's enable. -/
def execRingWriteFail (part : Part) (ring : Fin 8) (s : State) : Out :=
  .next (if 6 ≤ ring.val then s
    else { modPart part.val (modRing ring.val (fun y => { y with enable := false })) s with
      dev := { s.dev with aerErrors := s.dev.aerErrors + 1 } })

end Sys2Proof.Machine
end

