-- ==== Sys2Proof/Machine/Loops.lean ====
section
/-!
DEFINITION. The policy bounds, the adaptive loops, the safety limits, the island clocks and the power governor (R390 to R395, R490 to R492).
-/

namespace Sys2Proof.Machine

open Sys2Proof

/-! ### Bounds (R390, R391) -/

/-- The partition and index that WDN_BOUND_SEL selects. -/
def selLoop (s : State) : Nat × Nat := (bits 4 0 s.loops.sel.toNat, bits 25 16 s.loops.sel.toNat)

/-- An operator bound written: within the installer's, or bad_write where lo exceeds hi (R391). -/
def writeBound (lo hi : Word) (s : State) : State :=
  let (i, p) := selLoop s
  let l := { s.loops with stagedLo := mapDel (loopKey i p) s.loops.stagedLo }
  if 17 ≤ i then s
  else if hi.toNat < lo.toNat then { s with loops := { l with badWrite := true } }
  else
    let b := installerBound s i p
    { s with loops := { l with opBounds := mapSet (loopKey i p) (clampNat b.1 b.2 lo.toNat, clampNat b.1 b.2 hi.toNat) l.opBounds } }

/-- BOUND_COMMIT (R391, R395): a write of WDN_BOUND_HI commits both operator bounds of the selected loop. -/
def execBoundCommit (path : Path) (lo hi : Word) (s : State) : Out :=
  .next (commandWith path operatorRights 0x0030 (selLoop s).1 (fun s => decide ((selLoop s).1 < 17 ∧ lo.toNat ≤ hi.toNat))
    (leBytes 4 lo.toNat ++ leBytes 4 hi.toNat ++ leBytes 4 (selLoop s).2) id (writeBound lo hi) s)

/-! ### Loops pinned and free (R392) -/

/-- The loops of this test: re-tempering raises LOOP_PINNED under R163. -/
def pinLoop (i : Nat) : Bool := decide (i < 17) && !(decide (7 ≤ i) && decide (i ≤ 15))

/-- The partition whose ring 5 has a loop's events (Table 4 of the partition chapter). -/
def loopPart (i n : Nat) : Nat := if perPartition i then n else 0

/-- LOOP_PINNED (R392): an instance of a loop (a partition, an island, a lane) has been clamped for 1 ms without a break. -/
def execLoopPinned (loop : Fin 64) (part : Part) (s : State) : Out :=
  let k := loop.val * 1024 + part.val
  .next (match mapFind k s.loops.clampSince with
    | some t =>
      if pinLoop loop.val && decide (t + 1000000 ≤ nowNs s) && (mapFind k s.loops.pinned).isNone then
        event (loopPart loop.val part.val) 4 loop.val { s with loops := { s.loops with pinned := mapSet k () s.loops.pinned } }
      else s
    | none => s)

/-- LOOP_FREE (R392): a pinned instance has gone 1 ms without clamping. -/
def execLoopFree (loop : Fin 64) (part : Part) (s : State) : Out :=
  let k := loop.val * 1024 + part.val
  .next (match mapFind k s.loops.freeSince with
    | some t =>
      if pinLoop loop.val && decide (t + 1000000 ≤ nowNs s) && (mapFind k s.loops.pinned).isSome then
        event (loopPart loop.val part.val) 5 loop.val { s with loops := { s.loops with pinned := mapDel k s.loops.pinned } }
      else s
    | none => s)

/-! ### Island clocks (R490, R491) -/

/-- The clock of an island in MHz. -/
def islandClock (s : State) (c : Nat) : Nat := mapGet 0 s.loops.clocks c

/-- An island's clock set. -/
def setClock (c mhz : Nat) (s : State) : State := { s with loops := { s.loops with clocks := mapSet c mhz s.loops.clocks } }

/-- Whether a safety action holds an island: one of its die, or of its current (rows 0, 1 and 4 of Table 9). -/
def islandSafety (s : State) (c : Nat) : Bool :=
  s.loops.safety.any (fun a => (a.1 == 0 || a.1 == 1 || a.1 == 4) && a.2 == (dieUnit 0 c).toNat)

/-- The output of the island clock loop for a wish: at most the governor's ceiling, within bound 0. -/
def clampClock (s : State) (wish : Nat) : Nat :=
  let b := effectiveBound s 0 0
  clampNat b.1 b.2 (min wish s.loops.ceiling)

/-- DROOP_DETECT (R491): a droop stretches the next clock period of the island and removes no cycle; it counts towards the island's next
sample. -/
def execDroopDetect (course : Course) (s : State) : Out :=
  .next (match physCdie s course.val with
    | some c => { s with loops := { s.loops with droops := mapMod 0 c (· + 1) s.loops.droops } }
    | none => s)

/-- ISLAND_CLOCK_SAMPLE (R491): more droops than the K2 calibration allows lower the clock by 25 MHz; a millisecond without any raises it by
10 MHz, up to the governor's ceiling. The voltage offset is what its loop chooses (free), within bound 1. -/
def execIslandClockSample (course : Course) (s : State) : Out :=
  .next (match physCdie s course.val with
    | none => s
    | some c =>
      let n := mapGet 0 s.loops.droops c
      let clock := islandClock s c
      let b := effectiveBound s 0 0
      let slow := decide (mapGet 0 s.loops.droopCal c < n)
      let calm := mapFind c s.loops.calmSince
      let rise := decide (n = 0) && (match calm with
        | some t => decide (t + 1000000 ≤ nowNs s)
        | none => false)
      let s := { s with loops := { s.loops with
        droops := mapDel c s.loops.droops,
        calmSince := if n ≠ 0 then mapDel c s.loops.calmSince
          else if rise || calm.isNone then mapSet c (nowNs s) s.loops.calmSince else s.loops.calmSince } }
      let f := takeFree s
      let v := effectiveBound s 1 0
      let volt := clampNat v.1 v.2 (f.1.toNat % 256)
      let s := { f.2 with loops := { f.2.loops with volts := mapSet c volt f.2.loops.volts } }
      if islandSafety s c then s
      else
        let s := setClock c (clampClock s (if slow then clock - 25 else if rise then clock + 10 else clock)) s
        noteClamp c ((slow && decide (clock - 25 < b.1)) || (decide (n = 0) && decide (b.2 ≤ clock) && decide (b.2 < s.loops.ceiling))) s)

/-! ### The power governor (R492, R500) -/

/-- The power at VPRI in units of 100 mW. -/
def power100 (l : LoopSt) : Nat := l.vpriMv * l.ipri10ma / 10000

/-- Every island at no more than a new ceiling. -/
def ceilingTo (mhz : Nat) (s : State) : State :=
  let s := { s with loops := { s.loops with ceiling := mhz } }
  s.loops.clocks.foldl (fun s q => if mhz < q.2 ∧ islandSafety s q.1 = false then setClock q.1 (clampClock s q.2) s else s) s

/-- The fall of the clocks under the safety actions in force (rows 0 and 3 of Table 9), in the 100 us between two samples. -/
def safetyFall (s : State) : State :=
  s.loops.safety.foldl (fun s a =>
    if a.1 = 0 then
      let c := unitCdie (BitVec.ofNat 32 a.2)
      if a.2 / 2 ^ 24 = 0 then setClock c (islandClock s c - 50) s else s
    else if a.1 = 3 then ceilingTo (s.loops.ceiling - 500) s
    else s) s

/-- GOVERNOR_SAMPLE (R492): VPRI's voltage and current. Power over the cap lowers the ceiling by 25 MHz; a millisecond with power 5 % under it
raises it by 10 MHz, within bound 2; a safety action on VPRI holds it. -/
def execGovernorSample (vpriMv ipri10ma : Nat) (s : State) : Out :=
  let s := { s with loops := { s.loops with vpriMv, ipri10ma } }
  let cap := (effectiveBound s 3 0).2 * 10
  let w := power100 s.loops
  let b := effectiveBound s 2 0
  let held := s.loops.safety.any (fun a => a.1 == 2 || a.1 == 3)
  let high := decide (cap < w)
  let low := decide (w * 100 < cap * 95)
  let rise := low && decide (s.loops.ceilingCalm + 1000000 ≤ nowNs s)
  let s := { s with loops := { s.loops with ceilingCalm := if low && !rise then s.loops.ceilingCalm else nowNs s } }
  let ceiling := s.loops.ceiling
  .next (if held then safetyFall s
    else
      let wish := if high then ceiling - 25 else if rise then ceiling + 10 else ceiling
      let s := safetyFall (ceilingTo (clampNat b.1 b.2 wish) s)
      noteClamp 2048 ((high && decide (ceiling - 25 < b.1)) || (low && decide (b.2 ≤ ceiling))) s)

/-! ### Safety limits (R393, R394) -/

/-- The kind of unit and the number of the die whose unit field a safety condition names. -/
def safetyPoint (unit : Nat) (s : State) : State :=
  let u := BitVec.ofNat 32 unit
  if inService s (dieKind u) u then pointUnit (dieKind u) u 9 0 s else s

/-- SAFETY_OVERRIDE (R393): a condition of Table 9 starts its action: counted, recorded, signalled, and in force until it clears. Row 1 fences and
points the die; row 4 brings the island below its bound by as much as the current demands (free). -/
def execSafetyOverride (kind : Fin 8) (unit : Nat) (s : State) : Out :=
  let k := kind.val
  .next (if 5 ≤ k ∨ s.loops.safety.contains (k, unit) then s
    else
      let s := { s with loops := { s.loops with safety := s.loops.safety ++ [(k, unit)], lastSafety := kind,
                                                safetyCnt := mapMod 0 k (· + 1) s.loops.safetyCnt } }
      let s := event 0 6 k (auditDevice 0x0060 (if k = 2 ∨ k = 3 then 0xFFFFFFFF else unit) 1 [BitVec.ofNat 8 k] (raiseInt 3 s))
      let c := unitCdie (BitVec.ofNat 32 unit)
      match k with
      | 0 => if unit / 2 ^ 24 = 0 then setClock c (islandClock s c - 50) s else s
      | 1 => safetyPoint unit s
      | 2 => ceilingTo 500 s
      | 3 => ceilingTo (s.loops.ceiling - 100) s
      | _ =>
        let f := takeFree s
        setClock c (f.1.toNat % (max 1 (effectiveBound s 0 0).1)) f.2)

/-- SAFETY_CLEAR (R393): the condition has cleared past its hysteresis; the loops return within their effective bounds. -/
def execSafetyClear (kind : Fin 8) (unit : Nat) (s : State) : Out :=
  .next (if !s.loops.safety.contains (kind.val, unit) then s
    else
      let s := { s with loops := { s.loops with safety := s.loops.safety.filter (fun a => a != (kind.val, unit)) } }
      let b := effectiveBound s 2 0
      let held := s.loops.safety.any (fun a => a.1 == 2 || a.1 == 3)
      let s := if held then s else { s with loops := { s.loops with ceiling := clampNat b.1 b.2 s.loops.ceiling } }
      s.loops.clocks.foldl (fun s q => if islandSafety s q.1 || q.2 = 0 then s else setClock q.1 (clampClock s q.2) s) s)

end Sys2Proof.Machine
end

