-- ==== Sys2Proof/Machine/Rings.lean ====
section
/-!
DEFINITION. The meanings of the host interface's events: doorbells, ring enables, spills, moderation and vectors, functions that appear, sleep and
go (R423 to R435).
-/

namespace Sys2Proof.Machine

open Sys2Proof

/-- The records waiting for a ring discarded and counted (R426, R431, R439). -/
def dropWaiting (p r k : Nat) (s : State) : State :=
  let n := (ringAt (partAt s p) r).waiting.length
  if n = 0 then s else cntPart p k n (modPart p (modRing r (fun y => { y with waiting := [] })) s)

/-- Every ring's waiting records discarded. -/
def dropRings (p k : Nat) (s : State) : State := (List.range 6).foldl (fun s r => dropWaiting p r k s) s

/-- RING_SPILL (R431): the oldest waiting record has waited spill_us: every waiting record goes, and new ones until an entry is free. -/
def execRingSpill (part : Part) (ring : Fin 8) (s : State) : Out :=
  let p := part.val
  let y := ringAt (partAt s p) ring.val
  .next (match y.waiting with
    | w :: _ =>
      if w.2 + y.spillUs * 1000 ≤ nowNs s ∧ fenced s p = false then
        dropWaiting p ring.val 8 (modPart p (modRing ring.val (fun z => { z with spilling := true })) s)
      else s
    | [] => s)

/-- RING_DOORBELL (R432, R441): a new cons, accepted only if it does not go back; an ignored one sets bad_doorbell. -/
def execRingDoorbell (part : Part) (ring : Fin 8) (cons : Word) (s : State) : Out :=
  let p := part.val
  let x := partAt s p
  let y := ringAt x ring.val
  .next (if fenced s p || decide (6 ≤ ring.val) then s
    else if (y.prod - cons).toNat ≤ (y.prod - y.cons).toNat then
      let y := { y with cons }
      let y := if ringFull y then y else { y with spilling := false }
      ringDrain p ring.val y.waiting.length (putPart p (putRing ring.val y x) s)
    else
      let s := putPart p { x with badDoorbell := true } s
      if x.badDoorbell then s else askVec p 6 s)

/-- A write of PRT_RING_CTL (R431, R432, Table 11): enable = 1 sets prod and cons to 0, the size is taken only while the ring is disabled; enable
= 0 discards what waits. -/
def writeRingCtl (p r : Nat) (value : Word) (s : State) : State :=
  let v := value.toNat
  let s := modPart p (modRing r (fun y =>
    let y := { y with spillUs := clampNat 2 50 (bits 15 8 v), size := if y.enable then y.size else clampNat 8 20 (bits 4 0 v) }
    if bit 31 v then { y with enable := true, prod := 0, cons := 0, spilling := false } else { y with enable := false })) s
  if bit 31 v then ringDrain p r (ringAt (partAt s p) r).waiting.length s else dropWaiting p r 9 s

/-- RING_ENABLE (R432, R441): a write of a ring's control register. -/
def execRingEnable (part : Part) (ring : Fin 8) (value : Word) (s : State) : Out :=
  .next (if fenced s part.val || decide (6 ≤ ring.val) then s else writeRingCtl part.val ring.val value s)

/-- MODERATION_DELAY (R435): the oldest entry written since the vector's last message is d_r old. -/
def execModerationDelay (part : Part) (ring : Fin 8) (s : State) : Out :=
  let y := ringAt (partAt s part.val) ring.val
  .next (if 0 < y.since ∧ y.oldestNs + y.delayUs * 1000 ≤ nowNs s then askVec part.val (ringVec ring.val) s else s)

/-- VECTOR_GAP_EXPIRE (R435): a held message is sent once its gap is over. -/
def execVectorGapExpire (part : Part) (vec : Fin 8) (s : State) : Out :=
  let x := partAt s part.val
  let y := vecAt x vec.val
  .next (if y.held && gapOver s x vec.val && !y.mask && fnActive x && !fenced s part.val then sendVec part.val vec.val s else s)

/-- A vector unmasked: what pends is sent, subject to the gap. -/
def unmaskVec (p v : Nat) (s : State) : State :=
  let y := vecAt (partAt s p) v
  let s := modPart p (modVec v (fun z => { z with mask := false })) s
  if y.mask && y.pend then askVec p v s else s

/-- MSIX_UNMASK (R435). -/
def execMsixUnmask (part : Part) (vec : Fin 8) (s : State) : Out := .next (unmaskVec part.val vec.val s)

/-- FUNCTION_POWER_STATE (R426): D3hot and Bus Master Enable of a function; an inactive function's waiting records are discarded. -/
def execFunctionPowerState (fn : Nat) (d3hot busMaster : Bool) (s : State) : Out :=
  .next (if 1024 ≤ fn || !fnExists s fn || !s.power.pcieUp then s
    else
      let s := modPart fn (fun x => { x with d3hot, busMaster }) s
      if fnActive (partAt s fn) then s else dropRings fn 9 s)

/-- VF_ENABLE (R423): VF Enable set, or NumVFs raised: functions 1 to num exist. -/
def execVfEnable (num : Nat) (s : State) : Out :=
  .next (if s.dev.numVfs < num ∧ num ≤ 1023 ∧ s.power.pcieUp = true then { s with dev := { s.dev with numVfs := num } } else s)

/-- The partitions whose functions go when NumVFs falls to a number, those that the image defines or the state knows. -/
def lostVfs (s : State) (num : Nat) : List Nat :=
  (partsKnown s s.st.running s.st.running).filter (fun p => decide (num < p) && decide (p ≤ s.dev.numVfs))

/-- The configuration-space effects of an FLR on one function (R438, R443): power state, Bus Master Enable and MSI-X as PCIe resets them. -/
def flrConfig (p : Nat) (s : State) : State := modPart p (fun x => { x with d3hot := false, busMaster := false, vecs := [] }) s

/-- NumVFs lowered: the functions above it go, and their partitions are reset (R423, R438). -/
def lowerVfs (num : Nat) (s : State) : State :=
  let ps := lostVfs s num
  ps.foldl (fun s p => startReset p (flrConfig p s)) { s with dev := { s.dev with numVfs := min num s.dev.numVfs } }

/-- VF_DISABLE (R438): VF Enable cleared (num 0) or NumVFs lowered to num. -/
def execVfDisable (num : Nat) (s : State) : Out := .next (if s.power.pcieUp then lowerVfs num s else s)

end Sys2Proof.Machine
end

