-- ==== Sys2Proof/Machine/Reset.lean ====
section
/-!
DEFINITION. The partition reset (R438 to R441) and what starts it.
-/

namespace Sys2Proof.Machine

open Sys2Proof

/-- RESET_REQUEST (R438): a write of PRT_RESET.request in an operator or installer session. -/
def execResetRequest (path : Path) (part : Part) (s : State) : Out :=
  .next (command path operatorRights 0x0032 part.val id (startReset part.val) s)

/-- FLR (R438): the reset of a function's partition; that of the PF takes VF Enable, and with it every VF's partition. -/
def execFlr (fn : Nat) (s : State) : Out :=
  .next (if 1024 ≤ fn || !fnExists s fn || !s.power.pcieUp then s
    else
      let s := startReset fn (flrConfig fn s)
      if fn = 0 then lowerVfs 0 s else s)

/-- The retained slices of a partition, those on the slow path and those in the pipelines, answered with source 7; its pallets and their leases
gone (step 2, R36, R439). -/
def abortSlices (part : Part) (s : State) : State :=
  let s := s.pdies.foldl (answerPinned (fun st => dPart st.s.desc == part) 7 7) s
  let mine := s.pdies.flatMap (fun x => (x.2.inflight.filter (fun q => q.2.part == part)).map (fun q => (x.1, q.1)))
  let s := mine.foldl (fun s q => dropPalletLeases (Fin.ofNat 4 q.1) q.2 s) s
  { s with pdies := mapAll (fun (x : PDie) => { x with open_ := x.open_.filter (fun q => q.part != part),
                                                       inflight := x.inflight.filter (fun q => q.2.part != part) }) s.pdies }

/-- The sequence work of a partition discarded (R345). -/
def abortSequences (part : Part) (s : State) : State :=
  let s := dropTokens (fun t => t.part == part) s
  { s with sdies := mapAll (fun (x : SDie) => { x with
      seqPallets := x.seqPallets.filter (fun q => q.part != part),
      ctxs := mapAll (fun (c : SeqContext) => if c.part == part then { c with busy := false, queue := [] } else c) x.ctxs }) s.sdies }

/-- RESET_DRAIN_COMPLETE (R439, steps 2 and 3): what is in flight is aborted, a DRAINING epoch retires, pending bits, PRT_VF_INT_STATUS, moderation
and timers are cleared, waiting records are discarded. Step 4 starts. -/
def execResetDrainComplete (part : Part) (s : State) : Out :=
  let p := part.val
  .next (if (partAt s p).resetStep.val ≠ 2 then s
    else
      let s := abortSequences part (abortSlices part s)
      let s := match drainingEpoch s p with
        | some e => modEpoch p e.num (fun x => { x with st := .retired, inflight := 0 }) s
        | none => s
      let s := dropRings p 12 (broadcastTc p s)
      modPart p (fun x => { x with
        resetStep := 4, badDoorbell := false, eventLost := false, ringNew := 0,
        rings := mapAll (fun (y : RingSt) => { y with since := 0, spilling := false }) x.rings,
        vecs := mapAll (fun (v : VecSt) => { v with pend := false, held := false, lastNs := none }) x.vecs }) s)

/-- Whether entries of the generation about to be used again remain in a hot or warm tier (R89). -/
def genHeld (s : State) (part : Part) : Bool :=
  let g := (partAt s part.val).gen + 1
  let old := fun (e : FlowEntry) => e.part == part && e.gen == g
  s.pdies.any (fun x => x.2.hot.any (fun b => b.2.pos.any (fun e => old e.2))) ||
  s.sdies.any (fun x => x.2.warm.any (fun b => b.2.any old) || x.2.demoting.any (fun d => old d.entry))

/-- The scratch of a partition zeroed, its cached lines invalid (R314). -/
def zeroScratch (part : Part) (s : State) : State :=
  (s.grants.filter (fun g => g.part == part && g.epoch == 0)).foldl (fun s g =>
    let i := bits 37 36 g.base
    let lo := bits 35 0 g.base
    modSdie i (fun x => { x with
      dram := memZero lo g.len x.dram,
      cache := mapAll (fun (l : List CacheLine) => l.filter (fun c => !(decide (lo / 256 ≤ c.line) && decide (c.line < (lo + g.len) / 256)))) x.cache }) s) s

/-- Step 4 (R37, R89, R174, R314, R318, R346, R439, R481, R522). -/
def resetState (part : Part) (s : State) : State :=
  let p := part.val
  let s := modPart p (fun x => { x with
    gen := x.gen + 1, stream := 0, rings := [], cnt := x.cnt.filter (fun c => c.1 == 11),
    badDoorbell := false, eventLost := false, ringNew := 0,
    fault := { x.fault with programHalts := 0, lastHalt := 0 } }) s
  let s := { s with obs := { s.obs with hists := mapDel (4 * p) (mapDel (4 * p + 1) (mapDel (4 * p + 2) s.obs.hists)) } }
  imageDrift p (imageRegs p (zeroScratch part s))

/-- RESET_RELEASE (R439, steps 4 and 5): the state is put back, unless R89 makes it wait; then the fence is lifted and RESET_DONE written. -/
def execResetRelease (part : Part) (s : State) : Out :=
  let p := part.val
  .next (if (partAt s p).resetStep.val ≠ 4 || genHeld s part then s
    else
      let n := min 0xFFFFFFFF (partAt s p).resetAnswered
      let s := modPart p (fun x => { x with resetStep := 0 }) (resetState part s)
      event p 9 n s)

end Sys2Proof.Machine
end

