-- ==== Sys2Proof/Machine/Roles.lean ====
section
/-!
DEFINITION. Keys, sessions, the privileged commands of the warden, the audit ring, attestation and JTAG (chapter 19).
-/

namespace Sys2Proof.Machine

open Sys2Proof

/-- The record of a VF: its commands do not reach the warden (R504, R506). -/
def onPath (p : Path) (f : State → State) (s : State) : State :=
  match p with
  | .vf _ => s
  | _ => f s

/-- A reply on a path. -/
def reply (path : Nat) (bytes : List Byte) (s : State) : State := { s with out := { s.out with replies := s.out.replies ++ [(path, bytes)] } }

/-- The whole device as the target of an audit record (R511). -/
def deviceTarget : Nat := 0xFFFFFFFF

/-! ### Sessions (R503 to R505) -/

/-- A path's session ends, with its record. -/
def endSession (p : Path) (s : State) : State :=
  match sessionOf s p with
  | some x =>
    let s := audit p 0x0003 x.slot 1 [] s
    { s with auth := { s.auth with sessions := mapDel (pathNum p) s.auth.sessions } }
  | none => s

/-- The role of a slot that can open a session (R501): 3 maker, 2 installer, 1 operator. -/
def slotRole (slot : Nat) : Nat := if slot = 0 then 3 else if slot ≤ 2 then 2 else 1

/-- Whether a slot is locked (R505). -/
def slotLocked (s : State) (slot : Nat) : Bool :=
  match mapFind slot s.auth.locked with
  | some t => decide (nowNs s < t)
  | none => false

/-- OPEN (R504, R505): a session still open ends; a slot that can open one, and is not locked, is challenged with a fresh nonce. -/
def execOpenSession (path : Path) (slot : BitVec 8) (nonce : BitVec 384) (s : State) : Out :=
  let k := pathNum path
  .next (onPath path (fun s =>
    if auditFull s then s
    else
      let s := endSession path s
      let s := { s with auth := { s.auth with challenges := mapDel k s.auth.challenges } }
      if 10 < slot.toNat || slotLocked s slot.toNat then s
      else reply k (beBytes 48 nonce.toNat) { s with auth := { s.auth with challenges := mapSet k (slot.toNat, nonce) s.auth.challenges } }) s)

/-- What the party signs (R504). -/
def challengeDigest (s : State) (slot path : Nat) (nonce : BitVec 384) : BitVec 384 :=
  sha384Word (beBytes 48 nonce.toNat ++ leBytes 8 s.dev.deviceId.toNat ++ leBytes 2 slot ++ [BitVec.ofNat 8 path] ++ leBytes 4 s.auth.count.toNat)

/-- A failed VERIFY: the third within 60 s locks its slot for 60 s (R505). -/
def failVerify (p : Path) (slot : Nat) (s : State) : State :=
  let s := audit p 0x0002 slot 4 [] s
  let ts := (mapGet [] s.auth.fails slot).filter (fun t => decide (nowNs s < t + 60000000000)) ++ [nowNs s]
  if 3 ≤ ts.length then
    audit p 0x0004 slot 1 [] { s with auth := { s.auth with fails := mapDel slot s.auth.fails,
                                                            locked := mapSet slot (nowNs s + 60000000000) s.auth.locked } }
  else { s with auth := { s.auth with fails := mapSet slot ts s.auth.fails } }

/-- VERIFY (R504, R505, R513): the signature over the challenge opens the session, or counts a failure. Either way the nonce is spent. -/
def execVerifySession (path : Path) (sig : BitVec 768) (s : State) : Out :=
  let k := pathNum path
  .next (onPath path (fun s =>
    if auditFull s then s
    else match mapFind k s.auth.challenges with
      | none => s
      | some (slot, nonce) =>
        let s := { s with auth := { s.auth with challenges := mapDel k s.auth.challenges } }
        if slotLocked s slot then s
        else match mapFind slot s.auth.keys with
          | none => failVerify path slot s
          | some pt =>
            if verifies pt (challengeDigest s slot k nonce) sig then
              let x : Session := { role := slotRole slot, slot, keyId := keyIdOf pt, lastNs := nowNs s }
              audit path 0x0001 slot 1 [] { s with auth := { s.auth with
                sessions := mapSet k x s.auth.sessions, count := s.auth.count + 1, fails := mapDel slot s.auth.fails } }
            else failVerify path slot s) s)

/-- CLOSE (R505). -/
def execCloseSession (path : Path) (s : State) : Out :=
  .next (onPath path (fun s => if auditFull s then s else endSession path s) s)

/-- SESSION_TIMEOUT (R505): 600 s without a command. -/
def execSessionTimeout (path : Path) (s : State) : Out :=
  .next (match sessionOf s path with
    | some x => if x.lastNs + 600000000000 ≤ nowNs s then endSession path s else s
    | none => s)

/-- SLOT_UNLOCK (R505): the 60 s of a lock are over. -/
def execSlotUnlock (slot : Fin 11) (s : State) : Out :=
  .next (match mapFind slot.val s.auth.locked with
    | some t => if t ≤ nowNs s then { s with auth := { s.auth with locked := mapDel slot.val s.auth.locked } } else s
    | none => s)

/-! ### Keys (R501 to R503, R508, R514) -/

/-- Whether a slot can be enrolled or emptied: 1 to 10 and the model keys (Table 1). -/
def keySlotOk (slot : Nat) : Bool :=
  (decide (1 ≤ slot) && decide (slot ≤ 10)) || (decide (16 ≤ slot) && decide (slot < 16 + 4 * 1024))

/-- Whether a block has a form of R514: its padding is zero. -/
def blockOk (b : KeyBlock) : Bool := b.point.length == 97 && b.padding.all (fun x => x == 0)

/-- Whether both installer slots are empty (R502). -/
def unclaimed (s : State) : Bool := (mapFind 1 s.auth.keys).isNone && (mapFind 2 s.auth.keys).isNone

/-- Sessions opened with a slot's key end (R503). -/
def endKeySessions (slot : Nat) (s : State) : State :=
  [Path.pf, Path.mctp].foldl (fun s p => match sessionOf s p with
    | some x => if x.slot = slot then endSession p s else s
    | none => s) s

/-- A key put into a slot. -/
def setKey (b : KeyBlock) (s : State) : State := { s with auth := { s.auth with keys := mapSet b.slot b.point s.auth.keys } }

/-- The detail of a record about a key: its slot and identifier. -/
def keyDetail (b : KeyBlock) : List Byte := leBytes 2 b.slot ++ leBytes 8 (keyIdOf b.point).toNat

/-- ENROL (R502, R507): a key into a slot of Table 1. What the slot held is removed, and its sessions end. -/
def execEnrol (path : Path) (block : KeyBlock) (s : State) : Out :=
  let ok := fun (_ : State) => keySlotOk block.slot && blockOk block
  .next (commandWith path installerRights 0x0011 block.slot ok (keyDetail block) id
    (fun s => if ok s then
        let same := mapFind block.slot s.auth.keys == some block.point
        setKey block (if same then s else endKeySessions block.slot s)
      else s) s)

/-- Whether a removal is accepted (R502): the slot holds the key, and it is not the last installer key. -/
def removeOk (b : KeyBlock) (s : State) : Bool :=
  keySlotOk b.slot && blockOk b && mapFind b.slot s.auth.keys == some b.point
  && !((b.slot == 1 && (mapFind 2 s.auth.keys).isNone) || (b.slot == 2 && (mapFind 1 s.auth.keys).isNone))

/-- REMOVE (R502, R503). -/
def execRemove (path : Path) (block : KeyBlock) (s : State) : Out :=
  .next (commandWith path installerRights 0x0012 block.slot (removeOk block) (keyDetail block) id
    (fun s => if removeOk block s then
        let s := endKeySessions block.slot s
        { s with auth := { s.auth with keys := mapDel block.slot s.auth.keys } }
      else s) s)

/-- Whether a claim is accepted (R502): an unclaimed device, an installer slot, a certificate of the maker root. -/
def claimOk (b : KeyBlock) (s : State) : Bool :=
  unclaimed s && (b.slot == 1 || b.slot == 2) && blockOk b
  && match mapFind 0 s.auth.keys with
    | some root => verifies root (sha384Word (leBytes 8 s.dev.deviceId.toNat ++ b.point)) b.cert
    | none => false

/-- CLAIM (R502): the first installer key, without a session. -/
def execClaim (path : Path) (block : KeyBlock) (s : State) : Out :=
  .next (onPath path (fun s =>
    if auditFull s then audit path 0x0010 block.slot 3 (keyDetail block) s
    else if claimOk block s then setKey block (audit path 0x0010 block.slot 0 (keyDetail block) s)
    else audit path 0x0010 block.slot 3 (keyDetail block) s) s)

/-! ### The audit ring (R512, R513) -/

/-- One record of the tail moved to the ring: the slot of its number; the chain value of a record that it overwrites becomes the anchor. -/
def ringAppend (r : List Byte) (s : State) : State :=
  let n := leNat ((r.drop 8).take 4)
  let slot := n % 16384
  let a := s.auth
  let anchor := match mapFind slot a.ring with
    | some old => BitVec.ofNat 128 (beNat (old.drop 48))
    | none => a.anchor
  { s with auth := { a with ring := mapSet slot r a.ring, anchor, ringNext := BitVec.ofNat 32 (n + 1),
                            ringChain := BitVec.ofNat 128 (beNat (r.drop 48)) } }

/-- The tail moved to the ring, and the records that waited for space written (R513). -/
def flushAudit (s : State) : State :=
  let s := s.auth.tail.foldl (fun s r => ringAppend r s) s
  let w := s.auth.waiting
  let s := { s with auth := { s.auth with tail := [], waiting := [] } }
  w.foldl (fun s x => auditRaw x.role x.path x.action x.keyId x.target x.result x.detail s) s

/-- AUDIT_FLUSH (R513): within 10 ms the tail moves to the MRAM ring. -/
def execAuditFlush (s : State) : Out := .next (flushAudit s)

/-- AUDIT_CHECKPOINT (R513): head seq and chain(head - 1), signed with the attestation key (a signature of 96 bytes, free), and itself recorded. -/
def execAuditCheckpoint (path : Path) (s : State) : Out :=
  .next (command path 14 0x0070 deviceTarget id (fun s =>
    let sig := freeBytes 96 s
    reply (pathNum path) (leBytes 4 s.auth.head.toNat ++ beBytes 16 s.auth.chain.toNat ++ sig.1) sig.2) s)

/-! ### Commands on counters, units and tables (R203, R507) -/

/-- The latency histograms of a partition cleared (R522). -/
def clearLatency (p : Nat) (s : State) : State :=
  { s with obs := { s.obs with hists := mapDel (4 * p) (mapDel (4 * p + 1) (mapDel (4 * p + 2) s.obs.hists)) } }

/-- The counters that a clear names (log 42): a P-die (0 to 3), an L-die (4 to 7), an S-die (8 to 11), the warden (12), a partition p
(16 + p), the histograms of a partition p (1040 + p). -/
def clearCounters (which : Nat) (s : State) : State :=
  if which < 4 then modPdie which (fun x => { x with cnt := [] }) s
  else if which < 8 then modLdie (which - 4) (fun x => { x with cnt := [] }) s
  else if which < 12 then modSdie (which - 8) (fun x => { x with cnt := [] }) s
  else if which = 12 then { s with flt := { s.flt with cnt := [] } }
  else if 16 ≤ which ∧ which < 1040 then modPart (which - 16) (fun x => { x with cnt := [] }) s
  else if 1040 ≤ which ∧ which < 2064 then clearLatency (which - 1040) s
  else s

/-- COUNTER_CLEAR (R507): over MCTP. -/
def execCounterClear (path : Path) (which : Nat) (s : State) : Out :=
  .next (if path = .mctp then
      commandWith path operatorRights 0x0031 which (fun _ => decide (which < 13) || (decide (16 ≤ which) && decide (which < 2064))) [] id
        (clearCounters which) s
    else s)

/-- A retest that the installer asks for: as R476 does it, without a disagreement. -/
def requestRetest (kind : Nat) (unit : Word) (s : State) : State :=
  if !inService s kind unit then s
  else
    let s := faultRecord kind 4 0 1 unit 0xFFFF 0 0 s
    let s := faultRecord kind 4 0 2 unit 0xFFFF 0 0 (unitTo kind unit .covered (fenceUnit kind unit s))
    { s with flt := { s.flt with retests := s.flt.retests ++ [unitKey kind unit] } }

/-- A retirement that the installer asks for: pointed as a lasting fault would be, without counting one. -/
def requestRetire (kind : Nat) (unit : Word) (s : State) : State :=
  if !inService s kind unit then s
  else
    let t := pointUnit kind unit 0 0 s
    { t with flt := { t.flt with cnt := match mapFind 1 s.flt.cnt with
                | some n => mapSet 1 n t.flt.cnt
                | none => mapDel 1 t.flt.cnt },
             dev := { t.dev with intStatus := (t.dev.intStatus &&& 0x2F) ||| (s.dev.intStatus &&& 0x10) } }

/-- REPAIR_REQUEST (R507): the installer has a unit retested or retired. -/
def execRepairRequest (path : Path) (unit : Nat) (retire : Bool) (s : State) : Out :=
  let kind := unit / 2 ^ 32
  let u : Word := BitVec.ofNat 32 unit
  .next (commandWith path installerRights 0x0043 u.toNat (fun s => decide (kind < 14) && inService s kind u) [BitVec.ofNat 8 (b2n retire)] id
    (fun s => if 14 ≤ kind then s else if retire then requestRetire kind u s else requestRetest kind u s) s)

/-- REPAIR_OVERRIDE (R203, R507): the maker changes the repair map; the next start-up applies it. -/
def execRepairOverride (path : Path) (unit : Nat) (retire : Bool) (s : State) : Out :=
  .next (commandWith path 8 0x0050 (unit % 2 ^ 32) (fun _ => decide (unit < 14 * 2 ^ 32)) [BitVec.ofNat 8 (b2n retire)] id
    (fun s => if 14 * 2 ^ 32 ≤ unit then s
      else repaired { s with flt := { s.flt with overrides := s.flt.overrides.filter (fun q => q.1 != unit) ++ [(unit, retire)] } }) s)

/-- CALIB_WRITE (R507): the maker writes a calibration table. -/
def execCalibWrite (path : Path) (index : Nat) (value : Word) (s : State) : Out :=
  .next (command path 8 0x0051 deviceTarget id (fun s => { s with auth := { s.auth with calib := mapSet index value s.auth.calib } }) s)

/-! ### Attestation (R510) -/

/-- An SPDM response: version 1.2 and its code. -/
def spdmReply (path : Path) (code : Nat) (body : List Byte) (s : State) : State :=
  reply (pathNum path) ([0x12, BitVec.ofNat 8 code, 0, 0] ++ body) s

/-- An SPDM request that comes out of its order is answered by ERROR (UnexpectedRequest). -/
def spdmAt (path : Path) (least : Nat) (f : State → State) (s : State) : State :=
  onPath path (fun s => if mapGet 0 s.auth.spdm (pathNum path) < least then reply (pathNum path) [0x12, 0x7F, 0x04, 0] s else f s) s

/-- How far a path has negotiated. -/
def spdmTo (path : Path) (n : Nat) (s : State) : State := { s with auth := { s.auth with spdm := mapSet (pathNum path) n s.auth.spdm } }

/-- GET_VERSION (R510): SPDM 1.2; negotiation starts anew. -/
def execSpdmGetVersion (path : Path) (s : State) : Out :=
  .next (spdmAt path 0 (fun s => spdmReply path 0x04 [0, 1, 0, 0x12] (spdmTo path 1 s)) s)

/-- GET_CAPABILITIES (R510). -/
def execSpdmGetCapabilities (path : Path) (s : State) : Out :=
  .next (spdmAt path 1 (fun s =>
    let b := freeBytes 16 s
    spdmReply path 0x61 b.1 (spdmTo path 2 b.2)) s)

/-- NEGOTIATE_ALGORITHMS (R510): ECDSA P-384 and SHA-384 and nothing else. -/
def execSpdmNegotiateAlgorithms (path : Path) (s : State) : Out :=
  .next (spdmAt path 2 (fun s => spdmReply path 0x63 (leBytes 4 0x80 ++ leBytes 4 0x02) (spdmTo path 3 s)) s)

/-- GET_DIGESTS (R510): the digest of the certificate chain. -/
def execSpdmGetDigests (path : Path) (s : State) : Out :=
  .next (spdmAt path 3 (fun s =>
    let b := freeBytes 48 s
    spdmReply path 0x01 b.1 b.2) s)

/-- GET_CERTIFICATE (R510): the chain from the maker root to the attestation key. -/
def execSpdmGetCertificate (path : Path) (s : State) : Out :=
  .next (spdmAt path 3 (fun s =>
    let b := freeBytes 1024 s
    spdmReply path 0x02 b.1 b.2) s)

/-- CHALLENGE (R510): signed with the attestation key. -/
def execSpdmChallenge (path : Path) (s : State) : Out :=
  .next (spdmAt path 3 (fun s =>
    let b := freeBytes 144 s
    spdmReply path 0x03 b.1 b.2) s)

/-- GET_MEASUREMENTS (R510, Table 3): five blocks; block 3 is SHA-384 over the running structure image's signature, and the digests of what the
specification gives no byte layout are free. -/
def execSpdmGetMeasurements (path : Path) (s : State) : Out :=
  .next (spdmAt path 3 (fun s =>
    let b := freeBytes 192 s
    let sig := freeBytes 96 b.2
    let m3 := if s.power.structValid then sha384 (beBytes 96 s.st.storedSig.toNat) else List.replicate 48 0
    let blocks := [b.1.take 48, (b.1.drop 48).take 48, m3, (b.1.drop 96).take 48, b.1.drop 144]
    let body := (blocks.zipIdx).flatMap (fun x => [BitVec.ofNat 8 (x.2 + 1)] ++ x.1)
    spdmReply path 0x60 (body ++ sig.1) sig.2) s)

/-! ### JTAG (R509) -/

/-- A JTAG instruction selected. -/
def setJtag (n : Fin 5) (s : State) : State := { s with auth := { s.auth with jtag := n } }

/-- BYPASS (R509): the one-bit bypass register is selected. -/
def execJtagBypass (s : State) : Out := .next (setJtag 0 s)

/-- IDCODE (R509): the device identification register is selected and shifted out. -/
def execJtagIdcode (s : State) : Out := .next (reply 2 (leBytes 4 Config.idcode.toNat) (setJtag 1 s))

/-- SAMPLE/PRELOAD (R509): the boundary register captures the balls; its layout is not stated. -/
def execJtagSamplePreload (s : State) : Out :=
  let b := freeBytes 64 s
  .next (reply 2 b.1 (setJtag 2 b.2))

/-- EXTEST (R509): the balls are driven and the data path stops: a fault of every die, and no READY until PORST_N. -/
def execJtagExtest (s : State) : Out :=
  let s := setJtag 3 s
  .next (if s.power.extest then s
    else
      let cs := List.range (cdieCount s)
      let ds := List.range 4
      let s := cs.foldl (fun s c => faultRecord 2 1 0 1 (dieUnit 0 c) 0xFFFF 0 0 (fenceUnit 2 (dieUnit 0 c) s)) s
      let s := ds.foldl (fun s p => faultRecord 3 1 0 1 (dieUnit 1 p) 0xFFFF 0 0 (fenceUnit 3 (dieUnit 1 p) s)) s
      let s := ds.foldl (fun s i => faultRecord 10 1 0 1 (dieUnit 4 i) 0xFFFF 0 0 (fenceUnit 10 (dieUnit 4 i) s)) s
      let s := ds.foldl (fun s l =>
        let s := (rangeFrom (16 * l) 16).foldl (fun s p => if (portAt s p).st.val = 0 then s else portDown p s) s
        let s := modLdie l (fun q => { q with elastic := [], ledger := [], lost := true }) s
        faultRecord 13 1 0 1 (dieUnit 3 l) 0xFFFF 0 0 s) s
      let s := [0, 1].foldl (fun s w => faultRecord 12 1 0 0 (dieUnit 5 w) 0xFFFF 0 0 s) s
      { s with power := { s.power with extest := true, ready := false, running := false, activating := false } })

/-- Whether a private JTAG instruction works (R509): the MAKER_EN strap and an open maker session, whose path is the answer. -/
def jtagSession (s : State) : Option Path :=
  if s.auth.makerEn then [Path.pf, Path.mctp].find? (fun p => roleOf s p == 3) else none

/-- JTAG_PRIVATE (R507, R509, R511): an instruction that reaches the debug windows; what it reads there is free. -/
def execJtagPrivate (code : Nat) (s : State) : Out :=
  let detail := leBytes 4 code
  .next (match jtagSession s with
    | some p =>
      let key := ((sessionOf s p).map (fun x => x.keyId)).getD 0
      if auditFull s then auditRaw 3 2 0x0052 key deviceTarget 3 detail s
      else
        let s := auditRaw 3 2 0x0052 key deviceTarget 0 detail (touchSession p s)
        let b := freeBytes 8 s
        reply 2 b.1 (setJtag 4 b.2)
    | none =>
      let due := match mapFind 2 s.auth.lastRefused with
        | some t => decide (t + 1000000 ≤ nowNs s)
        | none => true
      if due then
        let s := auditRaw 4 2 0x0052 0 deviceTarget 2 detail s
        { s with auth := { s.auth with lastRefused := mapSet 2 (nowNs s) s.auth.lastRefused } }
      else { s with auth := { s.auth with suppressed := if s.auth.suppressed = 255 then 255 else s.auth.suppressed + 1 } })

end Sys2Proof.Machine
end

