-- ==== Sys2Proof/Machine/Kiln.lean ====
section
/-!
DEFINITION. The kiln, the hold-up sequence, firmware activation and the control pins (chapters 18 and 22).
-/

namespace Sys2Proof.Machine

open Sys2Proof

/-! ### What a loss of power leaves (R485, R495, R496) -/

/-- One override of the repair map applied (R203): a unit retired, or returned. -/
def applyOverride (q : Nat × Bool) (s : State) : State :=
  let kind := q.1 / 2 ^ 32
  let u : Word := BitVec.ofNat 32 q.1
  let n := unitCdie u
  let b := n * 16 + unitBrick u
  let s := modUnit q.1 (fun x => { x with st := if q.2 then .retired else .inService }) s
  let f := s.flt
  match kind with
  | 0 => { s with flt := { f with retiredBricks := f.retiredBricks.filter (fun k => k != b) ++ (if q.2 then [b] else []) } }
  | 1 =>
    let m := mapGet 0 f.retiredGroups b
    let g := 1#16 <<< (unitLow u % 16)
    { s with flt := { f with retiredGroups := mapSet b (if q.2 then m ||| g else m &&& ~~~g) f.retiredGroups } }
  | 2 =>
    let courses := match courseOf s n with
      | some k => if q.2 then mapSet k none f.courses else f.courses
      | none => if !q.2 && mapFind n f.courses == some none then mapDel n f.courses else f.courses
    { s with flt := { f with retiredCdies := f.retiredCdies.filter (fun k => k != n) ++ (if q.2 then [n] else []), courses } }
  | 6 => if q.2 then modLane (n % 4) (bits 15 8 u.toNat) (fun x => { x with role := 2 }) s
    else { s with link := { s.link with lanes := mapDel (laneKey (n % 4) (bits 15 8 u.toNat)) s.link.lanes } }
  | 9 =>
    let ch := bits 15 8 u.toNat % 32
    modSdie (n % 4) (fun x => { x with retiredCh := x.retiredCh.filter (fun k => k != ch) ++ (if q.2 then [ch] else []) }) s
  | _ => s

/-- Whether the repair map retires a unit for good. -/
def unitRetired (s : State) (kind : Nat) (unit : Word) : Bool := (unitAt s (unitKey kind unit)).st == .retired

/-- The block without the power of its dies: MRAM (keys, audit ring, firmware, calibration, the fault ring, the repair map, the stored image,
the critical record) and the audit tail are kept, with the wall counter; everything else is at its reset value. -/
def coldState (s : State) : State :=
  let s := s.flt.overrides.foldl (fun s q => applyOverride q s) s
  let f := s.flt
  let p := s.power
  let four := List.range 4
  let kept := s.flt.courses.filterMap (fun c => c.2.map (fun (j : Fin 18) => j.val))
  { pdies := four.map (fun i => (i,
      ({ lost := unitRetired s 3 (dieUnit 1 i), macroSpares := (pdieAt s i).macroSpares,
         bankSpares := (pdieAt s i).bankSpares, badBanks := (pdieAt s i).badBanks } : PDie)))
    ldies := four.map (fun i => (i, ({ lost := unitRetired s 13 (dieUnit 3 i) } : LDieQ)))
    sdies := four.map (fun i => (i, ({ lost := unitRetired s 10 (dieUnit 4 i), retiredCh := (sdieAt s i).retiredCh } : SDie)))
    models := p.savedNums.map (fun n => (n.1, ({ lastNum := n.2.2 } : ModelSt)))
    link := { lanes := mapAll (fun (l : LaneSt) => { l with locked := false, swapFor := none })
                (s.link.lanes.filter (fun l => decide (2 ≤ l.2.role.val))) }
    st := { stored := s.st.stored, storedId := s.st.storedId, storedSig := s.st.storedSig, restartPending := s.st.restartPending }
    power := { vauxOk := p.vauxOk, pcieUp := p.pcieUp, held := p.held, off := p.off, recordOk := p.recordOk,
               recordIncomplete := p.recordIncomplete, lastCause := p.lastCause, crit := p.crit, critGen := p.critGen,
               savedNums := p.savedNums }
    auth := { keys := s.auth.keys, count := s.auth.count, tail := s.auth.tail, ring := s.auth.ring,
              head := s.auth.head, chain := s.auth.chain, anchor := s.auth.anchor, ringNext := s.auth.ringNext, ringChain := s.auth.ringChain,
              makerEn := s.auth.makerEn, smbAddr := s.auth.smbAddr, fwCurrent := s.auth.fwCurrent, fwPrevious := s.auth.fwPrevious,
              fwStaged := s.auth.fwStaged, calib := s.auth.calib, jtag := s.auth.jtag }
    time := { now := s.time.now, wall := s.time.wall }
    flt := { records := f.records, head := f.head, units := mapAll (fun (_ : UnitSt) => { st := .retired }) (f.units.filter (fun u => u.2.st == .retired)),
             repairGen := f.repairGen, retiredGroups := f.retiredGroups, retiredBricks := f.retiredBricks, courses := f.courses,
             sparesUsed := f.sparesUsed.filter (fun j => kept.contains j), retiredCdies := f.retiredCdies }
    dev := { grade := s.dev.grade, vendor := s.dev.vendor, revision := s.dev.revision, serial := s.dev.serial }
    out := s.out
    freeIx := s.freeIx
    pending := s.pending }

/-- The audit tail lost: the next record follows the last one of the ring. -/
def loseTail (s : State) : State :=
  { s with auth := { s.auth with tail := [], waiting := [], head := s.auth.ringNext, chain := s.auth.ringChain } }

/-! ### The start of the kiln (R482, R496, R549) -/

/-- Whether nothing holds the kiln back: it does not run, the device is not in service, no hold-up runs, PORST_N and VAUX allow it. -/
def mayStart (s : State) : Bool :=
  let p := s.power
  !p.running && !p.ready && p.holdup.isNone && !p.held && p.vauxOk && !p.extest

/-- Phase K0 starts (T0). -/
def beginKiln (s : State) : State :=
  let s := coldState s
  { s with power := { s.power with running := true, off := false, kilnNs := nowNs s } }

/-- KILN_START (R482): VPRI comes into range, or PORST_N is released, the later of the two. After a hold-up R496 says when the kiln starts. -/
def execKilnStart (s : State) : Out := .next (if mayStart s && !s.power.off then beginKiln s else s)

/-- KILN_RESTART (R496): VPRI has been in range for 100 ms after a hold-up that was not a shutdown. -/
def execKilnRestart (s : State) : Out := .next (if mayStart s && s.power.off then beginKiln s else s)

/-- A kiln error (R484, Table 2): READY is never asserted; the warden goes on answering. -/
def kilnFail (e : Fin 16) (s : State) : State := raiseInt 0 { s with power := { s.power with running := false, error := e } }

/-- The next phase. -/
def nextPhase (s : State) : State := { s with power := { s.power with phase := s.power.phase + 1 } }

/-! ### The phases (Table 1) -/

/-- K0: the W-dies boot; the critical record is read and its audit tail appended to the ring. -/
def kilnK0 (o : KilnOutcome) (s : State) : State :=
  if o.wdies = 0 then
    let s := kilnFail 2 s
    { s with dev := { s.dev with mgmtInt := true } }
  else
    let s := { s with flt := { s.flt with standbyOk := decide (o.wdies = 3), activeW := !o.wdies.getLsbD 0 },
                      power := { s.power with critView := s.power.crit } }
    nextPhase (flushAudit s)

/-- The firmware that K1 finds to run: an updated image is the current bank. -/
def bootBanks (a : AuthSt) : AuthSt :=
  match a.fwStaged with
  | some v => { a with fwPrevious := a.fwCurrent, fwCurrent := v, fwStaged := none }
  | none => a

/-- K1: firmware verified, current bank then previous; the stored structure image verified and applied in full (R387). -/
def kilnK1 (o : KilnOutcome) (s : State) : State :=
  if !o.currentFw && !o.previousFw then kilnFail 1 s
  else
    let s := { s with auth := if o.currentFw then bootBanks s.auth else s.auth,
                      power := { s.power with fwFallback := !o.currentFw }, dev := { s.dev with deviceId := o.deviceId } }
    let ok := o.structOk && s.st.stored.isSome
    let s := { s with st := { s.st with running := if ok then s.st.stored.getD {} else {}, restartPending := false },
                      power := { s.power with structValid := ok } }
    nextPhase s

/-- The units that fail in K2 to K5 pointed (Table 2), with the dies that no longer work. -/
def pointFailed (o : KilnOutcome) (s : State) : State :=
  let gone := fun (kind dk : Nat) (m : BitVec 4) => ((List.range 4).filter (fun i => !m.getLsbD i)).map (fun i => (kind, dieUnit dk i))
  let us := o.failed ++ gone 3 1 o.workingPdies ++ gone 13 3 o.workingLdies ++ gone 10 4 o.workingSdies
  us.foldl (fun s u =>
    if u.1 < 14 ∧ inService s u.1 u.2 = true then
      pointUnit u.1 u.2 11 0 { s with power := { s.power with degraded := true } }
    else s) s

/-- The islands calibrated (K2): their clocks, their voltage offsets, and the droops that the calibration allows (free). -/
def calibrate (s : State) : State :=
  let b := effectiveBound s 1 0
  (List.range (cdieCount s)).foldl (fun s c =>
    let f := takeFree s
    let s := setClock c (clampClock s 1000) f.2
    { s with loops := { s.loops with volts := mapSet c (clampNat b.1 b.2 0) s.loops.volts,
                                     droopCal := mapSet c (f.1.toNat % 256) s.loops.droopCal } }) s

/-- Whether a measurement arms the hold-up (R499). -/
def armsHoldup (cap10uf esrMohm vholdMv : Nat) : Bool := decide (0x14A ≤ cap10uf) && decide (esrMohm ≤ 20) && decide (10000 ≤ vholdMv)

/-- A measurement of the hold-up capacitor. -/
def measured (cap10uf esrMohm vholdMv : Nat) (s : State) : State :=
  { s with power := { s.power with cap10uf := min 0xFFFF cap10uf, esr := min 255 esrMohm, armed := armsHoldup cap10uf esrMohm vholdMv } }

/-- K2: calibration and the hold-up test. -/
def kilnK2 (o : KilnOutcome) (s : State) : State :=
  let s := pointFailed o (calibrate (measured o.cap10uf o.esrMohm o.vholdMv s))
  if s.power.armed then nextPhase s else kilnFail 3 s

/-- The error of a device with no P-die, no L-die or no S-die left (Table 2). -/
def dieError (s : State) : Option (Fin 16) :=
  if (List.range 4).all (fun i => (pdieAt s i).lost) then some 5
  else if (List.range 4).all (fun i => (ldieAt s i).lost) then some 6
  else if (List.range 4).all (fun i => (sdieAt s i).lost) then some 7
  else none

/-- The reset value of a brick at K3 (R247, R485), with its array as the repair map leaves it. -/
def freshBrick (s : State) (b : Nat) : BrickSt :=
  let c := b / 16
  let mask := mapGet 0 s.flt.retiredGroups b
  let n := ((List.range 16).filter (fun g => mask.getLsbD g)).length
  let layout := match courseOf s c with
    | some k => decide (s.st.running.layout.getD (k * 16 + b % 16) 0 = 1)
    | none => false
  let gone := s.flt.retiredBricks.contains b || s.flt.retiredCdies.contains c
  { arr := { layout, colMask := ~~~mask, retired := Fin.ofNat 4 n, state := if 3 ≤ n then 2 else 0 }
    c := { phase := if gone then .retired else .reset, wdogLimitUs := clampNat 1 15 s.st.running.device.wdogUs,
           resetDone := s.power.kilnNs + 4000000000000 } }

/-- Every brick of the grade as K3 leaves it. -/
def initBricks (s : State) : State :=
  (List.range (cdieCount s)).foldl (fun s c => (courseBricks c).foldl (fun s b => putBrick b (freshBrick s b) s) s) s

/-- The seed of a P-die's LFSR (R76). -/
def lfsrSeed (s : State) (i : Nat) : Word :=
  let w : Word := BitVec.ofNat 32 (leNat ((sha384 (leBytes 8 s.dev.serial.toNat ++ [BitVec.ofNat 8 i])).take 4))
  if w = 0 then 1 else w

/-- K3: memory initialised, registers at their reset values, LFSRs seeded. -/
def kilnK3 (o : KilnOutcome) (s : State) : State :=
  let s := initBricks s
  let s := (List.range 4).foldl (fun s i =>
    let s := modPdie i (fun x => { x with lfsr := lfsrSeed s i, slowBucket := { level := 4096000, atNs := nowNs s } }) s
    modSdie i (fun x => { x with hbmReady := true, sramReady := true, pinnedMib := s.st.running.device.pinnedMib }) s) s
  nextPhase (pointFailed o { s with power := { s.power with k3done := true } })

/-- K4: the lanes are calibrated; enabled ports with a signal enter TRAINING (R399). -/
def kilnK4 (o : KilnOutcome) (s : State) : State :=
  let s := nextPhase (pointFailed o s)
  s.st.running.ports.foldl (fun s c =>
    let x := portAt s c.port.val
    if x.signal && x.st == 0 && !(ldieAt s (ldieOfPort c.port.val)).lost then startTraining c.port.val c s else s) s

/-- Courses without a C-die taken by spares that passed K5, with no cover (R487). -/
def assignSpares (s : State) : State :=
  let s := s.flt.rehoming.foldl (fun s q => { s with flt := { s.flt with courses := mapSet q.2.val (some q.1) s.flt.courses } }) s
  let s := { s with flt := { s.flt with rehoming := [] } }
  (List.range (gradeBricks s / 16)).foldl (fun s k =>
    if (physCdie s k).isNone then
      match sparesFree s with
      | j :: _ => { s with flt := { s.flt with courses := mapSet k (some (Fin.ofNat 18 j)) s.flt.courses, sparesUsed := s.flt.sparesUsed ++ [j] } }
      | [] => s
    else s) s

/-- The bricks of the courses IDLE, the spares powered down (R487). -/
def endK5 (s : State) : State :=
  (List.range (cdieCount s)).foldl (fun s c =>
    match courseOf s c with
    | some k => (courseBricks c).foldl (fun s b => modBrick b (fun x =>
        { x with c := { x.c with phase := if x.c.phase == .retired then .retired else .idle },
                 arr := { x.arr with layout := decide (s.st.running.layout.getD (k * 16 + b % 16) 0 = 1), state := if x.arr.state = 1 then 0 else x.arr.state } }) s) s
    | none =>
      let s := { s with loops := { s.loops with clocks := mapDel c s.loops.clocks } }
      (courseBricks c).foldl (fun s b => modBrick b (fun x =>
        { x with c := { x.c with phase := if x.c.phase == .retired then .retired else .off } }) s) s) s

/-- K5: the array self-test and the proving run. -/
def kilnK5 (o : KilnOutcome) (s : State) : State := nextPhase (endK5 (assignSpares (pointFailed o s)))

/-- A brick's capability hash written, and its valid code regions stamped with it (R282). -/
def stampBrick (h : Word) (x : BrickSt) : BrickSt :=
  { x with c := { x.c with capHash := h },
           regions := x.regions.map (fun (r : Region) => if r.valid then { r with stamp := h } else r) }

/-- A brick's hash computed anew, unless the brick is off or retired. -/
def capsBrick (s : State) (x : BrickSt) : BrickSt :=
  if x.c.phase == .off || x.c.phase == .retired then x else stampBrick (capHashOf s x) x

/-- The capability records written anew, with the stamps of translated code (R282). -/
def writeCaps (s : State) : State := capsChanged { s with bricks := mapAll (capsBrick s) s.bricks }

/-- The translation of the slow-path program (Table 2): refused, slow-path slices take source 5 and ST_XLATE is recorded. -/
def slowProgram (o : KilnOutcome) (s : State) : State :=
  if o.slowRefusal = 0 ∨ s.st.running.slowpath.isNone = true then { s with st := { s.st with slowRefused := false } }
  else setXlate 0 o.slowRefusal.toNat 0 0 0 0 { s with st := { s.st with slowRefused := true, code := 0x0D } }

/-- K6: the repair map applied, capability records and hashes, the slow-path program translated. -/
def kilnK6 (o : KilnOutcome) (s : State) : State :=
  nextPhase (slowProgram o (writeCaps { s with dev := { s.dev with xlateRev := BitVec.ofNat 32 s.auth.fwCurrent } }))

/-- The credits that ports in TRAINING will name in their INIT, and those owed to partners that are UP (R483). -/
def grantCredits (s : State) : State :=
  let s := { s with link := { s.link with ports := mapAll (fun (x : PortSt) =>
    if x.st = 1 then { x with granted := x.owed.foldl (fun m (g : Nat × Nat) => mapSet g.1 g.2 m) x.granted, owed := [] } else x) s.link.ports } }
  s.st.running.feeds.feeds.foldl (fun s c => returnCredits c s) s

/-- K7: structure epoch 1; PARTITIONS, FEEDS and BOND committed; SLICE credits granted; READY. -/
def kilnK7 (s : State) : State :=
  let s := { s with st := { s.st with epoch := 1, contents := [(1, s.st.running)] },
                    dev := { s.dev with lastTc := s.time.wall, lastKind := 1, lastPart := 0 },
                    obs := { s.obs with ringOn := s.st.running.device.traceOn } }
  let s := (partsKnown s s.st.running s.st.running).foldl (fun s p => imageDrift p (imageRegs p s)) s
  let s := resteer (writeSteer s.st.running.flowGeom.steer s)
  let ms := (nowNs s - s.power.kilnNs) / 1000000
  let s := { s with power := { s.power with running := false, ready := true, readyMs := min 0xFFFF ms } }
  auditDevice 0x0062 deviceTarget 1 [] (grantCredits s)

/-! ### Activation (R488) -/

/-- The activation's K1: the standby boots the new firmware and takes over; the targets of every partition go until its code is back. -/
def activateK1 (o : KilnOutcome) (s : State) : State :=
  if o.currentFw then
    let s := { s with auth := bootBanks s.auth, dev := { s.dev with deviceId := o.deviceId } }
    let s := if s.flt.standbyOk then
        auditDevice 0x0061 deviceTarget 1 [BitVec.ofNat 8 (1 - b2n s.flt.activeW)] (raiseInt 5
          { s with flt := { s.flt with activeW := !s.flt.activeW }, auth := { s.auth with sessions := [], challenges := [], sig := [] } })
      else s
    coverAll { s with power := { s.power with phase := 6, fwFallback := false } }
  else
    auditDevice 0x0046 deviceTarget 4 [] { s with power := { s.power with activating := false, fwFallback := true } }

/-- The activation's K6: new capability records, every resident image translated again with figures of its own (free). -/
def activateK6 (o : KilnOutcome) (s : State) : State :=
  let s := slowProgram o (writeCaps { s with dev := { s.dev with xlateRev := BitVec.ofNat 32 s.auth.fwCurrent },
                                             power := { s.power with activating := false } })
  let s := s.models.foldl (fun s m =>
    if m.2.epochs.isEmpty then s
    else
      let r := takeFrees 2 s
      setXlate m.1 0 0 0 ((r.1.getD 0 0).toNat % 65536) ((r.1.getD 1 0).toNat % 8193) r.2) s
  auditDevice 0x0046 deviceTarget 1 [] (coverAll s)

/-- KILN_PHASE_COMPLETE (R482 to R488): the phase in progress completes, of the kiln or of an activation. VPRI out of its range in K2 to K5 is a
kiln error, and so is the loss of every die of a kind from K3 to K5. -/
def execKilnPhaseComplete (o : KilnOutcome) (s : State) : Out :=
  let n := s.power.phase.val
  .next (if s.power.activating then (if n = 1 then activateK1 o s else activateK6 o s)
    else if !s.power.running then s
    else if 2 ≤ n ∧ n ≤ 5 ∧ o.vpriInRange = false then kilnFail 4 s
    else
      let t := match n with
        | 0 => kilnK0 o s
        | 1 => kilnK1 o s
        | 2 => kilnK2 o s
        | 3 => kilnK3 o s
        | 4 => kilnK4 o s
        | 5 => kilnK5 o s
        | 6 => kilnK6 o s
        | _ => kilnK7 s
      if 3 ≤ n ∧ n ≤ 5 then
        match dieError t with
        | some e => kilnFail e t
        | none => t
      else t)

/-- FW_UPDATE (R507): a maker-signed image of a proper size written to the bank that does not run. -/
def execFwUpdate (path : Path) (sizeOk signedOk : Bool) (version : Nat) (s : State) : Out :=
  let ok := sizeOk && signedOk
  .next (commandWith path 12 0x0045 deviceTarget (fun _ => ok) (leBytes 4 version) id
    (fun s => if ok then { s with auth := { s.auth with fwStaged := some version } } else s) s)

/-- FW_ACTIVATE (R488): K1 and K6 on the running device. -/
def execFwActivate (path : Path) (s : State) : Out :=
  let ok := fun (s : State) => s.power.ready && !s.power.activating
  .next (commandWith path 12 0x0046 deviceTarget ok [] id
    (fun s => if ok s then { s with power := { s.power with activation := true, activating := true, phase := 1 } } else s) s)

/-! ### The hold-up capacitor (R499) -/

/-- HOLDUP_MEASURE (R499): every 60 s in service; a failed measurement clears armed and asserts INT_N. -/
def execHoldupMeasure (cap10uf esrMohm vholdMv : Nat) (s : State) : Out :=
  .next (if !s.power.ready then s
    else
      let s := measured cap10uf esrMohm vholdMv s
      if s.power.armed then s else raiseInt 1 s)

/-- VHOLD_LOW (R499): VHOLD below 10.0 V for 1 ms while VPRI is in range. -/
def execVholdLow (mv : Nat) (s : State) : Out :=
  .next (if s.power.ready && decide (mv < 10000) then raiseInt 1 { s with power := { s.power with armed := false } } else s)

/-! ### The hold-up sequence (R493 to R497) -/

/-- The partitions with anything to record. -/
def recordParts (s : State) : List Nat :=
  (s.parts.map (·.1) ++ s.models.map (·.1) ++ s.power.savedNums.map (·.1)).dedup

/-- The epoch numbers of a partition for the record: ACTIVE and last non-zero. -/
def epochNums (s : State) (p : Nat) : BitVec 16 × BitVec 16 := (activeNum s p, (modelAt s p).lastNum)

/-- A counter saturated to 32 bits. -/
def word32 (m : Map (BitVec 48)) (k : Nat) : List Byte := leBytes 4 (min 0xFFFFFFFF (mapGet 0 m k).toNat)

/-- The counters checkpoint (Table 5): PRT_CNT_SRC_0 to 7 of every partition, then the warden's, the L-dies', the P-dies' and the S-dies'. -/
def writeCounters (s : State) (m : List Host.Cell) : List Host.Cell :=
  let m := s.parts.foldl (fun m p => memPutBytes (0xF800 + 32 * p.1) ((List.range 8).flatMap (fun k => word32 p.2.cnt k)) m) m
  let four := List.range 4
  let dies := (List.range 10).flatMap (fun k => word32 s.flt.cnt k)
    ++ four.flatMap (fun l => (List.range 17).flatMap (fun k => word32 (ldieAt s l).cnt k))
    ++ four.flatMap (fun p => (List.range 10).flatMap (fun k => word32 (pdieAt s p).cnt k))
    ++ four.flatMap (fun p => (List.range 15).flatMap (fun k => word32 (pdieAt s p).cnt (100 + k)))
    ++ four.flatMap (fun p => (List.range 11).flatMap (fun k => word32 (pdieAt s p).cnt (200 + k)))
    ++ four.flatMap (fun i => (List.range 9).flatMap (fun k => word32 (sdieAt s i).cnt k))
    ++ four.flatMap (fun i => (List.range 11).flatMap (fun k => word32 (sdieAt s i).cnt (100 + k)))
  memPutBytes 0x17800 dies m

/-- The epochs region (Table 5). -/
def writeEpochs (s : State) (nums : Map (BitVec 16 × BitVec 16)) (m : List Host.Cell) : List Host.Cell :=
  let m := nums.foldl (fun m n => memPutBytes (0xE400 + 4 * n.1) (leBytes 2 n.2.1.toNat ++ leBytes 2 n.2.2.toNat) m) m
  memPutBytes 0xF400 (leBytes 4 s.st.storedId.toNat ++ leBytes 4 s.st.epoch.toNat) m

/-- The critical record (Table 5) of a hold-up at this instant, with the free values that stand for the repair map's bytes. During K0 to K2 the
epochs and the counters are those of the previous record (Table 6). -/
def criticalRecord (cause : Nat) (nums : Map (BitVec 16 × BitVec 16)) (early : Bool) (s : State) : List Host.Cell × State :=
  let f := freeBytes 8192 s
  let tail := (s.auth.tail.zipIdx).foldl (fun m r => memPutBytes (0x400 + 64 * r.2) r.1 m) ([] : List Host.Cell)
  let m := s.flt.records.foldl (fun m r => memPutBytes (0x4400 + 32 * r.1) r.2 m) tail
  let m := memPutBytes 0xC400 f.1 m
  let m := if early then memPutBytes 0xE400 (memBytes s.power.crit 0xE400 0x9C00) m
    else writeCounters s (writeEpochs s nums m)
  let head := leBytes 8 (s.power.critGen + 1) ++ leBytes 8 s.time.wall.toNat ++ [BitVec.ofNat 8 cause] ++ leBytes 4 s.flt.repairGen.toNat
    ++ leBytes 4 s.flt.head.toNat ++ leBytes 4 (crc32c (memBytes m 0x400 0x17C00)).toNat
  (memPutBytes 0 head m, f.2)

/-- The hold-up sequence starts (R493, R494): READY falls, loads and applies in progress end with their codes, the record is
fixed, the dies are shed. A trigger during the sequence is ignored, and so
is one while the wardens are off. -/
def startHoldup (cause : Fin 4) (sure : Bool) (s : State) : State :=
  if s.power.holdup.isSome || !(s.power.ready || s.power.running || s.power.extest || s.power.error != 0) then s
  else
    let s := auditDevice 0x0063 deviceTarget 1 [BitVec.ofNat 8 cause.val] s
    let applying := s.st.phase != .idle
    let s := if applying then auditStruct 4 0x11 s else s
    let s := s.models.foldl (fun s m =>
      if m.2.load.phase == .idle || m.2.load.phase == .committing then s else auditLoad m.1 4 0x0D 0 s) s
    let early := !s.power.ready && decide (s.power.phase.val ≤ 2)
    let nums := if early then s.power.savedNums else
      (recordParts s).foldl (fun m p => mapSet p (epochNums s p) m) ([] : Map (BitVec 16 × BitVec 16))
    let r := criticalRecord cause.val nums early s
    let t := coldState r.2
    { t with power := { t.power with holdup := some { cause, t0 := nowNs s, record := r.1, nums, sure } },
             st := { t.st with code := if applying then 0x11 else 0 } }

/-- SAG (R493, R553): SAG_N low, recognised from 100 ns on, ignored under 50 ns, either between them; or VPRI below 10.0 V for 2 us. -/
def execSagPin (cause : SagCause) (s : State) : Out :=
  .next (match cause with
    | .sagN lowNs vholdMv =>
      if lowNs < 50 then s
      else if 100 ≤ lowNs then startHoldup 1 (decide (7000 ≤ vholdMv)) s
      else
        let f := takeFree s
        if f.1.getLsbD 0 then startHoldup 1 (decide (7000 ≤ vholdMv)) f.2 else f.2
    | .vpri belowUs vholdMv => if belowUs < 2 then s else startHoldup 2 (decide (7000 ≤ vholdMv)) s)

/-- SHUTDOWN (R493, R500): the installer's command; its outcome is the sequence, which always runs to its end. -/
def execShutdown (path : Path) (s : State) : Out :=
  .next (command path installerRights 0x0042 deviceTarget id
    (fun s => startHoldup 3 true (auditRaw (roleOf s path) (pathNum path) 0x0042 (((sessionOf s path).map (fun x => x.keyId)).getD 0)
      deviceTarget 1 [] s)) s)

/-- CRITICAL_RECORD_WRITTEN (R494 to R496): the record is verified and marked newest, or the previous one stays in force and the audit tail is lost;
the W-dies power off. With VHOLD at 7.0 V or more at T0 the record completes. -/
def execCriticalRecordWritten (ok : Bool) (s : State) : Out :=
  .next (match s.power.holdup with
    | none => s
    | some h =>
      let ok := ok || h.sure
      let p := { s.power with holdup := none, lastCause := h.cause, recordOk := ok, recordIncomplete := !ok,
                              held := (h.cause == 3) && !h.released, off := !((h.cause == 3) && h.released) }
      if ok then { s with power := { p with crit := h.record, critGen := s.power.critGen + 1, savedNums := h.nums } }
      else loseTail { s with power := p })

/-! ### Pins (R549 to R551, R555) -/

/-- The straps sampled at the release of PORST_N (R555). -/
def sampleStraps (makerEn : Bool) (smbAddr : Fin 4) (s : State) : State :=
  { s with auth := { s.auth with makerEn, smbAddr := 0x60#7 + BitVec.ofNat 7 smbAddr.val } }

/-- PORST_N low for long enough, and released: the kiln or a kiln error stops, and a device in service saves its state. -/
def porst (s : State) : State :=
  if s.power.holdup.isSome then { s with power := { s.power with holdup := s.power.holdup.map (fun h => { h with released := true }) } }
  else if s.power.ready then
    let s := startHoldup 3 true s
    { s with power := { s.power with holdup := s.power.holdup.map (fun h => { h with released := true }) } }
  else coldState { s with power := { s.power with held := false, off := false, vauxOk := true } }

/-- PORST (R550, R555): a pulse under 1 us is ignored, one from 1 us to 10 us may have the effect of a long one. -/
def execPorstPulse (lowNs : Nat) (makerEn : Bool) (smbAddr : Fin 4) (s : State) : Out :=
  .next (if lowNs < 1000 then s
    else if 10000 ≤ lowNs then sampleStraps makerEn smbAddr (porst s)
    else
      let f := takeFree s
      if f.1.getLsbD 0 then sampleStraps makerEn smbAddr (porst f.2) else f.2)

/-- VAUX_OUT_OF_RANGE (R549): the device holds itself in reset, with no record of what it held. -/
def execVauxOutOfRange (s : State) : Out :=
  .next (loseTail (coldState { s with power := { s.power with vauxOk := false, holdup := none } }))

/-- PERST (R551): the effect of an FLR of the PF, and with it of every partition; the link is down until the release. Nothing while PORST_N holds
the device. -/
def execPerstAssert (s : State) : Out :=
  .next (if s.power.held || s.power.off || s.power.holdup.isSome || !s.power.pcieUp then s
    else
      let s := lowerVfs 0 (startReset 0 (flrConfig 0 s))
      { s with power := { s.power with pcieUp := false } })

/-- PERST_RELEASE (R551): the link trains again. -/
def execPerstRelease (s : State) : Out := .next { s with power := { s.power with pcieUp := true } }

end Sys2Proof.Machine
end

