-- ==== Sys2Proof/Machine/Tick.lean ====
section
/-!
DEFINITION. What passes in one nanosecond with no command waiting (log 1): the wall counter, the bricks' cycles and their counters, the end
of a brick reset, the trace's way to its rings, and the extremes of the queues.
-/

namespace Sys2Proof.Machine

open Sys2Proof

/-! ### Time (R515, R516) -/

/-- The wall counter one nanosecond on, with its slew in parts in 10 to the 9. -/
def tickTime (t : TimeSt) : TimeSt :=
  let acc := t.slewAcc + t.slewPpb
  let t := { t with now := t.now + 1 }
  if 1000000000 ≤ acc then { t with wall := t.wall + 2, slewAcc := acc - 1000000000 }
  else if acc ≤ -1000000000 then { t with slewAcc := acc + 1000000000 }
  else { t with wall := t.wall + 1, slewAcc := acc }

/-! ### Trace (R524) -/

/-- The records of the bricks put on VC6: the kinds selected, none while the ring is off. -/
def traceBricks (s : State) : State :=
  let s := s.bricks.foldl (fun s b =>
    b.2.perf.traces.foldl (fun s r => trace r.1 0 (b.1 / 16) (b.1 % 16) r.2.1 r.2.2 s) s) s
  { s with bricks := mapAll (fun (b : BrickSt) => if b.perf.traces.isEmpty then b else { b with perf := { b.perf with traces := [] } }) s.bricks }

/-- The trace ring that a record goes to. -/
def recordRing (r : List Byte) : Nat := traceRingOf (r.getD 9 0).toNat (r.getD 10 0).toNat % 4

/-- The records on VC6 written to their rings; those of an S-die that is lost wait. A full ring loses its oldest record. -/
def traceFlush (s : State) : State :=
  let ready := s.obs.traceWait.filter (fun r => !(sdieAt s (recordRing r.1)).lost)
  let o := ready.foldl (fun (o : ObsSt) r =>
    let i := recordRing r.1
    let l := mapGet [] o.traceRing i ++ [r.1]
    { o with traceRing := mapSet i (l.drop (l.length - 67108864)) o.traceRing, tracePtr := mapMod 0 i (· + 1) o.tracePtr }) s.obs
  { s with obs := { o with traceWait := s.obs.traceWait.filter (fun r => (sdieAt s (recordRing r.1)).lost) } }

/-! ### Bricks (R222, R246, R519, R520) -/

/-- One cycle of a brick. A stalled or frozen brick counts its reason (Table 1 of the observation chapter): its own where its own stall
stands, else that another brick of the course froze it. -/
def tickBrick (now : Nat) (b : BrickSt) : BrickSt :=
  let stalled := b.c.stallSlots.map engineOf
  match b.c.phase with
  | .idle => advance 1 (countEngines 1 [] [] b)
  | .running =>
    let b := countEngines 1 [] stalled b
    let b := if stalled.isEmpty then b else countStall 1 b.c.stallReason.val b
    advance 1 b
  | .frozen =>
    let b := countEngines 1 [] stalled b
    let b := countStall 1 (if stallOver b then 0 else b.c.stallReason.val) b
    { b with perf := { b.perf with frozenCycles := b.perf.frozenCycles + 1 } }
  | .reset => if b.c.resetDone ≤ now then { b with c := { b.c with phase := .idle } } else b
  | .off => b
  | .halted => b
  | .fenced => b
  | .retired => b

/-! ### The extremes of the queues (R523) -/

/-- The tokens that wait at an S-die (R330). -/
def tokensWaiting (x : SDie) : Nat := (x.ctxs.map (fun c => c.2.queue.length)).sum

/-- The occupancy of a queue of Table 2 of the observation chapter. -/
def occupancy (s : State) (q d : Nat) : Nat :=
  match q with
  | 0 => elasticBodies s d
  | 1 => (ldieAt s d).ledger.length
  | 2 => (pdieAt s d).slots.length
  | _ => tokensWaiting (sdieAt s d)

/-- The key of an occupancy histogram. -/
def occKey (q d : Nat) : Nat := 4096 + 4 * q + d

/-- The least and the greatest occupancy of every queue kept. -/
def tickOccupancy (s : State) : State :=
  let keys := (List.range 4).flatMap (fun q => (List.range 4).map (fun d => (q, d)))
  { s with obs := { s.obs with hists := keys.foldl (fun m k =>
      let n := BitVec.ofNat 48 (occupancy s k.1 k.2)
      mapMod {} (occKey k.1 k.2) (fun (h : Hist) =>
        { h with mn := if n.toNat < h.mn.toNat then n else h.mn, mx := if h.mx.toNat < n.toNat then n else h.mx }) m) s.obs.hists } }

/-- One nanosecond with no command waiting. -/
def tick (s : State) : State :=
  let s := traceFlush (traceBricks s)
  let s := { s with time := tickTime s.time }
  let s := { s with bricks := mapAll (tickBrick (nowNs s)) s.bricks }
  tickOccupancy s

end Sys2Proof.Machine
end

