-- ==== Sys2Proof/Machine/Observe.lean ====
section
/-!
DEFINITION. The wall counter's discipline, the histograms' samples and clears, trace drops, and the export of dumps (chapter 20).
-/

namespace Sys2Proof.Machine

open Sys2Proof

/-! ### The wall counter (R515 to R517) -/

/-- The signed difference between the counter and its nearest whole second (R516). -/
def wallError (wall : DWord) : Int :=
  let r := wall.toNat % 1000000000
  if r ≤ 500000000 then (r : Int) else (r : Int) - 1000000000

/-- TSYNC_EDGE (R516, R517): a pending step is taken; e is measured, and the rate is slewed so that it is removed over the next second, by at
most 200 ppm; four edges in turn with |e| of at most 4 ns lock the counter. -/
def execTsyncEdge (s : State) : Out :=
  let t := s.time
  let wall := if t.step then t.todNext else t.wall
  let e := wallError wall
  let good := if e.natAbs ≤ 4 then min 4 (t.good + 1) else 0
  .next { s with time := { t with
    wall, step := false, slewPpb := clampInt (-200000) 200000 (-e), slewAcc := 0,
    good, locked := decide (4 ≤ good), lastEdge := some t.now, lastError := BitVec.ofInt 16 (clampInt (-32768) 32767 e) } }

/-- TSYNC_TIMEOUT (R516): 2 s without an edge; the counter holds its last rate. -/
def execTsyncTimeout (s : State) : Out :=
  let t := s.time
  .next (match t.lastEdge with
    | some u => if u + 2000000000 ≤ t.now then { s with time := { t with locked := false, good := 0 } } else s
    | none => s)

/-- Whether TSYNC_OUT is high: the 100 us of a pulse (R516). -/
def tsyncOut (s : State) : Bool :=
  match s.time.pulseNs with
  | some u => decide (nowNs s < u + 100000)
  | none => false

/-- TSYNC_OUT_PULSE (R516, R553): a pulse begins 2 ns to 6 ns after a whole second of the counter. -/
def execTsyncOutPulse (s : State) : Out :=
  .next (if s.time.wall.toNat % 1000000000 ≤ 6 && !tsyncOut s then { s with time := { s.time with pulseNs := some (nowNs s) } } else s)

/-- WALL_STEP (R517): the driver sets OBS_WALL_CTL.step. -/
def execWallStep (path : Path) (s : State) : Out :=
  .next (if path = .pf then { s with time := { s.time with step := true } } else s)

/-! ### Histograms (R521 to R523) -/

/-- The key of the histogram that OBS_HIST_SEL selects, if one (Table 12). -/
def selHist (sel : Nat) : Option Nat :=
  let i := bits 13 12 sel
  let u := bits 9 0 sel
  if bit 31 sel then (if u < 4 then some (occKey i u) else none)
  else if i < 3 then some (4 * u + i) else none

/-- The selected histogram cleared. -/
def clearSelected (s : State) : State :=
  match selHist s.obs.histSel.toNat with
  | some k => { s with obs := { s.obs with hists := mapDel k s.obs.hists } }
  | none => s

/-- HIST_CLEAR (R507, R522): the PF driver clears the histogram that OBS_HIST_SEL selects; over MCTP an operator or installer clears a partition's
three. -/
def execHistClear (path : Path) (part : Part) (s : State) : Out :=
  .next (match path with
    | .pf => clearSelected s
    | .mctp => command path operatorRights 0x0031 part.val id (clearLatency part.val) s
    | .vf _ => s)

/-- The bin of an occupancy (R523). -/
def occBin (n : Nat) : Nat := if n = 0 then 0 else min 31 (Nat.log2 n + 1)

/-- One sample of a queue counted; bins saturate at 32 bits. -/
def histSample (n : Nat) (h : Hist) : Hist :=
  { h with bins := mapMod 0 (occBin n) (fun c => min 0xFFFFFFFF (c + 1)) h.bins, total := h.total + 1,
           mn := if n < h.mn.toNat then BitVec.ofNat 48 n else h.mn, mx := if h.mx.toNat < n then BitVec.ofNat 48 n else h.mx }

/-- OCCUPANCY_SAMPLE (R523): every 1,024 ns on the wall counter. -/
def execOccupancySample (s : State) : Out :=
  let keys := (List.range 4).flatMap (fun q => (List.range 4).map (fun d => (q, d)))
  let w := s.time.wall.toNat
  .next (if w / 1024 = s.obs.lastSampleNs / 1024 then s
    else { s with obs := { s.obs with
      lastSampleNs := w, hists := keys.foldl (fun m k => mapMod {} (occKey k.1 k.2) (histSample (occupancy s k.1 k.2)) m) s.obs.hists } })

/-! ### Trace and dumps (R524, R529, R531) -/

/-- TRACE_DROP (R474, R524): the records of a unit (bytes 9 to 11) that have waited more than 1 us on VC6 are discarded and counted. -/
def execTraceDrop (unit : Nat) (s : State) : Out :=
  let late := fun (r : List Byte × Nat) => leNat ((r.1.drop 9).take 3) == unit && decide (r.2 + 1000 < nowNs s)
  .next { s with obs := { s.obs with
    traceWait := s.obs.traceWait.filter (fun r => !late r), dropCnt := s.obs.dropCnt + BitVec.ofNat 48 (s.obs.traceWait.filter late).length } }

/-- A rubble slot freed (R529): one that holds a dump. -/
def releaseRubble (slot : Nat) (s : State) : State :=
  match mapFind slot s.obs.rubble with
  | some r => if r.written then { s with obs := { s.obs with rubble := mapDel slot s.obs.rubble } } else s
  | none => s

/-- RUBBLE_RELEASE (R529, R531): an installer command. -/
def execRubbleRelease (path : Path) (slot : Fin 4) (s : State) : Out :=
  .next (if allowed s path installerRights then releaseRubble slot.val (touchSession path s) else s)

/-- The first read of a dump or a ring in a session is audited (R531); `key` is the slot, or 4 and the ring. -/
def auditExport (path : Path) (key : Nat) (s : State) : State :=
  match sessionOf s path with
  | some x =>
    if x.exported.getLsbD key then s
    else
      let s := audit path 0x0044 deviceTarget 0 (leBytes 2 key) s
      { s with auth := { s.auth with sessions := mapSet (pathNum path) { x with exported := x.exported ||| (1#8 <<< key), lastNs := nowNs s }
                                                  s.auth.sessions } }
  | none => s

/-- RUBBLE_EXPORT (R531): a dump read over a path whose session is an installer's. -/
def execRubbleExport (path : Path) (slot : Fin 4) (s : State) : Out :=
  .next (onPath path (fun s =>
    if auditFull s then audit path 0x0044 deviceTarget 3 (leBytes 2 slot.val) s
    else if allowed s path installerRights then
      let bytes := match mapFind slot.val s.obs.rubble with
        | some r => if r.written then r.bytes else []
        | none => []
      reply (pathNum path) bytes (auditExport path slot.val s)
    else auditRefused path 0x0044 deviceTarget s) s)

end Sys2Proof.Machine
end

