-- ==== Sys2Proof/Machine/Flags.lean ====
section
/-!
DEFINITION. The status words that the registers report: every flag and field as the register tables lay it out.
-/

namespace Sys2Proof.Machine

open Sys2Proof

/-! ### DEV and EPO (R539 to R543) -/

/-- Whether K6 has written the capability record of the device (Table 3 of the address chapter). -/
def capsWritten (s : State) : Bool := s.power.ready || s.power.extest || (s.power.running && decide (6 < s.power.phase.val))

/-- Whether a logical brick is in service: its course has a C-die, and the brick is neither off nor retired. -/
def brickPresent (s : State) (id : Nat) : Bool :=
  match (physCdie s (id / 16)).map (fun c => (brickAt s (c * 16 + id % 16)).c.phase) with
  | some ph => ph != .off && ph != .retired
  | none => false

/-- The dies of four that serve, one bit each. -/
def aliveMask (lost : Nat → Bool) : Nat := ((List.range 4).map (fun i => if lost i then 0 else 2 ^ i)).sum

/-- The largest wall of a grade. -/
def wallMax (s : State) : Nat :=
  match s.dev.grade.val with
  | 0 => 16
  | 1 => 4
  | _ => 0

/-- DEV_CAPS (Table 3). -/
def devCaps (s : State) : Nat :=
  let fixed := 0x10 * 2 ^ 48 + wallMax s * 2 ^ 18 + bitAt 17 (hasStreamer s) + bitAt 16 (hasButtress s) + s.dev.grade.val
  if capsWritten s then
    let n := gradeBricks s
    fixed + ((List.range (n / 16)).filter (fun k => (physCdie s k).isSome)).length * 2 ^ 40 + (sparesFree s).length * 2 ^ 32
      + ((List.range n).filter (brickPresent s)).length * 2 ^ 23
      + aliveMask (fun i => (pdieAt s i).lost) * 2 ^ 12 + aliveMask (fun i => (ldieAt s i).lost) * 2 ^ 8
      + aliveMask (fun i => (sdieAt s i).lost) * 2 ^ 4
  else fixed

/-- DEV_BRICK_MAP_b (Table 4). -/
def brickMap (s : State) (b : Nat) : Nat :=
  match (if gradeBricks s ≤ b || !capsWritten s then none else physCdie s (b / 16)) with
  | none => 0
  | some c =>
    if !brickPresent s b then 0
    else
      let a := (brickAt s (c * 16 + b % 16)).arr
      2 ^ 31 + bitAt 30 a.layout + (if a.layout then quadWidth a 0 else wholeWidth a) * 2 ^ 16 + (if a.layout then quadWidth a 1 else 0) * 2 ^ 8 + c

/-- Whether a safety action is in force. -/
def safetyActive (s : State) : Bool := !s.loops.safety.isEmpty

/-- DEV_STATUS (Table 5). -/
def devStatus (s : State) : Nat :=
  bitAt 31 s.power.ready + bitAt 30 (s.power.error != 0) + bitAt 29 s.power.degraded + bitAt 28 s.st.restartPending + bitAt 27 s.power.armed
    + bitAt 26 (safetyActive s) + bitAt 25 (intN s) + bitAt 24 s.dev.badAccess

/-- EPO_LAST_KIND (Table 7). -/
def epoKind (s : State) : Nat := s.dev.lastKind.val * 2 ^ 28 + s.dev.lastPart.val

/-! ### WDN (R395, R479, R500, R514) -/

/-- WDN_LOOP_STATUS (Table 13 of the structure chapter). -/
def loopStatus (s : State) : Nat :=
  bitAt 31 (safetyActive s) + s.loops.lastSafety.val * 2 ^ 28 + bitAt 27 s.loops.badWrite
    + ((List.range 17).map (fun i => bitAt i (s.loops.pinned.any (fun k => k.1 / 1024 == i)))).sum

/-- WDN_REPAIR_STATUS (Table 13 of the fault chapter). -/
def repairStatus (s : State) : Nat :=
  let gone := fun (m : Nat) => 15 - m
  bitAt 31 s.flt.standbyOk + bitAt 30 s.flt.activeW + gone (aliveMask (fun i => (ldieAt s i).lost)) * 2 ^ 20
    + gone (aliveMask (fun i => unitRetired s 10 (dieUnit 4 i))) * 2 ^ 16 + gone (aliveMask (fun i => unitRetired s 3 (dieUnit 1 i))) * 2 ^ 12
    + min 3 (sparesFree s).length * 2 ^ 10 + (match s.flt.rehoming with
      | q :: _ => q.1.val
      | [] => 0x1F)

/-- WDN_KILN_STATUS (Table 8 of the kiln chapter). -/
def kilnStatus (s : State) : Nat :=
  let p := s.power
  p.error.val * 2 ^ 24 + bitAt 16 p.activation + bitAt 15 p.fwFallback + bitAt 14 p.structValid + bitAt 13 p.degraded + p.phase.val * 2 ^ 4
    + b2n p.ready

/-- WDN_HOLDUP (Table 9). -/
def holdupStatus (s : State) : Nat :=
  let p := s.power
  bitAt 31 p.armed + bitAt 30 p.recordOk + bitAt 29 p.recordIncomplete + p.lastCause.val * 2 ^ 27 + p.cap10uf % 2 ^ 16 * 2 ^ 8 + p.esr % 2 ^ 8

/-- WDN_POWER (Table 10). -/
def powerStatus (s : State) : Nat :=
  let l := s.loops
  min 0xFFFF l.vpriMv * 2 ^ 48 + min 0xFFFF l.ipri10ma * 2 ^ 32 + min 0xFFFF (power100 l) * 2 ^ 16 + l.ceiling % 2 ^ 16

/-- The state of an island (Table 11): OFF without a clock, FENCED while every brick of its C-die is fenced or retired. -/
def islandState (s : State) (c : Nat) : Nat :=
  if islandClock s c = 0 then (if s.power.running && s.power.phase == 2 then 1 else 0)
  else if (courseBricks c).all (fun b => let ph := (brickAt s b).c.phase; ph == .fenced || ph == .retired) then 3
  else 2

/-- WDN_ISLAND_j but for its temperature (Table 11). -/
def islandWord (s : State) (c : Nat) : Nat :=
  mapGet 0 s.loops.volts c % 2 ^ 8 * 2 ^ 32 + islandClock s c % 2 ^ 16 * 2 ^ 16 + bitAt 5 (islandSafety s c)
    + bitAt 4 ((mapFind c s.loops.pinned).isSome) + islandState s c

/-- WDN_AUTH_CTL (Table 6 of the role chapter). -/
def authCtl (s : State) : Nat :=
  let st := if (sessionOf s .pf).isSome then 2 else if (mapFind 0 s.auth.challenges).isSome then 1
    else if slotLocked s s.auth.authSlot then 3 else 0
  st * 2 ^ 30 + roleOf s .pf % 4 * 2 ^ 28 + s.auth.authSlot % 2 ^ 13

/-- The challenge that WDN_AUTH_NONCE shows: 0 outside state 1. -/
def nonceBytes (s : State) : List Byte :=
  match (if (sessionOf s .pf).isSome then none else mapFind 0 s.auth.challenges) with
  | some c => beBytes 48 c.2.toNat
  | none => []

/-! ### OBS (R533) -/

/-- OBS_WALL_CTL (Table 11 of the observation chapter). -/
def wallCtl (s : State) : Nat := bitAt 17 s.time.step + bitAt 16 s.time.locked + s.time.lastError.toNat

/-- OBS_RUBBLE_STATUS (Table 14). -/
def rubbleStatus (s : State) : Nat :=
  ((List.range 4).map (fun i => bitAt (12 + i) (match mapFind i s.obs.rubble with
    | some r => r.written
    | none => false))).sum + s.obs.latched.toNat

/-- The histogram that OBS_HIST shows; none selected reads 0. -/
def shownHist (s : State) : Hist :=
  match selHist s.obs.histSel.toNat with
  | some k => mapGet {} s.obs.hists k
  | none => { mn := 0 }

/-! ### LNK (R421) -/

/-- LNK_PORT_n (Table 9 of the link chapter). -/
def portWord (s : State) (p : Nat) : Nat :=
  let x := portAt s p
  let cfg := portCfg s p
  x.downCount.toNat * 2 ^ 32 + min 16 (s.st.running.feeds.feeds.filter (fun f => f.port.val == p)).length * 2 ^ 22
    + min 16 ((cfg.map (fun c => c.lanes.length)).getD 0) * 2 ^ 17 + (if portUp x then min 16 x.lanesUp.length else 0) * 2 ^ 12
    + ((cfg.map (fun c => c.mode.val)).getD 0) * 2 ^ 10 + x.st.val

/-- LNK_LANE_n (Table 10): peaking is pinned while the lane's loop is. -/
def laneWord (s : State) (l n : Nat) : Nat :=
  let x := laneAt s l n
  let pinned := (mapFind (16 * 1024 + laneKey l n) s.loops.pinned).isSome
  x.fecUncorr.toNat * 2 ^ 32 + x.role.val * 2 ^ 12 + (if x.role.val = 0 ∨ x.role.val = 3 then x.port.val else 0) * 2 ^ 8 + bitAt 2 x.locked
    + b2n pinned

/-! ### PKT, FLW, TRE (R61, R94, R118) -/

/-- PKT_PARSE_STATUS (Table 8 of the parser chapter). -/
def parseStatus (s : State) (p : Nat) : Nat :=
  let x := pdieAt s p
  x.lastPauseNs.toNat * 2 ^ 4 + bitAt 3 x.lastAbandoned + bitAt 1 (paused s) + b2n x.activeBank

/-- FLW_STATUS (Table 6 of the flow chapter). -/
def flowStatus (s : State) (p : Nat) : Nat :=
  let x := pdieAt s p
  let b := effectiveBound s 6 0
  let need := sweepNeed s
  let rate := if (mapFind (loopKey 6 0) s.loops.wish).isSome then clampNat b.1 b.2 need else 1
  rate % 2 ^ 8 * 2 ^ 24 + min 0xFFFF x.lastSweepMs * 2 ^ 8 + bitAt 1 (decide (clampNat b.1 b.2 need ≠ need)) + b2n (decide (0 < x.flushLeft))

/-- FLW_OCCUPANCY (Table 7). -/
def flowOccupancy (s : State) (p : Nat) : Nat :=
  let x := pdieAt s p
  (ovfUsed x).length * 2 ^ 32 + ((x.hot.map (fun b => (b.2.pos.filter (fun e => decide (e.1 < 4))).length)).sum)

/-- TRE_BANK_l (Table 11 of the tree chapter). -/
def treeBank (s : State) (l : Nat) : Nat := bankFree s l * 2 ^ 32 + (bankSizes s.st.running.treeGeom).getD l 0

/-- TRE_STORE_FREE (Table 12). -/
def treeStoreFree (s : State) : Nat := bitmapFree s * 2 ^ 32 + leafFree s

/-! ### STR (R316) -/

/-- STR_STATUS (Table 8 of the memory chapter). -/
def strStatus (s : State) (i : Nat) : Nat :=
  let x := sdieAt s i
  let cache := (if s.dev.grade = 2 then 208 else 64) - x.pinnedMib
  (32 - x.retiredCh.length) * 2 ^ 24 + cache * 2 ^ 16 + x.pinnedMib * 2 ^ 8 + bitAt 1 x.hbmReady + b2n x.sramReady

/-- STR_BW (Table 9). -/
def strBw (x : SDie) : Nat := x.dramReserved % 2 ^ 16 * 2 ^ 32 + x.sramReserved % 2 ^ 16

/-- STR_ERR_ADDR (Table 10). -/
def strErr (x : SDie) : Nat := bitAt 63 x.errValid + x.errAddr % 2 ^ 48

/-! ### PRT (R37, R92, R93, R117, R174, R297, R318, R346, R372, R373, R442, R481) -/

/-- PRT_FUNC (Table 9 of the partition chapter). -/
def prtFunc (s : State) (p : Nat) : Nat :=
  bitAt 31 ((partCfg s.st.running p).isSome) + bitAt 30 (partEnabled s p) + (partAt s p).resetStep.val * 2 ^ 27 + p

/-- PRT_CASCADE with cascade_on as the commits leave it (R37). -/
def prtCascade (s : State) (p : Nat) : Nat := (partAt s p).cascade.toNat / 2 * 2 + b2n ((modelAt s p).cascadeOn && (partCfg s.st.running p).isSome)

/-- PRT_FLOW with the generation (Table 5 of the flow chapter). -/
def prtFlow (x : PartSt) : Nat := bits 31 18 x.flow.toNat * 2 ^ 18 + x.gen.toNat

/-- The hot entries of a partition (R93). -/
def prtFlowCount (s : State) (p : Nat) : Nat :=
  (s.pdies.map (fun x => (x.2.hot.map (fun b => (b.2.pos.filter (fun e => e.2.part.val == p)).length)).sum)).sum

/-- PRT_TREE_USE (Table 10 of the tree chapter). -/
def prtTreeUse (s : State) (p : Nat) : Nat :=
  (((activeEpoch s p).map (fun e => e.passes)).getD 0) % 4 * 2 ^ 24 + treeUse s p % 2 ^ 19

/-- PRT_DRIFT_STATUS (Table 12 of the drift chapter). -/
def prtDriftStatus (d : DriftSt) : Nat :=
  min 255 d.holdCount * 2 ^ 24 + d.setsAbove.toNat * 2 ^ 16 + d.setsShort.toNat * 2 ^ 8 + bitAt 7 d.hold + d.state.val

/-- PRT_RETEMPER_STATUS (Table 13). -/
def prtTemperStatus (d : DriftSt) : Nat := d.parent.toNat * 2 ^ 16 + d.clamped.toNat * 2 ^ 8 + d.outcome.toNat

/-- PRT_XLATE_STATUS (R297). -/
def prtXlate (l : LoadSt) : Nat := l.xlCode.toNat * 2 ^ 24 + l.xlStage.val * 2 ^ 18 + l.xlWord.toNat

/-- PRT_XLATE_INFO. -/
def prtXlateInfo (l : LoadSt) : Nat := l.xlPredicted.toNat * 2 ^ 16 + l.xlBundles.toNat

/-- The contexts that a partition holds (R346). -/
def prtSeqCount (s : State) (p : Nat) : Nat :=
  (s.sdies.map (fun x => (x.2.ctxs.filter (fun c => c.2.valid && c.2.part.val == p)).length)).sum

/-- PRT_LOAD_DETAIL (Table 13 of the model chapter). -/
def prtLoadDetail (l : LoadSt) : Nat := l.detailSection.toNat * 2 ^ 26 + l.detailOffset.toNat

/-- PRT_EPOCH (Table 14). -/
def prtEpoch (s : State) (p : Nat) : Nat :=
  (((drainingEpoch s p).map (fun e => e.num.toNat)).getD 0) * 2 ^ 16 + (activeNum s p).toNat

/-- PRT_EPOCH_STATUS. -/
def prtEpochStatus (s : State) (p : Nat) : Nat :=
  min 0xFFFFFF (((drainingEpoch s p).map (fun e => e.inflight)).getD 0) * 2 ^ 8 + (modelAt s p).forced.toNat

/-- PRT_FAULT (Table 15 of the fault chapter). -/
def prtFault (f : PartFault) : Nat :=
  bitAt 31 f.targetLost + bitAt 30 f.targetUnavail + bitAt 29 f.unmirrored + f.programHalts.toNat * 2 ^ 8 + f.lastHalt.toNat

/-- PRT_QOS. -/
def prtQos (x : PartSt) : Nat := x.qosClass.val * 2 ^ 8 + x.weight % 2 ^ 8

/-! ### The partition window (R443) -/

/-- PRT_VF_INFO (Table 10). -/
def vfInfo (x : PartSt) (p : Nat) : Nat := x.gen.toNat * 2 ^ 26 + p * 2 ^ 16 + x.resetStep.val

/-- PRT_RING_CTL (Table 11). -/
def ringCtl (y : RingSt) : Nat := bitAt 31 y.enable + y.spillUs % 2 ^ 8 * 2 ^ 8 + y.size % 2 ^ 5

/-- PRT_RING_MOD. -/
def ringMod (y : RingSt) : Nat := y.delayUs % 2 ^ 12 * 2 ^ 16 + y.count % 2 ^ 16

/-- PRT_VF_INT_STATUS (Table 12). -/
def vfIntStatus (x : PartSt) : Nat := bitAt 9 x.badDoorbell + bitAt 8 x.eventLost + x.ringNew.toNat % 2 ^ 6

/-- The pending-bit array. -/
def pendingBits (x : PartSt) : Nat := ((List.range 8).map (fun v => bitAt v (vecAt x v).pend)).sum

end Sys2Proof.Machine
end

