-- ==== Sys2Proof/Machine/NativeMatrix.lean ====
section
/-!
DEFINITION. The matrix, load and store slots (Tables 8 and 9 of the bundle chapter). Each command puts its slot into the bundle that its
brick is gathering; the slot that ends the bundle brings it up for issue.
-/

namespace Sys2Proof.Machine

open Sys2Proof

/-- MATMUL: issues a whole-layout pass of a pallet through the array, after the shape and scale checks (R183). -/
def execMatmul (c : BCtl) (m : MatmulArgs) (s : State) : Host.Outcome State Fault Refusal :=
  .next (issueSlot c .matrix (.matmul m) s)

/-- MATMUL_Q: issues a quartered pass through one quadrant (R193). -/
def execMatmulQ (c : BCtl) (m : MatmulQArgs) (s : State) : Host.Outcome State Fault Refusal :=
  .next (issueSlot c .matrix (.matmulQ m) s)

/-- WFILL: starts a shadow fill of weights and scales behind the swap wavefront (R180). -/
def execWfill (c : BCtl) (dw ds : Fin 16) (quartered : Bool) (quadrant : Fin 4) (kdbl : Bool) (s : State) : Host.Outcome State Fault Refusal :=
  .next (issueSlot c .matrix (.wfill dw ds quartered quadrant kdbl) s)

/-- LOAD_START: a load-slot START copies a descriptor and runs or arms a load stream (R228). -/
def execLoadStart (c : BCtl) (d : Fin 16) (rsSrc rsDst : SReg) (s : State) : Host.Outcome State Fault Refusal :=
  .next (issueSlot c .load (.start false d rsSrc rsDst) s)

/-- STORE_START: a store-slot START copies a descriptor and runs a store stream (R228). -/
def execStoreStart (c : BCtl) (d : Fin 16) (rsSrc rsDst : SReg) (s : State) : Host.Outcome State Fault Refusal :=
  .next (issueSlot c .store (.start true d rsSrc rsDst) s)

end Sys2Proof.Machine
end

