-- ==== Sys2Proof/Machine/NativeScalar.lean ====
section
/-!
DEFINITION. The scalar slot (Table 4 of the bundle chapter). Each command puts its slot into the bundle that its
brick is gathering; the slot that ends the bundle brings it up for issue.
-/

namespace Sys2Proof.Machine

open Sys2Proof

/-- ADD: scalar add modulo 2^32 (R255). -/
def execAdd (c : BCtl) (rd rs1 rs2 : SReg) (s : State) : Host.Outcome State Fault Refusal :=
  .next (issueSlot c .scalar (.alu 0x01 rd rs1 rs2) s)

/-- SUB: scalar subtract modulo 2^32 (R255). -/
def execSub (c : BCtl) (rd rs1 rs2 : SReg) (s : State) : Host.Outcome State Fault Refusal :=
  .next (issueSlot c .scalar (.alu 0x02 rd rs1 rs2) s)

/-- AND: scalar bitwise AND (R255). -/
def execAnd (c : BCtl) (rd rs1 rs2 : SReg) (s : State) : Host.Outcome State Fault Refusal :=
  .next (issueSlot c .scalar (.alu 0x03 rd rs1 rs2) s)

/-- OR: scalar bitwise OR (R255). -/
def execOr (c : BCtl) (rd rs1 rs2 : SReg) (s : State) : Host.Outcome State Fault Refusal :=
  .next (issueSlot c .scalar (.alu 0x04 rd rs1 rs2) s)

/-- XOR: scalar bitwise XOR (R255). -/
def execXor (c : BCtl) (rd rs1 rs2 : SReg) (s : State) : Host.Outcome State Fault Refusal :=
  .next (issueSlot c .scalar (.alu 0x05 rd rs1 rs2) s)

/-- SLL: scalar shift left by rs2[4:0] (R255). -/
def execSll (c : BCtl) (rd rs1 rs2 : SReg) (s : State) : Host.Outcome State Fault Refusal :=
  .next (issueSlot c .scalar (.alu 0x06 rd rs1 rs2) s)

/-- SRL: scalar logical shift right (R255). -/
def execSrl (c : BCtl) (rd rs1 rs2 : SReg) (s : State) : Host.Outcome State Fault Refusal :=
  .next (issueSlot c .scalar (.alu 0x07 rd rs1 rs2) s)

/-- SRA: scalar arithmetic shift right (R255). -/
def execSra (c : BCtl) (rd rs1 rs2 : SReg) (s : State) : Host.Outcome State Fault Refusal :=
  .next (issueSlot c .scalar (.alu 0x08 rd rs1 rs2) s)

/-- SLT: scalar signed set-less-than (R255). -/
def execSlt (c : BCtl) (rd rs1 rs2 : SReg) (s : State) : Host.Outcome State Fault Refusal :=
  .next (issueSlot c .scalar (.alu 0x09 rd rs1 rs2) s)

/-- SLTU: scalar unsigned set-less-than (R255). -/
def execSltu (c : BCtl) (rd rs1 rs2 : SReg) (s : State) : Host.Outcome State Fault Refusal :=
  .next (issueSlot c .scalar (.alu 0x0A rd rs1 rs2) s)

/-- MUL: low 32 bits of a scalar product (R255). -/
def execMul (c : BCtl) (rd rs1 rs2 : SReg) (s : State) : Host.Outcome State Fault Refusal :=
  .next (issueSlot c .scalar (.alu 0x0B rd rs1 rs2) s)

/-- RDCYC: reads the low 32 bits of the brick's cycle count (R259). -/
def execRdcyc (c : BCtl) (rd : SReg) (s : State) : Host.Outcome State Fault Refusal :=
  .next (issueSlot c .scalar (.rdcyc rd) s)

/-- AFR: copies 32 absent flags of a bank into a scalar register (R225). -/
def execAfr (c : BCtl) (rd : SReg) (bank : Fin 8) (w : Fin 4) (s : State) : Host.Outcome State Fault Refusal :=
  .next (issueSlot c .scalar (.afr rd bank w) s)

/-- ADDI: scalar add immediate (R255). -/
def execAddi (c : BCtl) (rd rs1 : SReg) (imm : BitVec 12) (s : State) : Host.Outcome State Fault Refusal :=
  .next (issueSlot c .scalar (.aluImm 0x10 rd rs1 imm) s)

/-- ANDI: scalar AND with a zero-extended immediate (R255). -/
def execAndi (c : BCtl) (rd rs1 : SReg) (imm : BitVec 12) (s : State) : Host.Outcome State Fault Refusal :=
  .next (issueSlot c .scalar (.aluImm 0x11 rd rs1 imm) s)

/-- ORI: scalar OR with a zero-extended immediate (R255). -/
def execOri (c : BCtl) (rd rs1 : SReg) (imm : BitVec 12) (s : State) : Host.Outcome State Fault Refusal :=
  .next (issueSlot c .scalar (.aluImm 0x12 rd rs1 imm) s)

/-- XORI: scalar XOR with a zero-extended immediate (R255). -/
def execXori (c : BCtl) (rd rs1 : SReg) (imm : BitVec 12) (s : State) : Host.Outcome State Fault Refusal :=
  .next (issueSlot c .scalar (.aluImm 0x13 rd rs1 imm) s)

/-- SLLI: scalar shift left immediate (R255). -/
def execSlli (c : BCtl) (rd rs1 : SReg) (imm : BitVec 12) (s : State) : Host.Outcome State Fault Refusal :=
  .next (issueSlot c .scalar (.aluImm 0x14 rd rs1 imm) s)

/-- SRLI: scalar logical shift right immediate (R255). -/
def execSrli (c : BCtl) (rd rs1 : SReg) (imm : BitVec 12) (s : State) : Host.Outcome State Fault Refusal :=
  .next (issueSlot c .scalar (.aluImm 0x15 rd rs1 imm) s)

/-- SRAI: scalar arithmetic shift right immediate (R255). -/
def execSrai (c : BCtl) (rd rs1 : SReg) (imm : BitVec 12) (s : State) : Host.Outcome State Fault Refusal :=
  .next (issueSlot c .scalar (.aluImm 0x16 rd rs1 imm) s)

/-- SLTI: scalar signed set-less-than immediate (R255). -/
def execSlti (c : BCtl) (rd rs1 : SReg) (imm : BitVec 12) (s : State) : Host.Outcome State Fault Refusal :=
  .next (issueSlot c .scalar (.aluImm 0x17 rd rs1 imm) s)

/-- LHI: loads imm17 << 15 into rd (R255). -/
def execLhi (c : BCtl) (rd : SReg) (imm : BitVec 17) (s : State) : Host.Outcome State Fault Refusal :=
  .next (issueSlot c .scalar (.lhi rd imm) s)

/-- LLO: sets rd[14:0] to imm15 (R255). -/
def execLlo (c : BCtl) (rd : SReg) (imm : BitVec 15) (s : State) : Host.Outcome State Fault Refusal :=
  .next (issueSlot c .scalar (.llo rd imm) s)

/-- LDB: loads a sign-extended DMEM byte (R256). -/
def execLdb (c : BCtl) (rd rs1 : SReg) (win : Fin 4) (imm : BitVec 10) (s : State) : Host.Outcome State Fault Refusal :=
  .next (issueSlot c .scalar (.ld 0x20 rd rs1 win imm) s)

/-- LDBU: loads a zero-extended DMEM byte (R256). -/
def execLdbu (c : BCtl) (rd rs1 : SReg) (win : Fin 4) (imm : BitVec 10) (s : State) : Host.Outcome State Fault Refusal :=
  .next (issueSlot c .scalar (.ld 0x21 rd rs1 win imm) s)

/-- LDH: loads a sign-extended DMEM halfword (R256). -/
def execLdh (c : BCtl) (rd rs1 : SReg) (win : Fin 4) (imm : BitVec 10) (s : State) : Host.Outcome State Fault Refusal :=
  .next (issueSlot c .scalar (.ld 0x22 rd rs1 win imm) s)

/-- LDHU: loads a zero-extended DMEM halfword (R256). -/
def execLdhu (c : BCtl) (rd rs1 : SReg) (win : Fin 4) (imm : BitVec 10) (s : State) : Host.Outcome State Fault Refusal :=
  .next (issueSlot c .scalar (.ld 0x23 rd rs1 win imm) s)

/-- LDW: loads a DMEM word (R256). -/
def execLdw (c : BCtl) (rd rs1 : SReg) (win : Fin 4) (imm : BitVec 10) (s : State) : Host.Outcome State Fault Refusal :=
  .next (issueSlot c .scalar (.ld 0x24 rd rs1 win imm) s)

/-- STB: stores a byte to DMEM (R256). -/
def execStb (c : BCtl) (rs2 rs1 : SReg) (win : Fin 4) (imm : BitVec 10) (s : State) : Host.Outcome State Fault Refusal :=
  .next (issueSlot c .scalar (.st 0x28 rs2 rs1 win imm) s)

/-- STH: stores a halfword to DMEM (R256). -/
def execSth (c : BCtl) (rs2 rs1 : SReg) (win : Fin 4) (imm : BitVec 10) (s : State) : Host.Outcome State Fault Refusal :=
  .next (issueSlot c .scalar (.st 0x29 rs2 rs1 win imm) s)

/-- STW: stores a word to DMEM (R256). -/
def execStw (c : BCtl) (rs2 rs1 : SReg) (win : Fin 4) (imm : BitVec 10) (s : State) : Host.Outcome State Fault Refusal :=
  .next (issueSlot c .scalar (.st 0x2A rs2 rs1 win imm) s)

/-- BEQ: branches if equal (R257). -/
def execBeq (c : BCtl) (rs1 rs2 : SReg) (off : BitVec 12) (s : State) : Host.Outcome State Fault Refusal :=
  .next (issueSlot c .scalar (.branch 0x30 rs1 rs2 off) s)

/-- BNE: branches if not equal (R257). -/
def execBne (c : BCtl) (rs1 rs2 : SReg) (off : BitVec 12) (s : State) : Host.Outcome State Fault Refusal :=
  .next (issueSlot c .scalar (.branch 0x31 rs1 rs2 off) s)

/-- BLT: branches if less than, signed (R257). -/
def execBlt (c : BCtl) (rs1 rs2 : SReg) (off : BitVec 12) (s : State) : Host.Outcome State Fault Refusal :=
  .next (issueSlot c .scalar (.branch 0x32 rs1 rs2 off) s)

/-- BGE: branches if greater or equal, signed (R257). -/
def execBge (c : BCtl) (rs1 rs2 : SReg) (off : BitVec 12) (s : State) : Host.Outcome State Fault Refusal :=
  .next (issueSlot c .scalar (.branch 0x33 rs1 rs2 off) s)

/-- BLTU: branches if less than, unsigned (R257). -/
def execBltu (c : BCtl) (rs1 rs2 : SReg) (off : BitVec 12) (s : State) : Host.Outcome State Fault Refusal :=
  .next (issueSlot c .scalar (.branch 0x34 rs1 rs2 off) s)

/-- BGEU: branches if greater or equal, unsigned (R257). -/
def execBgeu (c : BCtl) (rs1 rs2 : SReg) (off : BitVec 12) (s : State) : Host.Outcome State Fault Refusal :=
  .next (issueSlot c .scalar (.branch 0x35 rs1 rs2 off) s)

/-- JAL: jumps to a target and links pc + 1 into rd (R257). -/
def execJal (c : BCtl) (rd : SReg) (target : BitVec 13) (s : State) : Host.Outcome State Fault Refusal :=
  .next (issueSlot c .scalar (.jal rd target) s)

/-- JR: jumps to rs1[12:0] (R255). -/
def execJr (c : BCtl) (rs1 : SReg) (s : State) : Host.Outcome State Fault Refusal :=
  .next (issueSlot c .scalar (.jr rs1) s)

/-- PRD: reads half of a patched parameter register into rd (R258). -/
def execPrd (c : BCtl) (rd : SReg) (win : Fin 4) (n : Fin 16) (half : Bool) (s : State) : Host.Outcome State Fault Refusal :=
  .next (issueSlot c .scalar (.prd rd win n half) s)

/-- DWR: writes half of a stream descriptor word (R258). -/
def execDwr (c : BCtl) (rs : SReg) (d : Fin 16) (word : Fin 4) (half : Bool) (s : State) : Host.Outcome State Fault Refusal :=
  .next (issueSlot c .scalar (.dwr rs d word half) s)

/-- DRD: reads half of a descriptor word as last written (R258). -/
def execDrd (c : BCtl) (rd : SReg) (d : Fin 16) (word : Fin 4) (half : Bool) (s : State) : Host.Outcome State Fault Refusal :=
  .next (issueSlot c .scalar (.drd rd d word half) s)

/-- RFE: returns from an exception by restoring the frame at sp (R238). -/
def execRfe (c : BCtl) (s : State) : Host.Outcome State Fault Refusal :=
  .next (issueSlot c .scalar .rfe s)

/-- TMR: sets the scalar timer (R259). -/
def execTmr (c : BCtl) (rs1 : SReg) (s : State) : Host.Outcome State Fault Refusal :=
  .next (issueSlot c .scalar (.tmr rs1) s)

/-- IE: sets the exception enable (R255). -/
def execIe (c : BCtl) (value : Bool) (s : State) : Host.Outcome State Fault Refusal :=
  .next (issueSlot c .scalar (.ie value) s)

/-- TRAP: takes a synchronous TRAP exception (R235). -/
def execTrap (c : BCtl) (imm : BitVec 12) (s : State) : Host.Outcome State Fault Refusal :=
  .next (issueSlot c .scalar (.trap imm) s)

/-- HALT: halts the brick with reason 0x0F (R240). -/
def execHalt (c : BCtl) (imm : BitVec 12) (s : State) : Host.Outcome State Fault Refusal :=
  .next (issueSlot c .scalar (.halt imm) s)

end Sys2Proof.Machine
end

