-- ==== Sys2Proof/Machine/NativeSync.lean ====
section
/-!
DEFINITION. The sync slot: NOP in any slot, REPLAY, BARRIER and CLEAR (Table 3 of the bundle chapter). Each command puts its slot into the bundle that its
brick is gathering; the slot that ends the bundle brings it up for issue.
-/

namespace Sys2Proof.Machine

open Sys2Proof

/-- NOP: NOP in any slot waits and signals as its fields name and does nothing else (R251). -/
def execNop (c : BCtl) (slot : SlotPos) (s : State) : Host.Outcome State Fault Refusal :=
  .next (issueSlot c slot .nop s)

/-- REPLAY: REPLAY takes the full pending sets, checks the stamps and restarts at the entry, or stalls (R230). -/
def execReplay (c : BCtl) (s : State) : Host.Outcome State Fault Refusal :=
  .next (issueSlot c .sync .replay s)

/-- BARRIER: BARRIER sends this brick's arrival at a barrier (R253). -/
def execBarrier (c : BCtl) (rel : BitVec 6) (b : Fin 4) (s : State) : Host.Outcome State Fault Refusal :=
  .next (issueSlot c .sync (.barrier rel b) s)

/-- CLEAR: CLEAR sets a named flag or counter to 0 (R254). -/
def execClear (c : BCtl) (id : BitVec 6) (s : State) : Host.Outcome State Fault Refusal :=
  .next (issueSlot c .sync (.clear id) s)

end Sys2Proof.Machine
end

