-- ==== Sys2Proof/Machine/NativeVector.lean ====
section
/-!
DEFINITION. The vector slot: element-wise work, lookups, reductions, staging and the quantiser (Tables 5 to 7 of the bundle chapter). Each command puts its slot into the bundle that its
brick is gathering; the slot that ends the bundle brings it up for issue.
-/

namespace Sys2Proof.Machine

open Sys2Proof

/-- VADD: lane-wise FP32 add (R260). -/
def execVadd (c : BCtl) (vd va vb : VReg) (s : State) : Host.Outcome State Fault Refusal :=
  .next (issueSlot c .vector (.v2 0x01 vd va vb) s)

/-- VSUB: lane-wise FP32 subtract (R260). -/
def execVsub (c : BCtl) (vd va vb : VReg) (s : State) : Host.Outcome State Fault Refusal :=
  .next (issueSlot c .vector (.v2 0x02 vd va vb) s)

/-- VMUL: lane-wise FP32 multiply (R260). -/
def execVmul (c : BCtl) (vd va vb : VReg) (s : State) : Host.Outcome State Fault Refusal :=
  .next (issueSlot c .vector (.v2 0x03 vd va vb) s)

/-- VMIN: lane-wise minimum (R260). -/
def execVmin (c : BCtl) (vd va vb : VReg) (s : State) : Host.Outcome State Fault Refusal :=
  .next (issueSlot c .vector (.v2 0x04 vd va vb) s)

/-- VMAX: lane-wise maximum (R260). -/
def execVmax (c : BCtl) (vd va vb : VReg) (s : State) : Host.Outcome State Fault Refusal :=
  .next (issueSlot c .vector (.v2 0x05 vd va vb) s)

/-- VABS: lane-wise absolute value, as a move (R260). -/
def execVabs (c : BCtl) (vd va : VReg) (s : State) : Host.Outcome State Fault Refusal :=
  .next (issueSlot c .vector (.v1 0x06 vd va) s)

/-- VNEG: lane-wise negation, as a move (R260). -/
def execVneg (c : BCtl) (vd va : VReg) (s : State) : Host.Outcome State Fault Refusal :=
  .next (issueSlot c .vector (.v1 0x07 vd va) s)

/-- VMOV: bit-for-bit vector copy (R260). -/
def execVmov (c : BCtl) (vd va : VReg) (s : State) : Host.Outcome State Fault Refusal :=
  .next (issueSlot c .vector (.v1 0x08 vd va) s)

/-- VBCS: broadcasts a scalar register's bits to every lane (R260). -/
def execVbcs (c : BCtl) (vd : VReg) (rs : SReg) (s : State) : Host.Outcome State Fault Refusal :=
  .next (issueSlot c .vector (.vbcs vd rs) s)

/-- VLUT: applies an activation lookup table lane by lane (R224). -/
def execVlut (c : BCtl) (vd va : VReg) (table : Fin 4) (win : Fin 4) (s : State) : Host.Outcome State Fault Refusal :=
  .next (issueSlot c .vector (.vlut vd va table win) s)

/-- VACC: copies one accumulator row into a vector register (R225). -/
def execVacc (c : BCtl) (vd : VReg) (bank : Fin 8) (row : Fin 128) (s : State) : Host.Outcome State Fault Refusal :=
  .next (issueSlot c .vector (.vacc vd bank row) s)

/-- VLD: loads 512 bytes of BMEM into a vector register (R262). -/
def execVld (c : BCtl) (vd : VReg) (win : Fin 4) (rs : SReg) (s : State) : Host.Outcome State Fault Refusal :=
  .next (issueSlot c .vector (.vld vd win rs) s)

/-- VPUT: writes a vector register to the staging area (R262). -/
def execVput (c : BCtl) (va : VReg) (unit : BitVec 11) (s : State) : Host.Outcome State Fault Refusal :=
  .next (issueSlot c .vector (.vput va unit) s)

/-- VRSUM: sums 128 lanes in ascending order into lane 0 (R261). -/
def execVrsum (c : BCtl) (vd va : VReg) (s : State) : Host.Outcome State Fault Refusal :=
  .next (issueSlot c .vector (.v1 0x14 vd va) s)

/-- VRMAX: takes the maximum of 128 lanes into lane 0 (R261). -/
def execVrmax (c : BCtl) (vd va : VReg) (s : State) : Host.Outcome State Fault Refusal :=
  .next (issueSlot c .vector (.v1 0x15 vd va) s)

/-- QNT: quantises one pallet row into codes, with outlier codes and statistics (R264). -/
def execQnt (c : BCtl) (va : VReg) (qd : Fin 32) (unit : BitVec 11) (row : Fin 128) (nanMode : Bool) (win : Fin 4) (s : State) : Host.Outcome State Fault Refusal :=
  .next (issueSlot c .vector (.qnt va qd unit row nanMode win) s)

/-- QSCAN: updates the outlier maxima from a row and, when final, writes the exponents (R265). -/
def execQscan (c : BCtl) (va : VReg) (qd : Fin 32) (unit : BitVec 11) (row : Fin 128) (final : Bool) (win : Fin 4) (s : State) : Host.Outcome State Fault Refusal :=
  .next (issueSlot c .vector (.qscan va qd unit row final win) s)

end Sys2Proof.Machine
end

