-- ==== Sys2Proof/Machine/Registers.lean ====
section
/-!
DEFINITION. The register map: what a read returns and clears, and what a write of a register does (R10, R427, R483, R531, R534 to R543 and
the register tables of every chapter). A place is a space and an offset in it: space 0 is PF BAR0, space p + 1 the window of partition p.
-/

namespace Sys2Proof.Machine

open Sys2Proof

/-- One 8-byte word of a byte array. -/
def wordAt (bs : List Byte) (i : Nat) : Nat := leNat ((bs.drop (8 * i)).take 8)

/-- Whether an offset is entry n of an array of `len` registers of some bytes from a base: the entry. -/
def entryAt (o base step len : Nat) : Option Nat :=
  if base ≤ o ∧ o < base + step * len ∧ (o - base) % step = 0 then some ((o - base) / step) else none

/-! ### What each block reads -/

/-- A register of DEV (R539, R540). -/
def devReg (s : State) (o : Nat) : Option Reg :=
  match o with
  | 0x00 => r4 (0x0040 * 2 ^ 16 + s.dev.vendor.toNat)
  | 0x04 => r4 s.dev.revision.toNat
  | 0x08 => r8 s.dev.serial.toNat
  | 0x10 => r8 s.dev.deviceId.toNat
  | 0x20 => r8 (devCaps s)
  | 0x28 => r4 s.dev.capsGen.toNat
  | 0x30 => r4 (devStatus s)
  | 0x38 => r4 s.dev.intStatus.toNat
  | 0x3C => r4 (intEnable s).toNat
  | _ => (entryAt o 0x1000 4 256).bind (fun b => r4 (brickMap s b))

/-- The bounds that WDN_BOUND_ILO to WDN_BOUND_HI show: 0 for indices 17 to 31. -/
def shownBounds (s : State) : (Nat × Nat) × (Nat × Nat) :=
  let (i, p) := selLoop s
  if 17 ≤ i then ((0, 0), (0, 0))
  else
    let o := operatorBound s i p
    (installerBound s i p, (mapGet o.1 s.loops.stagedLo (loopKey i p), o.2))

/-- The fault record of the selected slot. -/
def shownFault (s : State) : List Byte := mapGet [] s.flt.records s.flt.sel

/-- The audit record of the selected slot, and the anchor: 0 without a session on the PF path (R514). -/
def shownAudit (s : State) : List Byte := if (sessionOf s .pf).isSome then mapGet [] s.auth.ring s.auth.sel else []
def shownAnchor (s : State) : List Byte := if (sessionOf s .pf).isSome then beBytes 16 s.auth.anchor.toNat else []

/-- A register of WDN (R395, R479, R480, R500, R514). -/
def wdnReg (s : State) (o : Nat) : Option Reg :=
  match o with
  | 0x100 => r8 s.st.addr.toNat
  | 0x108 => r4 s.st.len.toNat
  | 0x110 => r4 0
  | 0x114 => r4 (structStatus s.st)
  | 0x118 => r4 (s.st.detailSection.toNat * 2 ^ 27 + s.st.detailOffset.toNat)
  | 0x11C => r4 s.st.epoch.toNat
  | 0x130 => r4 s.loops.sel.toNat
  | 0x134 => r4 (shownBounds s).1.1
  | 0x138 => r4 (shownBounds s).1.2
  | 0x13C => r4 (shownBounds s).2.1
  | 0x140 => r4 (shownBounds s).2.2
  | 0x148 => r4 (loopStatus s)
  | 0x200 => r4 s.flt.head.toNat
  | 0x204 => r4 s.flt.sel
  | 0x230 => r4 (repairStatus s)
  | 0x234 => r4 s.flt.repairGen.toNat
  | 0x300 => r4 (kilnStatus s)
  | 0x304 => r4 s.power.readyMs
  | 0x310 => r4 (holdupStatus s)
  | 0x318 => r8 (powerStatus s)
  | 0x320 => r4 0
  | 0x500 => r4 (authCtl s)
  | 0x5C0 => r8 s.auth.keyAddr.toNat
  | 0x5C8 => r4 0
  | 0x600 => r4 s.auth.head.toNat
  | 0x604 => r4 (s.auth.suppressed.toNat * 2 ^ 24 + s.auth.sel)
  | _ =>
    if let some i := entryAt o 0x208 8 4 then r8 (wordAt (shownFault s) i)
    else if let some n := entryAt o 0x280 8 10 then r8 (mapGet 0 s.flt.cnt n).toNat
    else if let some j := entryAt o 0x400 8 18 then r8 (if j < cdieCount s then islandWord s j else 0)
    else if let some i := entryAt o 0x508 8 6 then r8 (wordAt (nonceBytes s) i)
    else if (entryAt o 0x540 4 24).isSome then r4 0
    else if let some i := entryAt o 0x610 8 8 then r8 (wordAt (shownAudit s) i)
    else if let some i := entryAt o 0x650 8 2 then r8 (wordAt (shownAnchor s) i)
    else if let some i := entryAt o 0x80000 8 0x3000 then r8 (leNat (memBytes s.power.critView (8 * i) 8))
    else none

/-- A register of EPO (R543). -/
def epoReg (s : State) (o : Nat) : Option Reg :=
  match o with
  | 0x00 => r8 s.dev.lastTc.toNat
  | 0x08 => r8 (nextTc s).toNat
  | 0x10 => r4 (epoKind s)
  | _ => none

/-- A register of OBS (R533). -/
def obsReg (s : State) (o : Nat) : Option Reg :=
  match o with
  | 0x000 => r8 s.time.wall.toNat
  | 0x008 => r4 (wallCtl s)
  | 0x010 => r8 s.time.todNext.toNat
  | 0x100 => r4 s.obs.histSel.toNat
  | 0x104 => r4 0
  | 0x280 => r8 (shownHist s).total.toNat
  | 0x288 => r8 (shownHist s).mn.toNat
  | 0x290 => r8 (shownHist s).mx.toNat
  | 0x298 => r8 0
  | 0x300 => r4 (s.obs.kinds.toNat * 2 + b2n s.obs.ringOn)
  | 0x340 => r4 (rubbleStatus s)
  | 0x348 => r4 s.obs.stageSel.toNat
  | 0x400 => r8 s.obs.dropCnt.toNat
  | 0x408 => r8 s.obs.skipCnt.toNat
  | _ =>
    if let some b := entryAt o 0x200 4 32 then r4 (mapGet 0 (shownHist s).bins b)
    else if let some i := entryAt o 0x308 8 4 then r8 (mapGet 0 s.obs.tracePtr i)
    else none

/-- A register of L-die l (R46, R421, R422). -/
def lnkReg (s : State) (l o : Nat) : Option Reg :=
  if let some n := entryAt o 0x100 8 16 then r8 (portWord s (16 * l + n))
  else if let some n := entryAt o 0x400 8 104 then r8 (laneWord s l n)
  else if let some n := entryAt o 0x800 8 17 then r8 (mapGet 0 (ldieAt s l).cnt n).toNat
  else if let some e := entryAt o 0x1000 4 256 then r4 (steerOf (ldieAt s l) e).val
  else none

/-- The key of a P-die's counter at an offset (R62, R95, R118, R145, R347). -/
def pdieCounter (o : Nat) : Option Nat :=
  if let some n := entryAt o 0x200 8 10 then some n
  else if let some n := entryAt o 0x900 8 15 then some (100 + n)
  else if let some n := entryAt o 0xD00 8 11 then some (200 + n)
  else none

/-- A register of P-die p (R61, R62, R94, R95, R118). -/
def pktReg (s : State) (p o : Nat) : Option Reg :=
  if o = 0x100 then r4 (parseStatus s p)
  else if o = 0x800 then r4 (flowStatus s p)
  else if o = 0x808 then r8 (flowOccupancy s p)
  else if o = 0xC60 then r8 (treeStoreFree s)
  else if let some l := entryAt o 0xC00 8 12 then r8 (treeBank s l)
  else (pdieCounter o).bind (fun k => r8 (mapGet 0 (pdieAt s p).cnt k).toNat)

/-- The key of an S-die's counter at an offset (R317, R347). -/
def sdieCounter (o : Nat) : Option Nat :=
  if let some n := entryAt o 0x200 8 9 then some n
  else if let some n := entryAt o 0x300 8 11 then some (100 + n)
  else none

/-- A register of S-die i (R316, R317, R347). -/
def strReg (s : State) (i o : Nat) : Option Reg :=
  if o = 0 then r4 (strStatus s i)
  else if o = 8 then r8 (strBw (sdieAt s i))
  else if o = 0x10 then r8 (strErr (sdieAt s i))
  else (sdieCounter o).bind (fun k => r8 (mapGet 0 (sdieAt s i).cnt k).toNat)

/-- A PRT_ register of partition p. -/
def prtReg (s : State) (p o : Nat) : Option Reg :=
  let x := partAt s p
  let l := (modelAt s p).load
  match o with
  | 0x000 => r4 (prtFunc s p)
  | 0x008 => r4 0
  | 0x040 => r4 (prtCascade s p)
  | 0x080 => r4 (prtFlow x)
  | 0x084 => r4 x.flowQuota.toNat
  | 0x088 => r4 (prtFlowCount s p % 2 ^ 24)
  | 0x0C0 => r4 x.tree.toNat
  | 0x0C4 => r4 (prtTreeUse s p)
  | 0x100 => r4 x.drift.ctl.toNat
  | 0x104 => r4 (prtDriftStatus x.drift)
  | 0x108 => r4 (prtTemperStatus x.drift)
  | 0x10C => r4 0
  | 0x140 => r4 (prtXlate l)
  | 0x144 => r4 (prtXlateInfo l)
  | 0x180 => r8 x.stream.toNat
  | 0x188 => r4 (x.scratchMib % 2 ^ 16)
  | 0x1C0 => r4 x.seqCtl.toNat
  | 0x1C4 => r4 x.seqAdv.toNat
  | 0x1C8 => r4 x.seqThresh.toNat
  | 0x1CC => r4 (x.seqQuota % 2 ^ 26)
  | 0x1D0 => r4 (prtSeqCount s p % 2 ^ 26)
  | 0x200 => r8 l.addr.toNat
  | 0x208 => r8 l.len.toNat
  | 0x210 => r4 l.ctl.toNat
  | 0x214 => r4 0
  | 0x218 => r4 (loadStatus l)
  | 0x21C => r4 (prtLoadDetail l)
  | 0x220 => r8 l.report.toNat
  | 0x228 => r4 (prtEpoch s p)
  | 0x22C => r4 (prtEpochStatus s p)
  | 0x240 => r4 (prtQos x)
  | 0x280 => r4 (prtFault x.fault)
  | _ => none

/-- A register of a partition's window (R427, R443). -/
def winReg (s : State) (p o : Nat) : Option Reg :=
  let x := partAt s p
  if o = 0 then r4 (vfInfo x p)
  else if 0x100 ≤ o ∧ o < 0x280 then
    let y := ringAt x ((o - 0x100) / 0x40)
    match (o - 0x100) % 0x40 with
    | 0x00 => r8 y.base.toNat
    | 0x08 => r8 y.wb.toNat
    | 0x10 => r4 (ringCtl y)
    | 0x18 => r4 y.prod.toNat
    | 0x20 => r4 y.cons.toNat
    | 0x28 => r4 (ringMod y)
    | _ => none
  else if (entryAt o 0x1000 8 6).isSome then r8 0
  else if let some n := entryAt o 0x2000 8 13 then r8 (mapGet 0 x.cnt n).toNat
  else if o = 0x3000 then r4 (vfIntStatus x)
  else if 0x8000 ≤ o ∧ o < 0x8080 then
    let v := vecAt x ((o - 0x8000) / 16)
    match (o - 0x8000) % 16 with
    | 0 => r8 v.addr.toNat
    | 8 => r4 v.data.toNat
    | 12 => r4 (b2n v.mask)
    | _ => none
  else if o = 0x9000 then r8 (pendingBits x)
  else none

/-! ### The staging window (R531) -/

/-- What OBS_STAGE_SEL names: a rubble slot (its number), or a trace ring (4 and its number). -/
def stageKey (s : State) : Option Nat :=
  let v := s.obs.stageSel.toNat
  match bits 9 8 v with
  | 1 => if bits 5 0 v < 4 then some (bits 5 0 v) else none
  | 2 => some (4 + bits 7 6 v)
  | _ => none

/-- The record in a slot of a trace ring: that of the newest 2^26 records whose number has the slot (Table 14 of the observation chapter). -/
def traceSlot (s : State) (ring slot : Nat) : List Byte :=
  let l := mapGet [] s.obs.traceRing ring
  let w := mapGet 0 s.obs.tracePtr ring
  let oldest := w - l.length
  l.getD ((slot + 2 ^ 26 - oldest % 2 ^ 26) % 2 ^ 26) []

/-- The 8 bytes of the staging window at an offset from its base: 0 without an installer session on the PF path. -/
def stageWord (s : State) (o : Nat) : Nat :=
  match (if allowed s .pf installerRights then stageKey s else none) with
  | none => 0
  | some k =>
    if k < 4 then
      match mapFind k s.obs.rubble with
      | some r => if r.written then leNat ((r.bytes.drop o).take 8) else 0
      | none => 0
    else
      let slot := bits 5 0 s.obs.stageSel.toNat * 2 ^ 20 + o / 32
      leNat (((traceSlot s (k - 4) slot).drop (o % 32)).take 8)

/-! ### PF BAR0 (R483, R534, R535) -/

/-- Whether a C-die of the grade is OFF or RETIRED: none of its bricks has power, or the repair map retires it. -/
def cdieDark (s : State) (c : Nat) : Bool :=
  s.flt.retiredCdies.contains c || (courseBricks c).all (fun b => (brickAt s b).c.phase == .off)

/-- A register of a brick; of a C-die that is OFF or RETIRED only BRK_STATE's state reads (R535). -/
def crsReg (s : State) (o : Nat) : Option Reg :=
  let c := o / 0x100000
  let x := brickAt s (c * 16 + o % 0x100000 / 0x10000)
  match brkReg x (o % 0x10000) with
  | none => none
  | some r =>
    if cdieCount s ≤ c then some { r with val := 0 }
    else if cdieDark s c then some { r with val := if o % 0x10000 = 0 then phaseCode x.c.phase else 0 }
    else some r

/-- A register that reads 0 while its die is retired (R535). -/
def dark (gone : Bool) (r : Option Reg) : Option Reg := if gone then r.map (fun x => { x with val := 0 }) else r

/-- A register of PF BAR0 at its own offset. Before K3 is complete every block but DEV and WDN reads 0 (R483). -/
def pfReg (s : State) (o : Nat) : Option Reg :=
  if o < 0x100000 then devReg s o
  else if o < 0x200000 then wdnReg s (o - 0x100000)
  else
    dark (!s.power.k3done) (
      if o < 0x300000 then epoReg s (o - 0x200000)
      else if o < 0x400000 then obsReg s (o - 0x300000)
      else if o < 0x500000 then
        let l := (o - 0x400000) / 0x40000
        dark (unitRetired s 13 (dieUnit 3 l)) (lnkReg s l (o % 0x40000))
      else if o < 0x600000 then
        let p := (o - 0x500000) / 0x40000
        dark (unitRetired s 3 (dieUnit 1 p)) (pktReg s p (o % 0x40000))
      else if o < 0x700000 then
        let i := (o - 0x600000) / 0x40000
        dark (unitRetired s 10 (dieUnit 4 i)) (strReg s i (o % 0x40000))
      else if 0x1000000 ≤ o ∧ o < 0x2200000 then crsReg s (o - 0x1000000)
      else if 0x3000000 ≤ o ∧ o < 0x3100000 then prtReg s ((o - 0x3000000) / 0x400) (o % 0x400)
      else if 0x4000000 ≤ o ∧ o < 0x6000000 ∧ o % 8 = 0 then r8 (stageWord s (o - 0x4000000))
      else if 0x6000000 ≤ o ∧ o < 0x8000000 ∧ o % 8 = 0 then r8 0
      else none)

/-- A register at a place. -/
def regAt (s : State) (sp o : Nat) : Option Reg := if sp = 0 then pfReg s o else winReg s (sp - 1) o

/-! ### Reads (R10, R11, R536, R538) -/

/-- One counter of a table cleared. -/
def cntZero (k : Nat) (m : Map (BitVec 48)) : Map (BitVec 48) := mapDel k m

/-- What a clearing read does to the register at a place: none where the register has no RCLR field. -/
def clearAt (sp o : Nat) : Option (State → State) :=
  if sp ≠ 0 then
    (entryAt o 0x2000 8 13).map (fun n => modPart (sp - 1) (fun x => { x with cnt := cntZero n x.cnt }))
  else if o = 0x100604 then some (fun s => { s with auth := { s.auth with suppressed := 0 } })
  else if o = 0x300400 then some (fun s => { s with obs := { s.obs with dropCnt := 0 } })
  else if o = 0x300408 then some (fun s => { s with obs := { s.obs with skipCnt := 0 } })
  else if o < 0x200000 then
    (entryAt o 0x100280 8 10).map (fun n => fun s => { s with flt := { s.flt with cnt := cntZero n s.flt.cnt } })
  else if 0x400000 ≤ o ∧ o < 0x500000 then
    let l := (o - 0x400000) / 0x40000
    if let some n := entryAt (o % 0x40000) 0x400 8 104 then some (modLane l n (fun x => { x with fecUncorr := 0 }))
    else (entryAt (o % 0x40000) 0x800 8 17).map (fun n => modLdie l (fun x => { x with cnt := cntZero n x.cnt }))
  else if 0x500000 ≤ o ∧ o < 0x600000 then
    (pdieCounter (o % 0x40000)).map (fun k => modPdie ((o - 0x500000) / 0x40000) (fun x => { x with cnt := cntZero k x.cnt }))
  else if 0x600000 ≤ o ∧ o < 0x700000 then
    (sdieCounter (o % 0x40000)).map (fun k => modSdie ((o - 0x600000) / 0x40000) (fun x => { x with cnt := cntZero k x.cnt }))
  else if 0x1000000 ≤ o ∧ o < 0x2200000 ∧ [0x418, 0x1180, 0x1188].contains (o % 0x10000) then
    some (modBrick ((o - 0x1000000) / 0x100000 * 16 + o % 0x100000 / 0x10000) (brkClear (o % 0x10000)))
  else none

/-- Whether the registers of a place are readable now (R483, R535): a clearing read of one that is not has no effect. -/
def hidden (s : State) (sp o : Nat) : Bool :=
  sp == 0 && ((decide (0x200000 ≤ o) && !s.power.k3done)
    || (decide (0x400000 ≤ o) && decide (o < 0x500000) && unitRetired s 13 (dieUnit 3 ((o - 0x400000) / 0x40000)))
    || (decide (0x500000 ≤ o) && decide (o < 0x600000) && unitRetired s 3 (dieUnit 1 ((o - 0x500000) / 0x40000)))
    || (decide (0x600000 ≤ o) && decide (o < 0x700000) && unitRetired s 10 (dieUnit 4 ((o - 0x600000) / 0x40000)))
    || (decide (0x1000000 ≤ o) && decide (o < 0x2200000)
        && (decide (cdieCount s ≤ (o - 0x1000000) / 0x100000) || cdieDark s ((o - 0x1000000) / 0x100000))))

/-- The effect of a clearing read at a place, if the register there has one and is readable. -/
def clearNow (s : State) (sp o : Nat) : Option (State → State) := if hidden s sp o then none else clearAt sp o

/-- The key of a latched high half. -/
def latchKey (sp o : Nat) : Nat := sp * 2 ^ 27 + o

/-- Bytes of a number from byte k on. -/
def slice (v k n : Nat) : Nat := v / 2 ^ (8 * k) % 2 ^ (8 * n)

/-- The value of a register for a read: the temperature of an island, which nothing determines, is free; the first read of a dump in a session is
audited. -/
def sampled (sp o : Nat) (v : Nat) (s : State) : Nat × State :=
  match (if sp = 0 then entryAt o 0x100400 8 18 else none) with
  | some j =>
    if j < cdieCount s then
      let f := takeFree s
      (v + f.1.toNat % 2 ^ 8 * 2 ^ 40, f.2)
    else (v, s)
  | none =>
    if sp = 0 ∧ 0x4000000 ≤ o ∧ o < 0x6000000 ∧ s.power.k3done = true ∧ allowed s .pf installerRights = true then
      match stageKey s with
      | some k => if auditFull s then (0, s) else (v, auditExport .pf k s)
      | none => (v, s)
    else (v, s)

/-- A read of n bytes inside one 8-byte word. -/
def readWithin (sp o n : Nat) (s : State) : Nat × State :=
  let b := o / 8 * 8
  let k := o - b
  match regAt s sp b with
  | some ⟨8, v⟩ =>
    match clearNow s sp b with
    | none =>
      let r := sampled sp b v s
      (slice r.1 k n, r.2)
    | some clear =>
      let key := latchKey sp b
      if n = 8 then
        let s := clear s
        (v, { s with dev := { s.dev with latchedHigh := mapDel key s.dev.latchedHigh } })
      else if k < 4 then
        let s := clear s
        (slice v k n, { s with dev := { s.dev with latchedHigh := mapSet key (BitVec.ofNat 32 (v / 2 ^ 32)) s.dev.latchedHigh } })
      else match mapFind key s.dev.latchedHigh with
        | some h => (slice h.toNat (k - 4) n, { s with dev := { s.dev with latchedHigh := mapDel key s.dev.latchedHigh } })
        | none => (slice v k n, s)
  | lo =>
    let val := fun (r : Option Reg) => match r with
      | some ⟨4, v⟩ => v
      | _ => 0
    let v := val lo + val (regAt s sp (b + 4)) * 2 ^ 32
    let s := if k < 4 then (match clearNow s sp b with
      | some clear => clear s
      | none => s) else s
    let s := if 4 < k + n then (match clearNow s sp (b + 4) with
      | some clear => clear s
      | none => s) else s
    (slice v k n, s)

/-- The bytes of an access. -/
def sizeOf_ : AccessSize → Nat
  | .b1 => 1
  | .b2 => 2
  | .b4 => 4
  | .b8 => 8

/-- The space that a function's access reaches, if it reaches one now: the link is up, the function exists and is in D0 (R423, R427). -/
def spaceOf (s : State) (fn : Fn) : Option Nat :=
  let p := match fn with
    | .pf => 0
    | .pfWindow => 0
    | .vf p => p.val
  if !s.power.pcieUp || s.power.off || s.power.holdup.isSome || !fnExists s p || (partAt s p).d3hot then none
  else match fn with
    | .pf => some 0
    | .pfWindow => some 1
    | .vf p => if p = 0 then none else some (p.val + 1)

/-- The bytes of a space. -/
def spaceSize (sp : Nat) : Nat := if sp = 0 then 0x8000000 else 0x10000

/-- RCLR_READ (R10, R536, R538): a read through a function's BAR; what it returns stands in `readData`. An access across an 8-byte boundary is two. -/
def execRclrRead (fn : Fn) (offset : Nat) (size : AccessSize) (s : State) : Out :=
  let n := sizeOf_ size
  .next (match spaceOf s fn with
    | none => s
    | some sp =>
      if spaceSize sp < offset + n then s
      else
        let n1 := min n (8 - offset % 8)
        let r := readWithin sp offset n1 s
        let q := if n1 < n then readWithin sp (offset + n1) (n - n1) r.2 else (0, r.2)
        { q.2 with dev := { q.2.dev with readData := BitVec.ofNat 64 (r.1 + q.1 * 2 ^ (8 * n1)) } })

/-! ### Writes (R10, R12, R536, R537) -/

/-- The state of an outcome. -/
def stateOf (s : State) : Out → State
  | .next t => t
  | _ => s

/-- A meaning as a change of the state. -/
def via (f : State → Out) (s : State) : State := stateOf s (f s)

/-- bad_access set (R534, R536). -/
def badAccess (s : State) : State := { s with dev := { s.dev with badAccess := true } }

/-- A write of a register of DEV. -/
def writeDev (o v : Nat) (s : State) : State :=
  match o with
  | 0x30 => if bit 24 v then { s with dev := { s.dev with badAccess := false } } else s
  | 0x38 => { s with dev := { s.dev with intStatus := s.dev.intStatus &&& ~~~(BitVec.ofNat 6 v) } }
  | 0x3C => { s with dev := { s.dev with intEn := BitVec.ofNat 4 (bits 5 2 v) } }
  | _ => s

/-- A write of WDN_AUTH_CTL (R504, R514): the slot is kept, then the operation runs; the nonce of an OPEN is free. -/
def writeAuth (v : Nat) (s : State) : State :=
  let slot := bits 12 0 v
  let s := { s with auth := { s.auth with authSlot := slot } }
  match bits 17 16 v with
  | 1 =>
    let b := freeBytes 48 s
    if slot ≤ 10 then via (execOpenSession .pf (BitVec.ofNat 8 slot) (BitVec.ofNat 384 (beNat b.1))) b.2 else s
  | 2 => via (execVerifySession .pf (BitVec.ofNat 768 (beNat (memBytes s.auth.sig 0 96)))) s
  | 3 => via (execCloseSession .pf) s
  | _ => s

/-- A write of a register of WDN. STAGE and the key commands carry what the warden reads by DMA: they are commands of their own. -/
def writeWdn (o v : Nat) (s : State) : State :=
  match o with
  | 0x100 => { s with st := { s.st with addr := BitVec.ofNat 64 (v / 64 * 64) } }
  | 0x108 => { s with st := { s.st with len := BitVec.ofNat 21 v } }
  | 0x110 =>
    match bits 1 0 v with
    | 2 => via (execStructApply .pf) s
    | 3 => via (execStructAbort .pf) s
    | _ => s
  | 0x130 => { s with loops := { s.loops with sel := BitVec.ofNat 32 (bits 25 16 v * 2 ^ 16 + bits 4 0 v) } }
  | 0x13C =>
    let (i, p) := selLoop s
    if allowed s .pf operatorRights && decide (i < 17) then
      touchSession .pf { s with loops := { s.loops with stagedLo := mapSet (loopKey i p) (v % 2 ^ 32) s.loops.stagedLo } }
    else s
  | 0x140 => via (execBoundCommit .pf (BitVec.ofNat 32 (shownBounds s).2.1) (BitVec.ofNat 32 v)) s
  | 0x148 => if bit 27 v then { s with loops := { s.loops with badWrite := false } } else s
  | 0x204 => { s with flt := { s.flt with sel := v % 2 ^ 10 } }
  | 0x320 => if bit 0 v then via (execShutdown .pf) s else s
  | 0x500 => writeAuth v s
  | 0x5C0 => { s with auth := { s.auth with keyAddr := BitVec.ofNat 64 (v / 64 * 64) } }
  | 0x604 => { s with auth := { s.auth with sel := v % 2 ^ 14 } }
  | _ => match entryAt o 0x540 4 24 with
    | some i => { s with auth := { s.auth with sig := memPutBytes (4 * i) (leBytes 4 v) s.auth.sig } }
    | none => s

/-- A write of a register of OBS. -/
def writeObs (o v : Nat) (s : State) : State :=
  match o with
  | 0x008 => if bit 17 v then via (execWallStep .pf) s else s
  | 0x010 => { s with time := { s.time with todNext := BitVec.ofNat 64 v } }
  | 0x100 => { s with obs := { s.obs with histSel := BitVec.ofNat 32 (bits 31 31 v * 2 ^ 31 + bits 13 12 v * 2 ^ 12 + bits 9 0 v) } }
  | 0x104 => if bit 0 v then clearSelected s else s
  | 0x300 =>
    if allowed s .pf installerRights then touchSession .pf { s with obs := { s.obs with kinds := BitVec.ofNat 8 (bits 8 1 v) } } else s
  | 0x340 => (List.finRange 4).foldl (fun s i => if bit (8 + i.val) v then via (execRubbleRelease .pf i) s else s) s
  | 0x348 => { s with obs := { s.obs with stageSel := BitVec.ofNat 32 (v % 2 ^ 10) } }
  | _ => s

/-- A write of PRT_LOAD_CMD: PARAM carries the block that the loader reads by DMA, and is a command of its own. -/
def writeLoadCmd (p : Part) (op : Nat) (s : State) : State :=
  match op with
  | 1 => via (execLoadPrepare .pf p) s
  | 2 => via (execLoadCommit .pf p) s
  | 3 => via (execLoadAbort .pf p) s
  | 4 => via (execLoadUnload .pf p) s
  | _ => s

/-- A write of PRT_RETEMPER_CMD: more than one bit is ignored (R175). -/
def writeTemperCmd (p : Part) (v : Nat) (s : State) : State :=
  match bits 2 0 v with
  | 1 => via (execRetemperStart .pf p) s
  | 2 => via (execRetemperRevert .pf p) s
  | 4 => via (execRetemperRelease .pf p) s
  | _ => s

/-- A write of a PRT_ register by the PF driver. -/
def writePrt (p : Part) (o v : Nat) (s : State) : State :=
  let part := fun (f : PartSt → PartSt) => modPart p.val f s
  let load := fun (f : LoadSt → LoadSt) => modModel p.val (fun m => { m with load := f m.load }) s
  match o with
  | 0x008 => if bit 0 v then via (execResetRequest .pf p) s else s
  | 0x040 => part (fun x => { x with cascade := cascadeOf (bit 0 x.cascade.toNat) (BitVec.ofNat 32 v) })
  | 0x080 => part (fun x => { x with flow := BitVec.ofNat 32 (min 3600 (bits 31 20 v) * 2 ^ 20 + bits 19 18 v * 2 ^ 18) })
  | 0x084 => part (fun x => { x with flowQuota := BitVec.ofNat 32 (v % 2 ^ 24) })
  | 0x0C0 => part (fun x => { x with tree := BitVec.ofNat 32 (bitAt 31 (bit 31 v) + min 262144 (bits 18 0 v)) })
  | 0x100 => via (execDriftCtlWrite .pf p (BitVec.ofNat 32 v)) s
  | 0x10C => writeTemperCmd p v s
  | 0x188 => part (fun x => { x with scratchMib := min (scratchMax s) (v % 2 ^ 16) })
  | 0x1C4 => command .pf operatorRights 0x0028 p.val id (modPart p.val (fun x => { x with seqAdv := seqAdvOf (BitVec.ofNat 32 v) })) s
  | 0x1C8 => command .pf operatorRights 0x0028 p.val id (modPart p.val (fun x => { x with seqThresh := seqThreshOf (BitVec.ofNat 32 v) })) s
  | 0x200 => load (fun l => { l with addr := BitVec.ofNat 64 (v / 64 * 64) })
  | 0x208 => load (fun l => { l with len := BitVec.ofNat 32 v })
  | 0x210 => load (fun l => { l with ctl := BitVec.ofNat 32 (bits 31 16 v * 2 ^ 16 + bits 4 1 v * 2) })
  | 0x214 => writeLoadCmd p (bits 2 0 v) s
  | _ => s

/-- A write of a register of PF BAR0. -/
def writePf (o v : Nat) (s : State) : State :=
  if o < 0x100000 then writeDev o v s
  else if o < 0x200000 then writeWdn (o - 0x100000) v s
  else if hidden s 0 o then s
  else if 0x300000 ≤ o ∧ o < 0x400000 then writeObs (o - 0x300000) v s
  else if 0x600000 ≤ o ∧ o < 0x700000 ∧ o % 0x40000 = 0x10 ∧ bit 63 v = true then
    modSdie ((o - 0x600000) / 0x40000) (fun x => { x with errValid := false }) s
  else if 0x1000000 ≤ o ∧ o < 0x2200000 then
    modBrick ((o - 0x1000000) / 0x100000 * 16 + o % 0x100000 / 0x10000) (brkWrite (o % 0x10000) v) s
  else if 0x3000000 ≤ o ∧ o < 0x3100000 then writePrt (Fin.ofNat 1024 ((o - 0x3000000) / 0x400)) (o % 0x400) v s
  else s

/-- A write of an MSI-X table entry. -/
def writeVec (p v o val : Nat) (s : State) : State :=
  match o with
  | 0 => modPart p (modVec v (fun y => { y with addr := BitVec.ofNat 64 val })) s
  | 8 => modPart p (modVec v (fun y => { y with data := BitVec.ofNat 32 val })) s
  | _ => if bit 0 val then modPart p (modVec v (fun y => { y with mask := true })) s else unmaskVec p v s

/-- A write of a ring's register (Table 11 of the partition chapter). -/
def writeRing (p r o v : Nat) (s : State) : State :=
  let ring := fun (f : RingSt → RingSt) => modPart p (modRing r f) s
  match o with
  | 0x00 => ring (fun y => if y.enable then y else { y with base := BitVec.ofNat 64 (v / 4096 * 4096) })
  | 0x08 => ring (fun y => if y.enable then y else { y with wb := BitVec.ofNat 64 (v / 8 * 8) })
  | 0x10 => writeRingCtl p r (BitVec.ofNat 32 v) s
  | 0x28 => ring (fun y => { y with delayUs := max 1 (bits 27 16 v), count := max 1 (bits 15 0 v) })
  | _ => s

/-- A write of a register of a partition's window: ignored during a reset but for the MSI-X table (R441). -/
def writeWin (p o v : Nat) (s : State) : State :=
  if 0x8000 ≤ o ∧ o < 0x8080 then writeVec p ((o - 0x8000) / 16) ((o - 0x8000) % 16) v s
  else if fenced s p then s
  else if 0x100 ≤ o ∧ o < 0x280 then writeRing p ((o - 0x100) / 0x40) ((o - 0x100) % 0x40) v s
  else if let some r := entryAt o 0x1000 8 6 then via (execRingDoorbell (Fin.ofNat 1024 p) (Fin.ofNat 8 r) (BitVec.ofNat 32 v)) s
  else if o = 0x3000 then
    modPart p (fun x => { x with badDoorbell := x.badDoorbell && !bit 9 v, eventLost := x.eventLost && !bit 8 v,
                                 ringNew := x.ringNew &&& ~~~(BitVec.ofNat 8 (bits 5 0 v)) }) s
  else s

/-- A write of a whole register at a place. -/
def writeReg (sp o v : Nat) (s : State) : State := if sp = 0 then writePf o v s else writeWin (sp - 1) o v s

/-- The block of a place (R537): a row of Table 1 of the address chapter, or a window. -/
def blockOf (sp o : Nat) : Nat :=
  if sp ≠ 0 then 100 + sp
  else if o < 0x700000 then o / 0x100000
  else if o < 0x1000000 then 10
  else if o < 0x2200000 then 11
  else if o < 0x3000000 then 12
  else if o < 0x3100000 then 13
  else if o < 0x4000000 then 14
  else 15

/-- A held low half dropped. -/
def dropHeld (b : Nat) (s : State) : State := { s with dev := { s.dev with heldLow := mapDel b s.dev.heldLow } }

/-- The high half of a 64-bit register written alone: the low half of a register that can be written keeps its value; a doorbell has none there. -/
def writeHigh (sp o v cur : Nat) (s : State) : State :=
  if sp ≠ 0 ∧ (entryAt o 0x1000 8 6).isSome = true then s else writeReg sp o (cur % 2 ^ 32 + v * 2 ^ 32) s

/-- A write of 4 bytes at a multiple of 4 (R537). -/
def write4 (sp o v : Nat) (s : State) : State :=
  let b := o / 8 * 8
  let k := blockOf sp o
  match regAt s sp b with
  | some ⟨8, cur⟩ =>
    if o = b then { s with dev := { s.dev with heldLow := mapSet k (b, BitVec.ofNat 32 v) s.dev.heldLow } }
    else match mapFind k s.dev.heldLow with
      | some (a, low) => if a = b then writeReg sp b (low.toNat + v * 2 ^ 32) (dropHeld k s) else writeHigh sp b v cur (dropHeld k s)
      | none => writeHigh sp b v cur s
  | _ =>
    match regAt s sp o with
    | some ⟨4, _⟩ => writeReg sp o v (dropHeld k s)
    | _ => if sp = 0 then badAccess (dropHeld k s) else dropHeld k s

/-- A write of n bytes inside one 8-byte word (R536). -/
def writeWithin (sp o n v : Nat) (s : State) : State :=
  if n = 8 then
    match regAt s sp o with
    | some ⟨8, _⟩ => writeReg sp o v (dropHeld (blockOf sp o) s)
    | _ => write4 sp (o + 4) (v / 2 ^ 32) (write4 sp o (v % 2 ^ 32) s)
  else if n = 4 ∧ o % 4 = 0 then write4 sp o v s
  else badAccess (dropHeld (blockOf sp o) s)

/-- REGISTER_WRITE (R10, R534, R536, R537). A register whose write is a command has that command's effect; the commands that carry what the device
reads by DMA have rows of their own. -/
def execRegisterWrite (fn : Fn) (offset : Nat) (size : AccessSize) (value : DWord) (s : State) : Out :=
  let n := sizeOf_ size
  let v := value.toNat % 2 ^ (8 * n)
  .next (match spaceOf s fn with
    | none => s
    | some sp =>
      if spaceSize sp < offset + n then s
      else
        let n1 := min n (8 - offset % 8)
        let s := writeWithin sp offset n1 (v % 2 ^ (8 * n1)) s
        if n1 < n then writeWithin sp (offset + n1) (n - n1) (v / 2 ^ (8 * n1)) s else s)

end Sys2Proof.Machine
end

