-- ==== Sys2Proof/Machine/Dispatch.lean ====
section
/-! DEFINITION. The dispatch of the commands: one arm per constructor of `Instr`, each one direct call of its meaning. -/

namespace Sys2Proof.Machine

open Sys2Proof

/-- The effect of one command on the state (everything but the queue). -/
def exec (i : Instr) (s : State) : Host.Outcome State Fault Refusal :=
  match i with
  | .sliceIn port feed => Sys2Proof.Machine.execSliceIn port feed s
  | .sliceRelease l => Sys2Proof.Machine.execSliceRelease l s
  | .sliceAtPDie p ecc => Sys2Proof.Machine.execSliceAtPDie p ecc s
  | .palletFillTimeout p part target => Sys2Proof.Machine.execPalletFillTimeout p part target s
  | .palletDispatch p pallet => Sys2Proof.Machine.execPalletDispatch p pallet s
  | .palletRetire p pallet => Sys2Proof.Machine.execPalletRetire p pallet s
  | .palletFail p pallet how => Sys2Proof.Machine.execPalletFail p pallet how s
  | .deadlineExpiry p slot => Sys2Proof.Machine.execDeadlineExpiry p slot s
  | .slowPathVerdict p answer => Sys2Proof.Machine.execSlowPathVerdict p answer s
  | .fragEntryExpire sdie set way => Sys2Proof.Machine.execFragEntryExpire sdie set way s
  | .warmProbeReply p probe => Sys2Proof.Machine.execWarmProbeReply p probe s
  | .warmProbeTimeout p probe => Sys2Proof.Machine.execWarmProbeTimeout p probe s
  | .demotion sdie => Sys2Proof.Machine.execDemotion sdie s
  | .sweeperVisit p => Sys2Proof.Machine.execSweeperVisit p s
  | .warmSweeperVisit sdie => Sys2Proof.Machine.execWarmSweeperVisit sdie s
  | .verdictEgress l => Sys2Proof.Machine.execVerdictEgress l s
  | .verdictFlitTimeout port feed => Sys2Proof.Machine.execVerdictFlitTimeout port feed s
  | .spillTimeout feed => Sys2Proof.Machine.execSpillTimeout feed s
  | .ringSpill part ring => Sys2Proof.Machine.execRingSpill part ring s
  | .idleFlit port flit => Sys2Proof.Machine.execIdleFlit port flit s
  | .initFlit port flit => Sys2Proof.Machine.execInitFlit port flit s
  | .sliceFlit port flit => Sys2Proof.Machine.execSliceFlit port flit s
  | .wallData port flit => Sys2Proof.Machine.execWallData port flit s
  | .wallResult port flit => Sys2Proof.Machine.execWallResult port flit s
  | .wallCtl port flit => Sys2Proof.Machine.execWallCtl port flit s
  | .wallCtlSend peer => Sys2Proof.Machine.execWallCtlSend peer s
  | .wallPeerUnreachable peer => Sys2Proof.Machine.execWallPeerUnreachable peer s
  | .wallTimeout pallet => Sys2Proof.Machine.execWallTimeout pallet s
  | .mirrorFrame port frame damaged => Sys2Proof.Machine.execMirrorFrame port frame damaged s
  | .mirrorBatchTimeout port => Sys2Proof.Machine.execMirrorBatchTimeout port s
  | .laneErrorWindow l lane errors => Sys2Proof.Machine.execLaneErrorWindow l lane errors s
  | .laneLockLoss l lane => Sys2Proof.Machine.execLaneLockLoss l lane s
  | .spareLaneReady l lane => Sys2Proof.Machine.execSpareLaneReady l lane s
  | .portTrainingStart port => Sys2Proof.Machine.execPortTrainingStart port s
  | .portUp port lanes => Sys2Proof.Machine.execPortUp port lanes s
  | .portTrainingTimeout port => Sys2Proof.Machine.execPortTrainingTimeout port s
  | .portTrainingRestart port => Sys2Proof.Machine.execPortTrainingRestart port s
  | .partnerSignalLoss port => Sys2Proof.Machine.execPartnerSignalLoss port s
  | .nop c slot => Sys2Proof.Machine.execNop c slot s
  | .replay c => Sys2Proof.Machine.execReplay c s
  | .barrier c rel b => Sys2Proof.Machine.execBarrier c rel b s
  | .barrierRelease course b => Sys2Proof.Machine.execBarrierRelease course b s
  | .clear c id => Sys2Proof.Machine.execClear c id s
  | .add c rd rs1 rs2 => Sys2Proof.Machine.execAdd c rd rs1 rs2 s
  | .sub c rd rs1 rs2 => Sys2Proof.Machine.execSub c rd rs1 rs2 s
  | .and c rd rs1 rs2 => Sys2Proof.Machine.execAnd c rd rs1 rs2 s
  | .or c rd rs1 rs2 => Sys2Proof.Machine.execOr c rd rs1 rs2 s
  | .xor c rd rs1 rs2 => Sys2Proof.Machine.execXor c rd rs1 rs2 s
  | .sll c rd rs1 rs2 => Sys2Proof.Machine.execSll c rd rs1 rs2 s
  | .srl c rd rs1 rs2 => Sys2Proof.Machine.execSrl c rd rs1 rs2 s
  | .sra c rd rs1 rs2 => Sys2Proof.Machine.execSra c rd rs1 rs2 s
  | .slt c rd rs1 rs2 => Sys2Proof.Machine.execSlt c rd rs1 rs2 s
  | .sltu c rd rs1 rs2 => Sys2Proof.Machine.execSltu c rd rs1 rs2 s
  | .mul c rd rs1 rs2 => Sys2Proof.Machine.execMul c rd rs1 rs2 s
  | .rdcyc c rd => Sys2Proof.Machine.execRdcyc c rd s
  | .afr c rd bank w => Sys2Proof.Machine.execAfr c rd bank w s
  | .addi c rd rs1 imm => Sys2Proof.Machine.execAddi c rd rs1 imm s
  | .andi c rd rs1 imm => Sys2Proof.Machine.execAndi c rd rs1 imm s
  | .ori c rd rs1 imm => Sys2Proof.Machine.execOri c rd rs1 imm s
  | .xori c rd rs1 imm => Sys2Proof.Machine.execXori c rd rs1 imm s
  | .slli c rd rs1 imm => Sys2Proof.Machine.execSlli c rd rs1 imm s
  | .srli c rd rs1 imm => Sys2Proof.Machine.execSrli c rd rs1 imm s
  | .srai c rd rs1 imm => Sys2Proof.Machine.execSrai c rd rs1 imm s
  | .slti c rd rs1 imm => Sys2Proof.Machine.execSlti c rd rs1 imm s
  | .lhi c rd imm => Sys2Proof.Machine.execLhi c rd imm s
  | .llo c rd imm => Sys2Proof.Machine.execLlo c rd imm s
  | .ldb c rd rs1 win imm => Sys2Proof.Machine.execLdb c rd rs1 win imm s
  | .ldbu c rd rs1 win imm => Sys2Proof.Machine.execLdbu c rd rs1 win imm s
  | .ldh c rd rs1 win imm => Sys2Proof.Machine.execLdh c rd rs1 win imm s
  | .ldhu c rd rs1 win imm => Sys2Proof.Machine.execLdhu c rd rs1 win imm s
  | .ldw c rd rs1 win imm => Sys2Proof.Machine.execLdw c rd rs1 win imm s
  | .scalarLoadResult brick => Sys2Proof.Machine.execScalarLoadResult brick s
  | .stb c rs2 rs1 win imm => Sys2Proof.Machine.execStb c rs2 rs1 win imm s
  | .sth c rs2 rs1 win imm => Sys2Proof.Machine.execSth c rs2 rs1 win imm s
  | .stw c rs2 rs1 win imm => Sys2Proof.Machine.execStw c rs2 rs1 win imm s
  | .beq c rs1 rs2 off => Sys2Proof.Machine.execBeq c rs1 rs2 off s
  | .bne c rs1 rs2 off => Sys2Proof.Machine.execBne c rs1 rs2 off s
  | .blt c rs1 rs2 off => Sys2Proof.Machine.execBlt c rs1 rs2 off s
  | .bge c rs1 rs2 off => Sys2Proof.Machine.execBge c rs1 rs2 off s
  | .bltu c rs1 rs2 off => Sys2Proof.Machine.execBltu c rs1 rs2 off s
  | .bgeu c rs1 rs2 off => Sys2Proof.Machine.execBgeu c rs1 rs2 off s
  | .jal c rd target => Sys2Proof.Machine.execJal c rd target s
  | .jr c rs1 => Sys2Proof.Machine.execJr c rs1 s
  | .prd c rd win n half => Sys2Proof.Machine.execPrd c rd win n half s
  | .dwr c rs d word half => Sys2Proof.Machine.execDwr c rs d word half s
  | .drd c rd d word half => Sys2Proof.Machine.execDrd c rd d word half s
  | .rfe c => Sys2Proof.Machine.execRfe c s
  | .tmr c rs1 => Sys2Proof.Machine.execTmr c rs1 s
  | .ie c value => Sys2Proof.Machine.execIe c value s
  | .trap c imm => Sys2Proof.Machine.execTrap c imm s
  | .halt c imm => Sys2Proof.Machine.execHalt c imm s
  | .timerExpire brick => Sys2Proof.Machine.execTimerExpire brick s
  | .doorbell brick message => Sys2Proof.Machine.execDoorbell brick message s
  | .vadd c vd va vb => Sys2Proof.Machine.execVadd c vd va vb s
  | .vsub c vd va vb => Sys2Proof.Machine.execVsub c vd va vb s
  | .vmul c vd va vb => Sys2Proof.Machine.execVmul c vd va vb s
  | .vmin c vd va vb => Sys2Proof.Machine.execVmin c vd va vb s
  | .vmax c vd va vb => Sys2Proof.Machine.execVmax c vd va vb s
  | .vabs c vd va => Sys2Proof.Machine.execVabs c vd va s
  | .vneg c vd va => Sys2Proof.Machine.execVneg c vd va s
  | .vmov c vd va => Sys2Proof.Machine.execVmov c vd va s
  | .vbcs c vd rs => Sys2Proof.Machine.execVbcs c vd rs s
  | .vlut c vd va table win => Sys2Proof.Machine.execVlut c vd va table win s
  | .vacc c vd bank row => Sys2Proof.Machine.execVacc c vd bank row s
  | .vld c vd win rs => Sys2Proof.Machine.execVld c vd win rs s
  | .vput c va unit => Sys2Proof.Machine.execVput c va unit s
  | .vrsum c vd va => Sys2Proof.Machine.execVrsum c vd va s
  | .vrmax c vd va => Sys2Proof.Machine.execVrmax c vd va s
  | .vectorResultWrite brick => Sys2Proof.Machine.execVectorResultWrite brick s
  | .qnt c va qd unit row nanMode win => Sys2Proof.Machine.execQnt c va qd unit row nanMode win s
  | .quantiseDone brick => Sys2Proof.Machine.execQuantiseDone brick s
  | .qscan c va qd unit row final win => Sys2Proof.Machine.execQscan c va qd unit row final win s
  | .matmul c m => Sys2Proof.Machine.execMatmul c m s
  | .matmulQ c m => Sys2Proof.Machine.execMatmulQ c m s
  | .wfill c dw ds quartered quadrant kdbl => Sys2Proof.Machine.execWfill c dw ds quartered quadrant kdbl s
  | .passComplete brick check => Sys2Proof.Machine.execPassComplete brick check s
  | .wfillComplete brick => Sys2Proof.Machine.execWfillComplete brick s
  | .loadStart c d rsSrc rsDst => Sys2Proof.Machine.execLoadStart c d rsSrc rsDst s
  | .storeStart c d rsSrc rsDst => Sys2Proof.Machine.execStoreStart c d rsSrc rsDst s
  | .streamChunkDone brick d => Sys2Proof.Machine.execStreamChunkDone brick d s
  | .ringChunkArrive brick => Sys2Proof.Machine.execRingChunkArrive brick s
  | .watchdog brick => Sys2Proof.Machine.execWatchdog brick s
  | .dumpWritten slot => Sys2Proof.Machine.execDumpWritten slot s
  | .brickReset brick => Sys2Proof.Machine.execBrickReset brick s
  | .haltRequest brick code => Sys2Proof.Machine.execHaltRequest brick code s
  | .memoryRequest sdie req ecc => Sys2Proof.Machine.execMemoryRequest sdie req ecc s
  | .memoryResponse sdie => Sys2Proof.Machine.execMemoryResponse sdie s
  | .lineRewrite sdie addr => Sys2Proof.Machine.execLineRewrite sdie addr s
  | .tokenArrive sdie damaged => Sys2Proof.Machine.execTokenArrive sdie damaged s
  | .contextFetched sdie ctx ecc => Sys2Proof.Machine.execContextFetched sdie ctx ecc s
  | .seqFillTimeout sdie part => Sys2Proof.Machine.execSeqFillTimeout sdie part s
  | .seqPalletResult sdie pallet => Sys2Proof.Machine.execSeqPalletResult sdie pallet s
  | .contextWriteback sdie ctx => Sys2Proof.Machine.execContextWriteback sdie ctx s
  | .contextSweep sdie => Sys2Proof.Machine.execContextSweep sdie s
  | .loadPrepare path part => Sys2Proof.Machine.execLoadPrepare path part s
  | .imageFetched part image => Sys2Proof.Machine.execImageFetched part image s
  | .verifyComplete part => Sys2Proof.Machine.execVerifyComplete part s
  | .translationComplete part plan => Sys2Proof.Machine.execTranslationComplete part plan s
  | .loadCommit path part => Sys2Proof.Machine.execLoadCommit path part s
  | .loadAbort path part => Sys2Proof.Machine.execLoadAbort path part s
  | .loadUnload path part => Sys2Proof.Machine.execLoadUnload path part s
  | .paramCommit path part block => Sys2Proof.Machine.execParamCommit path part block s
  | .paramTp part => Sys2Proof.Machine.execParamTp part s
  | .modelTc part => Sys2Proof.Machine.execModelTc part s
  | .forcedRetirement part => Sys2Proof.Machine.execForcedRetirement part s
  | .epochFreed part => Sys2Proof.Machine.execEpochFreed part s
  | .gapPagesWritten part => Sys2Proof.Machine.execGapPagesWritten part s
  | .driftWindowEnd part => Sys2Proof.Machine.execDriftWindowEnd part s
  | .driftCtlWrite path part value => Sys2Proof.Machine.execDriftCtlWrite path part value s
  | .retemperStart path part => Sys2Proof.Machine.execRetemperStart path part s
  | .retemperRevert path part => Sys2Proof.Machine.execRetemperRevert path part s
  | .retemperRelease path part => Sys2Proof.Machine.execRetemperRelease path part s
  | .captureTimeout part => Sys2Proof.Machine.execCaptureTimeout part s
  | .optimisationStart part brick => Sys2Proof.Machine.execOptimisationStart part brick s
  | .optimisationComplete part => Sys2Proof.Machine.execOptimisationComplete part s
  | .retemperTimeout part => Sys2Proof.Machine.execRetemperTimeout part s
  | .retemperLoopPinned part => Sys2Proof.Machine.execRetemperLoopPinned part s
  | .qstatSnap brick => Sys2Proof.Machine.execQstatSnap brick s
  | .qstatSnapshotTaken brick => Sys2Proof.Machine.execQstatSnapshotTaken brick s
  | .perfSnap brick => Sys2Proof.Machine.execPerfSnap brick s
  | .structStage path image => Sys2Proof.Machine.execStructStage path image s
  | .structCheckComplete => Sys2Proof.Machine.execStructCheckComplete s
  | .structApply path => Sys2Proof.Machine.execStructApply path s
  | .structAbort path => Sys2Proof.Machine.execStructAbort path s
  | .dStepComplete => Sys2Proof.Machine.execDStepComplete s
  | .structTc => Sys2Proof.Machine.execStructTc s
  | .pauseStart => Sys2Proof.Machine.execPauseStart s
  | .bankFlip => Sys2Proof.Machine.execBankFlip s
  | .pauseAbandoned => Sys2Proof.Machine.execPauseAbandoned s
  | .pauseRelease => Sys2Proof.Machine.execPauseRelease s
  | .structForcedRetirement => Sys2Proof.Machine.execStructForcedRetirement s
  | .boundCommit path lo hi => Sys2Proof.Machine.execBoundCommit path lo hi s
  | .loopPinned loop part => Sys2Proof.Machine.execLoopPinned loop part s
  | .loopFree loop part => Sys2Proof.Machine.execLoopFree loop part s
  | .safetyOverride kind unit => Sys2Proof.Machine.execSafetyOverride kind unit s
  | .safetyClear kind unit => Sys2Proof.Machine.execSafetyClear kind unit s
  | .islandClockSample course => Sys2Proof.Machine.execIslandClockSample course s
  | .droopDetect course => Sys2Proof.Machine.execDroopDetect course s
  | .governorSample vpriMv ipri10ma => Sys2Proof.Machine.execGovernorSample vpriMv ipri10ma s
  | .resetRequest path part => Sys2Proof.Machine.execResetRequest path part s
  | .flr fn => Sys2Proof.Machine.execFlr fn s
  | .vfDisable num => Sys2Proof.Machine.execVfDisable num s
  | .resetDrainComplete part => Sys2Proof.Machine.execResetDrainComplete part s
  | .resetRelease part => Sys2Proof.Machine.execResetRelease part s
  | .ringDoorbell part ring cons => Sys2Proof.Machine.execRingDoorbell part ring cons s
  | .ringEnable part ring value => Sys2Proof.Machine.execRingEnable part ring value s
  | .moderationDelay part ring => Sys2Proof.Machine.execModerationDelay part ring s
  | .vectorGapExpire part vec => Sys2Proof.Machine.execVectorGapExpire part vec s
  | .msixUnmask part vec => Sys2Proof.Machine.execMsixUnmask part vec s
  | .functionPowerState fn d3hot busMaster => Sys2Proof.Machine.execFunctionPowerState fn d3hot busMaster s
  | .perstAssert => Sys2Proof.Machine.execPerstAssert s
  | .porstPulse lowNs makerEn smbAddr => Sys2Proof.Machine.execPorstPulse lowNs makerEn smbAddr s
  | .sagPin cause => Sys2Proof.Machine.execSagPin cause s
  | .shutdown path => Sys2Proof.Machine.execShutdown path s
  | .criticalRecordWritten ok => Sys2Proof.Machine.execCriticalRecordWritten ok s
  | .kilnStart => Sys2Proof.Machine.execKilnStart s
  | .kilnPhaseComplete outcome => Sys2Proof.Machine.execKilnPhaseComplete outcome s
  | .kilnRestart => Sys2Proof.Machine.execKilnRestart s
  | .holdupMeasure cap10uf esrMohm vholdMv => Sys2Proof.Machine.execHoldupMeasure cap10uf esrMohm vholdMv s
  | .fwUpdate path sizeOk signedOk version => Sys2Proof.Machine.execFwUpdate path sizeOk signedOk version s
  | .fwActivate path => Sys2Proof.Machine.execFwActivate path s
  | .openSession path slot nonce => Sys2Proof.Machine.execOpenSession path slot nonce s
  | .verifySession path sig => Sys2Proof.Machine.execVerifySession path sig s
  | .closeSession path => Sys2Proof.Machine.execCloseSession path s
  | .sessionTimeout path => Sys2Proof.Machine.execSessionTimeout path s
  | .slotUnlock slot => Sys2Proof.Machine.execSlotUnlock slot s
  | .enrol path block => Sys2Proof.Machine.execEnrol path block s
  | .remove path block => Sys2Proof.Machine.execRemove path block s
  | .claim path block => Sys2Proof.Machine.execClaim path block s
  | .auditCheckpoint path => Sys2Proof.Machine.execAuditCheckpoint path s
  | .auditFlush => Sys2Proof.Machine.execAuditFlush s
  | .counterClear path which => Sys2Proof.Machine.execCounterClear path which s
  | .repairRequest path unit retire => Sys2Proof.Machine.execRepairRequest path unit retire s
  | .repairOverride path unit retire => Sys2Proof.Machine.execRepairOverride path unit retire s
  | .calibWrite path index value => Sys2Proof.Machine.execCalibWrite path index value s
  | .spdmGetVersion path => Sys2Proof.Machine.execSpdmGetVersion path s
  | .spdmGetCapabilities path => Sys2Proof.Machine.execSpdmGetCapabilities path s
  | .spdmNegotiateAlgorithms path => Sys2Proof.Machine.execSpdmNegotiateAlgorithms path s
  | .spdmGetDigests path => Sys2Proof.Machine.execSpdmGetDigests path s
  | .spdmGetCertificate path => Sys2Proof.Machine.execSpdmGetCertificate path s
  | .spdmChallenge path => Sys2Proof.Machine.execSpdmChallenge path s
  | .spdmGetMeasurements path => Sys2Proof.Machine.execSpdmGetMeasurements path s
  | .jtagBypass => Sys2Proof.Machine.execJtagBypass s
  | .jtagIdcode => Sys2Proof.Machine.execJtagIdcode s
  | .jtagSamplePreload => Sys2Proof.Machine.execJtagSamplePreload s
  | .jtagExtest => Sys2Proof.Machine.execJtagExtest s
  | .jtagPrivate code => Sys2Proof.Machine.execJtagPrivate code s
  | .tsyncEdge => Sys2Proof.Machine.execTsyncEdge s
  | .tsyncTimeout => Sys2Proof.Machine.execTsyncTimeout s
  | .tsyncOutPulse => Sys2Proof.Machine.execTsyncOutPulse s
  | .wallStep path => Sys2Proof.Machine.execWallStep path s
  | .histClear path part => Sys2Proof.Machine.execHistClear path part s
  | .occupancySample => Sys2Proof.Machine.execOccupancySample s
  | .traceDrop unit => Sys2Proof.Machine.execTraceDrop unit s
  | .rubbleRelease path slot => Sys2Proof.Machine.execRubbleRelease path slot s
  | .rubbleExport path slot => Sys2Proof.Machine.execRubbleExport path slot s
  | .rclrRead fn offset size => Sys2Proof.Machine.execRclrRead fn offset size s
  | .registerWrite fn offset size value => Sys2Proof.Machine.execRegisterWrite fn offset size value s
  | .errorDetect e => Sys2Proof.Machine.execErrorDetect e s
  | .haltReport brick => Sys2Proof.Machine.execHaltReport brick s
  | .leaseExpire id => Sys2Proof.Machine.execLeaseExpire id s
  | .heartbeatExpire die => Sys2Proof.Machine.execHeartbeatExpire die s
  | .wardenTakeover => Sys2Proof.Machine.execWardenTakeover s
  | .retestComplete unit pass => Sys2Proof.Machine.execRetestComplete unit pass s
  | .replacementComplete part ok => Sys2Proof.Machine.execReplacementComplete part ok s
  | .retranslationComplete course => Sys2Proof.Machine.execRetranslationComplete course s
  | .rehomeComplete cdie ok => Sys2Proof.Machine.execRehomeComplete cdie ok s
  | .macroSpareReady p => Sys2Proof.Machine.execMacroSpareReady p s
  | .bankSpareReady f => Sys2Proof.Machine.execBankSpareReady f s
  | .rowSpared sdie addr => Sys2Proof.Machine.execRowSpared sdie addr s
  | .mortarLaneRepair link => Sys2Proof.Machine.execMortarLaneRepair link s
  | .ringWriteFail part ring => Sys2Proof.Machine.execRingWriteFail part ring s
  | .treeWordRewrite p => Sys2Proof.Machine.execTreeWordRewrite p s
  | .vholdLow mv => Sys2Proof.Machine.execVholdLow mv s
  | .vfEnable num => Sys2Proof.Machine.execVfEnable num s
  | .perstRelease => Sys2Proof.Machine.execPerstRelease s
  | .vauxOutOfRange => Sys2Proof.Machine.execVauxOutOfRange s

end Sys2Proof.Machine
end

