-- ==== Sys2Proof/Safety.lean ====
section
/-!
DEFINITION. What counts as a well-kept state: every byte memory of the block in its canonical form, and in every brick the hard-wired
register s0 and the absent flag f0 at 0; and the terms in which the statements speak of a command's effect: a bundle of one slot, an
exception entered, a brick halted, a slice answered, a privileged command recorded, an event posted, a reset begun, power lost.
-/

namespace Sys2Proof

open Sys2Proof.Machine

/-- The memories of a brick are in canonical form. -/
def MemWf (m : BrickMem) : Prop := memWf m.imem ∧ memWf m.dmem ∧ memWf m.bmem ∧ memWf m.staging

/-- s0 reads as zero, and identifier 0 names no flag (R207, R214). -/
def RegsWf (r : BrickRegs) : Prop := r.s.get 0 = 0 ∧ r.flags.getLsbD 0 = false

/-- A brick is well kept. -/
def BrickWf (b : BrickSt) : Prop := MemWf b.m ∧ RegsWf b.r

/-- The byte memories of an S-die are in canonical form. -/
def SDieWf (x : SDie) : Prop := memWf x.dram ∧ memWf x.sram

/-- Every brick and every S-die of the block is well kept. -/
def Wf (s : State) : Prop := (∀ b ∈ s.bricks, BrickWf b.2) ∧ (∀ d ∈ s.sdies, SDieWf d.2)

/-- What the maker fused: grade, vendor, revision, serial number (R3, R539). -/
def fusedOf (d : DevSt) : Fin 3 × BitVec 16 × BitVec 16 × DWord := (d.grade, d.vendor, d.revision, d.serial)

/-! ### A bundle of one slot -/

/-- The brick that a native command addresses. -/
def here (s : State) (c : BCtl) : BrickSt := brickAt s c.brick.val

/-- A command that is a whole bundle of its own, for a brick that can issue it: the brick runs, its fetch is permitted, no asynchronous
exception is due, no bundle is half gathered, nothing is in flight but streams that no matrix operation has consumed, the slot's wait is
satisfied and its identifiers name a flag or a counter. -/
structure Ready (s : State) (c : BCtl) : Prop where
  running : (here s c).c.phase = .running
  fetch : fetchOk (here s c) (here s c).r.pc = true
  calm : (here s c).r.ie = false ∨ ((here s c).r.pendTimer = false ∧ (here s c).r.pendDoorbell = none)
  quiet : (here s c).fl = { streams := (here s c).fl.streams }
  live : ∀ p ∈ (here s c).fl.streams, p.2.consumed = false
  last : c.more = false
  plain : c.rsv = false
  wait : c.wait.toNat < 48
  waited : waitOk (here s c) c.wait 1 = true
  sig : c.sig.toNat < 48

/-- What a bundle of one slot does to its brick, whatever its operation: the wait is consumed, the pc moves on by one, `n` cycles pass on the
cycle count and on the timer, the engines named are counted busy, and the last issue is noted. -/
def afterBundle (s : State) (c : BCtl) (engines : List Nat) (n : Nat) : BrickSt :=
  let x := here s c
  let y := countEngines n engines [] (consumeWait x c.wait)
  let t := timerAfter n x.r.timer
  { y with
    r := { y.r with pc := x.r.pc + 1, cycle := x.r.cycle + n, timer := t.1, pendTimer := x.r.pendTimer || t.2 },
    c := { y.c with lastIssueNs := nowNs s, stallWaits := [], stallReplay := false, stallSlots := [],
                    stallHandler := x.c.stallHandler && x.r.excDepth != 0 } }

/-- A bundle of one slot whose signal comes one cycle after issue: it is still owed. -/
def issuedLate (s : State) (c : BCtl) (engine : Nat) : BrickSt :=
  let y := afterBundle s c [engine] 1
  { y with fl := { y.fl with sigs := if c.sig = 0 then [] else [((here s c).r.cycle + 1, c.sig)] } }

/-- A bundle of one slot whose signal comes in the cycle of issue: it has been raised. -/
def issuedNow (s : State) (c : BCtl) (engines : List Nat) : BrickSt := raiseSig c.sig (afterBundle s c engines 1)

/-- A bundle of one slot that jumps: two cycles pass, and the signal of the first has been raised (R208). -/
def issuedJump (s : State) (c : BCtl) : BrickSt := raiseSig c.sig (afterBundle s c [1] 2)

/-- The command completes: its brick is as given, and nothing else of the device changes. -/
def leaves (s : State) (c : BCtl) (y : BrickSt) : Host.Outcome State Fault Refusal := .next (putBrick c.brick.val y s)

/-- A DMEM access that meets no halt condition (R209, R211, R256): the window is bound, the address is a multiple of the size, and the
bytes lie in DMEM and in the window's range or the stack window. -/
structure DmemOk (x : BrickSt) (w : Fin 4) (a n : Nat) : Prop where
  bound : (win x w).valid = true
  aligned : a % n = 0
  exists_ : a < 0x10000
  inside : dmemInside x w a n = true

/-- A word of DMEM, its lowest byte at the lowest address. -/
def dmemWord (x : BrickSt) (a : Nat) : Word := memByte x.m.dmem (a + 3) ++ memByte x.m.dmem (a + 2) ++ memByte x.m.dmem (a + 1) ++ memByte x.m.dmem a

/-! ### Exceptions and halts -/

/-- An exception entry that meets no halt condition (R235, R236): sp is a multiple of 32, the 32 bytes below it lie in the stack window, the
depth is below 15, and the handler's bundle may be fetched. -/
structure EntryOk (x : BrickSt) (cause : Byte) : Prop where
  aligned : (getS x 31).toNat % 32 = 0
  low : x.c.stkLo.toNat + 32 ≤ (getS x 31).toNat
  high : (getS x 31).toNat ≤ x.c.stkHi.toNat + 1
  depth : x.r.excDepth ≠ 15
  handler : fetchOk x (x.c.excVec + cause.setWidth 13) = true

/-- `y` is `x` after an exception entry (R235 to R237): the frame of eight words lies below the old sp, sp and the depth have moved, ie is 0, the
pc is at the handler; every other register, byte and part of the brick is as before. -/
structure Entered (x y : BrickSt) (cause : Byte) (info : Word) (ret : BitVec 13) : Prop where
  pc : y.r.pc = x.c.excVec + cause.setWidth 13
  depth : y.r.excDepth = x.r.excDepth + 1
  ie : y.r.ie = false
  sp : getS y 31 = getS x 31 - 32
  regs : ∀ k : SReg, k ≠ 31 → getS y k = getS x k
  frame : ∀ i : Nat, i < 8 → dmemWord y ((getS x 31).toNat - 32 + 4 * i) =
    [cause ++ 0#11 ++ ret, info, if x.r.ie then 1 else 0, 0, getS x 1, getS x 2, getS x 3, getS x 4].getD i 0
  bytes : ∀ a : Nat, ¬((getS x 31).toNat - 32 ≤ a ∧ a < (getS x 31).toNat) → memByte y.m.dmem a = memByte x.m.dmem a
  rest : y = { x with
    r := { x.r with s := y.r.s, pc := y.r.pc, excDepth := y.r.excDepth, ie := y.r.ie }, m := { x.m with dmem := y.m.dmem } }

/-- A brick halted out of a quiet flight (R240): reason, slot, bundle address, detail and window; pending causes and streams are dropped. -/
def haltedAs (x : BrickSt) (reason : Byte) (slot : Fin 8) (pc : BitVec 13) (info : Word) (w : Option (Fin 4)) : BrickSt :=
  { x with
    c := { x.c with phase := .halted, haltReason := reason, lastReason := reason, haltSlot := slot, haltPc := pc, haltInfo := info,
                    haltPrior := 0, haltWin := w, haltPoison := false, stallWaits := [], stallReplay := false, stallHandler := false },
    r := { x.r with pendTimer := false, pendDoorbell := none },
    fl := {} }

/-- `t` is `s` with brick `b` halted as `y` (R242, R454): the pallets that run on it are marked failed, and in lock-step mode every other brick
of its course freezes; nothing else changes. -/
structure HaltsTo (s t : State) (b : Nat) (y : BrickSt) : Prop where
  brick : brickAt t b = y
  others : ∀ k, k ≠ b → brickAt t k = if y.c.lockstep ∧ k / 16 = b / 16 then freezeBrick (brickAt s k) else brickAt s k
  pallets : ∀ p q, mapFind q (pdieAt t p).inflight =
    (mapFind q (pdieAt s p).inflight).map (fun l => if l.bricks.contains b then { l with failed := true } else l)
  pdies : ∀ p, pdieAt t p = { pdieAt s p with inflight := (pdieAt t p).inflight }
  rest : t = { s with bricks := t.bricks, pdies := t.pdies, sdies := t.sdies }

/-! ### Verdicts -/

/-- `t` is `s` after a stamped slice has been given its one final verdict (R20, R34, R444): the verdict stands at the end of its L-die's egress,
it is counted for its partition under its source, the in-flight counts of its model and structure epoch fall by one, and nothing else of the
device changes but what the end of an epoch's drain brings. -/
structure Answered (s t : State) (st : Stamped) (src : Nat) (act : BitVec 4) (cls : Byte) (score : BitVec 16) : Prop where
  verdict : ∃ v : Verdict, ldieAt t st.ldie.val = { ldieAt s st.ldie.val with egress := (ldieAt s st.ldie.val).egress ++ [v] }
    ∧ v.source = BitVec.ofNat 4 src ∧ v.action = act ∧ v.cls = cls ∧ v.score = score ∧ v.final = true ∧ v.prov = false
    ∧ v.tag = dTag st.s.desc ∧ v.feed = st.s.feed ∧ v.part = dPart st.s.desc ∧ v.tIn = st.s.tIn ∧ v.lid = st.lid ∧ v.skew = st.skew
  ldies : ∀ k, k ≠ st.ldie.val → ldieAt t k = ldieAt s k
  counted : mapGet 0 (partAt t (dPart st.s.desc).val).cnt src = mapGet 0 (partAt s (dPart st.s.desc).val).cnt src + 1
  counters : ∀ k, k ≠ src → mapGet 0 (partAt t (dPart st.s.desc).val).cnt k = mapGet 0 (partAt s (dPart st.s.desc).val).cnt k
  part : partAt t (dPart st.s.desc).val = { partAt s (dPart st.s.desc).val with
    cnt := (partAt t (dPart st.s.desc).val).cnt
    resetAnswered := (partAt s (dPart st.s.desc).val).resetAnswered + if src = 7 then 1 else 0 }
  parts : ∀ q, q ≠ (dPart st.s.desc).val → partAt t q = partAt s q
  epochs : (modelAt t (dPart st.s.desc).val).epochs = (modelAt s (dPart st.s.desc).val).epochs.map (fun x =>
    if x.num = st.modelEpoch then
      { x with inflight := x.inflight - 1, st := if x.st = .draining ∧ x.inflight - 1 = 0 then .retired else x.st } else x)
  models : ∀ q, q ≠ (dPart st.s.desc).val → modelAt t q = modelAt s q
  structure_ : mapGet 0 t.st.inflight st.structEpoch.toNat = mapGet 0 s.st.inflight st.structEpoch.toNat - 1
  rest : t = { s with
    ldies := t.ldies, parts := t.parts, models := t.models
    st := { s.st with inflight := t.st.inflight, draining := t.st.draining, contents := t.st.contents }
    dev := { s.dev with sched := t.dev.sched } }

/-- Neither a reset nor the slice's deadline turns its answer into another (R31, R34, R439). -/
structure Timely (s : State) (st : Stamped) : Prop where
  unfenced : st.s.fenced = false
  intime : dDeadline st.s.desc = 0 ∨ (sliceAge s st.s.desc).1 < dDeadline st.s.desc * 64

/-! ### Privileged commands (R505, R507, R511, R513) -/

/-- A command's path is not a VF's, its session has one of the roles that the command's row marks, and the audit tail has room. -/
structure MayRun (s : State) (p : Path) (rights : Nat) : Prop where
  notVf : ∀ v, p ≠ .vf v
  role : allowed s p rights = true
  room : s.auth.tail.length < 256

/-- `u` is `s` with the command's record appended to the audit tail and its session renewed; nothing else differs. -/
structure Recorded (s u : State) (p : Path) (action target result : Nat) : Prop where
  record : ∃ r, u.auth.tail = s.auth.tail ++ [r] ∧ 48 ≤ r.length ∧ (r.drop 14).take 2 = leBytes 2 action ∧ (r.drop 24).take 4 = leBytes 4 target
    ∧ r.getD 28 0 = BitVec.ofNat 8 result
  head : u.auth.head = s.auth.head + 1
  renewed : ∀ k, mapFind k u.auth.sessions = (mapFind k s.auth.sessions).map (fun x => if k = pathNum p then { x with lastNs := nowNs s } else x)
  rest : u = { s with auth := { s.auth with tail := u.auth.tail, head := u.auth.head, chain := u.auth.chain, sessions := u.auth.sessions } }

/-- A path whose session has none of the roles that a command's row marks, or which has no session. -/
structure MayNotRun (s : State) (p : Path) (rights : Nat) : Prop where
  notVf : ∀ v, p ≠ .vf v
  role : allowed s p rights = false
  room : s.auth.tail.length < 256

/-! ### Events and fault records (R431, R433, R478) -/

/-- `t` differs from `s` in its partitions as an event of partition `p` makes it (R430, R431, R433): with ring 5 enabled and not full, its
function active and no reset of the partition running, the record and the new prod go to the host; otherwise the record is lost, counted and,
for an active function, shown in event_lost. Only ring 5, the vectors, the counters and the status of that partition change. -/
structure Posted (s t : State) (p code detail : Nat) : Prop where
  written : let y := ringAt (partAt s p) 5
    fnActive (partAt s p) = true → y.enable = true → ringFull y = false → (partAt s p).resetStep = 0 →
      t.out.writes = s.out.writes ++ [(y.base.toNat + y.prod.toNat % 2 ^ y.size * 16, eventBytes s.time.wall code p detail),
        (y.wb.toNat, leBytes 8 (y.prod + 1).toNat)] ∧ (ringAt (partAt t p) 5).prod = y.prod + 1
  lost : fnActive (partAt s p) = true →
    ((ringAt (partAt s p) 5).enable = false ∨ ringFull (ringAt (partAt s p) 5) = true ∨ (partAt s p).resetStep ≠ 0) →
      (partAt t p).eventLost = true ∧ t.out.writes = s.out.writes
  off : fnActive (partAt s p) = false → t.out = s.out ∧ mapGet 0 (partAt t p).cnt 9 = mapGet 0 (partAt s p).cnt 9 + 1
  rest : partAt t p = { partAt s p with
    rings := (partAt t p).rings, vecs := (partAt t p).vecs, cnt := (partAt t p).cnt,
    eventLost := (partAt t p).eventLost, ringNew := (partAt t p).ringNew }
  others : ∀ q, q ≠ p → partAt t q = partAt s q

/-- `t` is `s` with one record appended to the fault ring (R478): its kind, class, detector, action and unit. -/
structure FaultNoted (s t : State) (kind cls det action : Nat) (unit : Word) : Prop where
  record : ∃ r, t.flt.records = mapSet (s.flt.head.toNat % 1024) r s.flt.records ∧ r.length = 32
    ∧ (r.drop 8).take 8 = [BitVec.ofNat 8 kind, BitVec.ofNat 8 cls, BitVec.ofNat 8 det, BitVec.ofNat 8 action] ++ leBytes 4 unit.toNat
  head : t.flt.head = s.flt.head + 1

/-- `t` is `s` after vector `v` of partition `p` has asked (R435, R439): nothing while a reset fences the partition; masked, the vector becomes pending;
while its function may not send, or within its gap, its message is held; otherwise one message goes out. -/
structure Asked (s t : State) (p v : Nat) : Prop where
  inReset : fenced s p = true → t = s
  masked : fenced s p = false → (vecAt (partAt s p) v).mask = true →
    vecAt (partAt t p) v = { vecAt (partAt s p) v with pend := true } ∧ t.out = s.out
  held : fenced s p = false → (vecAt (partAt s p) v).mask = false → fnActive (partAt s p) = false ∨ gapOver s (partAt s p) v = false →
    vecAt (partAt t p) v = { vecAt (partAt s p) v with held := true } ∧ t.out = s.out
  sent : fenced s p = false → (vecAt (partAt s p) v).mask = false → fnActive (partAt s p) = true → gapOver s (partAt s p) v = true →
    t.out = { s.out with messages := s.out.messages ++ [(p, v)] }
    ∧ vecAt (partAt t p) v = { vecAt (partAt s p) v with pend := false, held := false, lastNs := some (nowNs s) }
    ∧ (∀ r, vecRing v = some r → ringAt (partAt t p) r = { ringAt (partAt s p) r with since := 0 })
  vectors : ∀ k, k ≠ v → vecAt (partAt t p) k = vecAt (partAt s p) k
  rings : ∀ r, vecRing v ≠ some r → ringAt (partAt t p) r = ringAt (partAt s p) r
  part : partAt t p = { partAt s p with vecs := (partAt t p).vecs, rings := (partAt t p).rings }
  others : ∀ q, q ≠ p → partAt t q = partAt s q
  rest : t = { s with parts := t.parts, out := t.out }

/-- `t` is `s` after a trigger of a reset of partition `p` (R438, R439, R368, R169): counted; while a reset runs, that is all; otherwise the partition
is fenced, a load not yet COMMITTING ends with LOAD_RESET, and an attempt at re-tempering ends. -/
structure ResetStarted (s t : State) (p : Nat) : Prop where
  counted : mapGet 0 (partAt t p).cnt 11 = mapGet 0 (partAt s p).cnt 11 + 1
  again : fenced s p = true → partAt t p = { partAt s p with cnt := (partAt t p).cnt } ∧ t = { s with parts := t.parts }
  fresh : fenced s p = false → (partAt t p).resetStep = 2 ∧ (partAt t p).resetAnswered = 0
  load : fenced s p = false → (modelAt s p).load.phase ≠ .idle → (modelAt s p).load.phase ≠ .committing →
    (modelAt t p).load.phase = .idle ∧ (modelAt t p).load.code = 0x0D ∧ (modelAt t p).load.image = none
  keeps : (modelAt s p).load.phase = .idle ∨ (modelAt s p).load.phase = .committing →
    (modelAt t p).load.phase = (modelAt s p).load.phase ∧ (modelAt t p).load.code = (modelAt s p).load.code
  attempt : fenced s p = false → (partAt t p).drift = (if (partAt s p).drift.state.val = 3 ∨ (partAt s p).drift.state.val = 4 then
      { (partAt s p).drift with state := 0, outcome := 0x05, attempt := none, holdCount := 0, calm := 0, lastEnd := some (nowNs s) }
    else (partAt s p).drift)
  epochs : (modelAt t p).epochs = (modelAt s p).epochs
  others : ∀ q, q ≠ p → partAt t q = partAt s q ∧ modelAt t q = modelAt s q
  rest : t = { s with
    parts := t.parts, models := t.models, auth := t.auth, out := t.out, grants := t.grants, sdies := t.sdies
    dev := { s.dev with sched := t.dev.sched } }

/-! ### The loss of power (R482, R485, R494 to R496) -/

/-- `t` is the block as a loss of its dies' power leaves it: every brick, queue, table, port, partition, epoch and session of `s` is gone; the keys, the
audit ring, the fault ring, the critical record, the stored structure image, the fused values and the time are kept. -/
structure Cold (s t : State) : Prop where
  bricks : t.bricks = []
  pdies : ∀ k, (pdieAt t k).inbox = [] ∧ (pdieAt t k).slots = [] ∧ (pdieAt t k).open_ = [] ∧ (pdieAt t k).inflight = []
    ∧ (pdieAt t k).hot = [] ∧ (pdieAt t k).cnt = []
  ldies : ∀ k, (ldieAt t k).elastic = [] ∧ (ldieAt t k).egress = [] ∧ (ldieAt t k).ledger = []
  sdies : ∀ k, (sdieAt t k).dram = [] ∧ (sdieAt t k).cache = [] ∧ (sdieAt t k).warm = [] ∧ (sdieAt t k).ctxs = [] ∧ (sdieAt t k).frags = []
  ports : t.link.ports = []
  parts : t.parts = [] ∧ t.grants = []
  models : ∀ p, (modelAt t p).epochs = [] ∧ (modelAt t p).load = {}
    ∧ (modelAt t p).lastNum = ((mapFind p s.power.savedNums).map (·.2)).getD 0
  image : t.st.running = {} ∧ t.st.epoch = 0 ∧ t.st.phase = .idle ∧ t.st.stored = s.st.stored ∧ t.st.storedId = s.st.storedId
  sessions : t.auth.sessions = [] ∧ t.auth.challenges = []
  mram : t.auth.keys = s.auth.keys ∧ t.auth.ring = s.auth.ring ∧ t.flt.records = s.flt.records ∧ t.flt.head = s.flt.head
    ∧ t.power.crit = s.power.crit ∧ t.power.critGen = s.power.critGen ∧ t.power.savedNums = s.power.savedNums
  service : t.power.ready = false ∧ t.power.error = 0 ∧ t.power.phase = 0
  fused : t.dev.grade = s.dev.grade ∧ t.dev.vendor = s.dev.vendor ∧ t.dev.revision = s.dev.revision ∧ t.dev.serial = s.dev.serial
  time : t.time.now = s.time.now ∧ t.time.wall = s.time.wall
  queue : t.pending = s.pending

/-- `t` is `s` at the start of a hold-up sequence (R493 to R495): cold, with the critical record of this instant to be written: its generation is the next
one, its wall counter this instant's, its cause the trigger's; the audit tail is kept. -/
structure HeldUp (s t : State) (cause : Fin 4) (sure released : Bool) : Prop where
  cold : Cold s t
  run : ∃ h, t.power.holdup = some h ∧ h.cause = cause ∧ h.t0 = nowNs s ∧ h.sure = sure ∧ h.released = released
    ∧ memBytes h.record 0 17 = leBytes 8 (s.power.critGen + 1) ++ leBytes 8 s.time.wall.toNat ++ [BitVec.ofNat 8 cause.val]
    ∧ (s.power.ready = true → ∀ p, mapFind p s.models ≠ none → mapFind p h.nums = some (activeNum s p, (modelAt s p).lastNum))
  tail : ∃ more, t.auth.tail = s.auth.tail ++ more
  dark : t.power.running = false

/-- Whether a hold-up sequence can start: none runs, and the device is in service, in its kiln, stopped by a kiln error, or on the boundary scan. -/
def alight (s : State) : Prop :=
  s.power.holdup = none ∧ (s.power.ready = true ∨ s.power.running = true ∨ s.power.extest = true ∨ s.power.error ≠ 0)

/-- A kiln's outcome with no unit failed. -/
def sound (o : KilnOutcome) : Prop :=
  o.failed = [] ∧ o.workingPdies = 0xF ∧ o.workingLdies = 0xF ∧ o.workingSdies = 0xF ∧ o.vpriInRange = true

/-- A P-die, an L-die and an S-die are in service. -/
def someDie (s : State) : Prop :=
  (∃ i, i < 4 ∧ (pdieAt s i).lost = false) ∧ (∃ i, i < 4 ∧ (ldieAt s i).lost = false) ∧ (∃ i, i < 4 ∧ (sdieAt s i).lost = false)

end Sys2Proof
end

