-- ==== Sys2Proof/Certificates/Slice0/Obligations.lean ====
section
/-!
DEFINITION. The statements for the provers, in the order of OBLIGATIONS.json.
-/

open Sys2Proof Sys2Proof.Machine

/-- R255: the three-register scalar operations. Model's choices it rests on: log 65. -/
def Obligations.ScalarArithmetic : Prop :=
  ∀ (s : State) (c : BCtl) (rd a b : SReg), Ready s c →
    let x := getS (here s c) a
    let y := getS (here s c) b
    let gives := fun (v : Word) => leaves s c (setS rd v (issuedLate s c 1))
    exec (.add c rd a b) s = gives (BitVec.ofNat 32 (x.toNat + y.toNat))
    ∧ exec (.sub c rd a b) s = gives (BitVec.ofInt 32 ((x.toNat : Int) - y.toNat))
    ∧ exec (.and c rd a b) s = gives (x &&& y)
    ∧ exec (.or c rd a b) s = gives (x ||| y)
    ∧ exec (.xor c rd a b) s = gives (x ^^^ y)
    ∧ exec (.sll c rd a b) s = gives (BitVec.ofNat 32 (x.toNat * 2 ^ (y.toNat % 32)))
    ∧ exec (.srl c rd a b) s = gives (BitVec.ofNat 32 (x.toNat / 2 ^ (y.toNat % 32)))
    ∧ exec (.sra c rd a b) s = gives (BitVec.ofInt 32 (x.toInt / 2 ^ (y.toNat % 32)))
    ∧ exec (.slt c rd a b) s = gives (if x.toInt < y.toInt then 1 else 0)
    ∧ exec (.sltu c rd a b) s = gives (if x.toNat < y.toNat then 1 else 0)
    ∧ exec (.mul c rd a b) s = gives (BitVec.ofNat 32 (x.toNat * y.toNat))

/-- R255: the immediate operations. Model's choices it rests on: log 65. -/
def Obligations.ScalarImmediates : Prop :=
  ∀ (s : State) (c : BCtl) (rd a : SReg) (imm : BitVec 12), Ready s c →
    let x := getS (here s c) a
    let gives := fun (v : Word) => leaves s c (setS rd v (issuedLate s c 1))
    exec (.addi c rd a imm) s = gives (BitVec.ofInt 32 (x.toNat + imm.toInt))
    ∧ exec (.andi c rd a imm) s = gives (x &&& BitVec.ofNat 32 imm.toNat)
    ∧ exec (.ori c rd a imm) s = gives (x ||| BitVec.ofNat 32 imm.toNat)
    ∧ exec (.xori c rd a imm) s = gives (x ^^^ BitVec.ofNat 32 imm.toNat)
    ∧ exec (.slti c rd a imm) s = gives (if x.toInt < imm.toInt then 1 else 0)
    ∧ (imm.toNat < 32 →
        exec (.slli c rd a imm) s = gives (BitVec.ofNat 32 (x.toNat * 2 ^ imm.toNat))
        ∧ exec (.srli c rd a imm) s = gives (BitVec.ofNat 32 (x.toNat / 2 ^ imm.toNat))
        ∧ exec (.srai c rd a imm) s = gives (BitVec.ofInt 32 (x.toInt / 2 ^ imm.toNat)))

/-- R255, R225, R258, R259: the other operations that write a scalar register. Model's choices it rests on: log 65. -/
def Obligations.ScalarReads : Prop :=
  ∀ (s : State) (c : BCtl) (rd : SReg), Ready s c →
    let x := here s c
    let gives := fun (v : Word) => leaves s c (setS rd v (issuedLate s c 1))
    (∀ imm : BitVec 17, exec (.lhi c rd imm) s = gives (BitVec.ofNat 32 (imm.toNat * 2 ^ 15)))
    ∧ (∀ imm : BitVec 15, exec (.llo c rd imm) s = gives (BitVec.ofNat 32 ((getS x rd).toNat / 2 ^ 15 * 2 ^ 15 + imm.toNat)))
    ∧ exec (.rdcyc c rd) s = gives (BitVec.ofNat 32 x.r.cycle)
    ∧ (∀ (bank : Fin 8) (w : Fin 4), (bank.val < 4 ∨ x.arr.layout = true) → ∃ v : Word, exec (.afr c rd bank w) s = gives v ∧
        ∀ i : Nat, i < 32 → v.getLsbD i = (accRow x.arr.acc x.arr.layout bank.val (32 * w.val + i)).2)
    ∧ (∀ (w : Fin 4) (n : Fin 16) (half : Bool), (win x w).valid = true → isPatched x w n.val = true →
        exec (.prd c rd w n half) s = gives (BitVec.ofNat 32 ((param x w n).toNat / 2 ^ (if half then 32 else 0))))
    ∧ (∀ (d : Fin 16) (word : Fin 4) (half : Bool),
        exec (.drd c rd d word half) s = gives (BitVec.ofNat 32 (((x.descs.get d).get word).toNat / 2 ^ (if half then 32 else 0))))

/-- R256: the loads, and their landing. Model's choices it rests on: log 4, 65. -/
def Obligations.ScalarLoads : Prop :=
  (∀ (s : State) (c : BCtl) (rd base : SReg) (w : Fin 4) (imm : BitVec 10), Ready s c →
    let x := here s c
    let a := (getS x base + imm.signExtend 32).toNat
    let byte := fun i => memByte x.m.dmem (a + i)
    let lands := fun (v : Word) => leaves s c { afterBundle s c [1] 1 with
      fl := { x.fl with loads := [{ due := x.r.cycle + 3, rd, value := v, sig := c.sig }] } }
    (DmemOk x w a 1 →
      exec (.ldb c rd base w imm) s = lands ((byte 0).signExtend 32) ∧ exec (.ldbu c rd base w imm) s = lands ((byte 0).setWidth 32))
    ∧ (DmemOk x w a 2 →
      exec (.ldh c rd base w imm) s = lands ((byte 1 ++ byte 0).signExtend 32)
      ∧ exec (.ldhu c rd base w imm) s = lands ((byte 1 ++ byte 0).setWidth 32))
    ∧ (DmemOk x w a 4 → exec (.ldw c rd base w imm) s = lands (byte 3 ++ byte 2 ++ byte 1 ++ byte 0)))
  ∧ (∀ (s : State) (b : Brick) (l : LoadDue) (rest : List LoadDue),
    let x := brickAt s b.val
    clocked x = true → x.fl = { loads := l :: rest } → x.r.cycle < l.due → (∀ k ∈ rest, l.due < k.due) →
    let t := timerAfter (l.due - x.r.cycle) x.r.timer
    let y := setS l.rd l.value x
    exec (.scalarLoadResult b) s = .next (putBrick b.val { y with
      r := { y.r with cycle := l.due, timer := t.1, pendTimer := x.r.pendTimer || t.2 },
      fl := { loads := rest, sigs := if l.sig = 0 then [] else [(l.due, l.sig)] } } s))

/-- R256: the stores, with every byte of DMEM. Model's choices it rests on: log 65. -/
def Obligations.ScalarStores : Prop :=
  ∀ (s : State) (c : BCtl) (src base : SReg) (w : Fin 4) (imm : BitVec 10) (cmd : Instr) (n : Nat), Ready s c →
    (cmd, n) ∈ [(Instr.stb c src base w imm, 1), (.sth c src base w imm, 2), (.stw c src base w imm, 4)] →
    let x := here s c
    let a := (getS x base + imm.signExtend 32).toNat
    DmemOk x w a n → ∃ mem : List Host.Cell,
      exec cmd s = leaves s c { issuedLate s c 1 with m := { x.m with dmem := mem } }
      ∧ (∀ i, i < n → memByte mem (a + i) = BitVec.ofNat 8 ((getS x src).toNat / 2 ^ (8 * i)))
      ∧ (∀ k, ¬(a ≤ k ∧ k < a + n) → memByte mem k = memByte x.m.dmem k)

/-- R257, R208: branches and jumps. Model's choices it rests on: log 65. -/
def Obligations.BranchesAndJumps : Prop :=
  ∀ (s : State) (c : BCtl) (a b : SReg) (off : BitVec 12), Ready s c →
    let x := here s c
    let u := getS x a
    let v := getS x b
    let branch := fun (taken : Bool) => leaves s c
      (if taken then setPc (x.r.pc + off.signExtend 13) (issuedJump s c) else issuedLate s c 1)
    exec (.beq c a b off) s = branch (decide (u = v))
    ∧ exec (.bne c a b off) s = branch (decide (u ≠ v))
    ∧ exec (.blt c a b off) s = branch (decide (u.toInt < v.toInt))
    ∧ exec (.bge c a b off) s = branch (decide (v.toInt ≤ u.toInt))
    ∧ exec (.bltu c a b off) s = branch (decide (u.toNat < v.toNat))
    ∧ exec (.bgeu c a b off) s = branch (decide (v.toNat ≤ u.toNat))
    ∧ (∀ target, exec (.jal c a target) s = leaves s c (setPc target (setS a (BitVec.ofNat 32 (x.r.pc.toNat + 1)) (issuedJump s c))))
    ∧ exec (.jr c a) s = leaves s c (setPc (BitVec.ofNat 13 u.toNat) (issuedJump s c))

/-- R258, R259, R255: DWR, TMR and IE. Model's choices it rests on: log 65. -/
def Obligations.ScalarControls : Prop :=
  ∀ (s : State) (c : BCtl) (a : SReg), Ready s c →
    let x := here s c
    let v := getS x a
    (∀ (d : Fin 16) (word : Fin 4) (half : Bool), ∃ t : Vector DWord 4,
      exec (.dwr c a d word half) s = leaves s c { issuedLate s c 1 with descs := x.descs.set d.val t d.isLt }
      ∧ ∀ k : Fin 4, ∀ i : Nat, i < 64 → (t.get k).getLsbD i =
          if k = word ∧ i / 32 = (if half then 1 else 0) then v.getLsbD (i % 32) else ((x.descs.get d).get k).getLsbD i)
    ∧ (let y := issuedLate s c 1
       exec (.tmr c a) s = leaves s c { y with r := { y.r with timer := v } })
    ∧ (∀ e : Bool, let y := issuedLate s c 1
       exec (.ie c e) s = leaves s c { y with r := { y.r with ie := e } })

/-- R234 to R237, R259: TRAP, the timer and the doorbell enter their exceptions; a cause that may not be taken yet stays pending. Model's choices it rests on: log 4, 65. -/
def Obligations.ExceptionEntry : Prop :=
  (∀ (s : State) (c : BCtl) (imm : BitVec 12), Ready s c → (here s c).c.stallHandler = false → EntryOk (issuedLate s c 1) 1 →
    ∃ y, exec (.trap c imm) s = leaves s c y ∧ Entered (issuedLate s c 1) y 1 (imm.setWidth 32) ((here s c).r.pc + 1))
  ∧ (∀ (s : State) (b : Brick), let x := brickAt s b.val
    let n := x.r.timer.toNat
    let z := { x with r := { x.r with cycle := x.r.cycle + n, timer := 0 } }
    clocked x = true → x.fl = {} → n ≠ 0 →
    (x.r.ie = false ∨ x.c.lockstep = true ∨ x.c.phase = .idle →
      exec (.timerExpire b) s = .next (putBrick b.val { z with r := { z.r with pendTimer := true } } s))
    ∧ (x.c.phase = .running → x.c.lockstep = false → x.r.ie = true → EntryOk x 2 →
      ∃ y, exec (.timerExpire b) s = .next (putBrick b.val y s) ∧ Entered { z with r := { z.r with pendTimer := false } } y 2 0 x.r.pc))
  ∧ (∀ (s : State) (b : Brick) (m : Word), let x := brickAt s b.val
    (haltable x = true → x.r.ie = false ∨ x.c.lockstep = true ∨ x.c.phase ≠ .running →
      exec (.doorbell b m) s = .next (putBrick b.val { x with r := { x.r with pendDoorbell := some m } } s))
    ∧ (x.c.phase = .running → x.c.lockstep = false → x.r.ie = true → x.r.pendTimer = false → EntryOk x 3 →
      ∃ y, exec (.doorbell b m) s = .next (putBrick b.val y s) ∧ Entered { x with r := { x.r with pendDoorbell := none } } y 3 m x.r.pc)
    ∧ (haltable x = false → exec (.doorbell b m) s = .next s))

/-- R238: RFE restores pc, ie and s1 to s4 from the frame at sp, raises sp and lowers the depth, or halts and changes nothing. Model's choices it rests on: log 65. -/
def Obligations.ExceptionReturn : Prop :=
  ∀ (s : State) (c : BCtl), Ready s c →
    let x := here s c
    let sp := (getS x 31).toNat
    (x.r.excDepth ≠ 0 → sp % 32 = 0 → x.c.stkLo.toNat ≤ sp → sp + 31 ≤ x.c.stkHi.toNat →
      let y := setS 31 (BitVec.ofNat 32 (sp + 32)) (setS 1 (dmemWord x (sp + 16)) (setS 2 (dmemWord x (sp + 20))
        (setS 3 (dmemWord x (sp + 24)) (setS 4 (dmemWord x (sp + 28)) (issuedJump s c)))))
      exec (.rfe c) s = leaves s c { y with
        r := { y.r with pc := (dmemWord x sp).setWidth 13, ie := (dmemWord x (sp + 8)).getLsbD 0, excDepth := x.r.excDepth - 1 }
        c := { y.c with stallHandler := x.c.stallHandler && x.r.excDepth - 1 != 0 } })
    ∧ (x.r.excDepth = 0 ∨ sp % 32 ≠ 0 ∨ sp < x.c.stkLo.toNat ∨ x.c.stkHi.toNat < sp + 31 →
      ∃ t reason info, exec (.rfe c) s = .next t ∧ HaltsTo s t c.brick.val (haltedAs x reason 1 x.r.pc info none)
        ∧ (reason = 0x01 ∧ x.r.excDepth = 0 ∨ reason = 0x05 ∧ sp % 32 ≠ 0 ∨ reason = 0x06 ∧ (sp < x.c.stkLo.toNat ∨ x.c.stkHi.toNat < sp + 31)))

/-- R240 to R242: HALT, HALT_REQUEST and the halts of a slot. Model's choices it rests on: log 65. -/
def Obligations.Halts : Prop :=
  (∀ (s : State) (c : BCtl) (imm : BitVec 12), Ready s c →
    ∃ t, exec (.halt c imm) s = .next t ∧ HaltsTo s t c.brick.val (haltedAs (here s c) 0x0F 1 (here s c).r.pc (imm.setWidth 32) none))
  ∧ (∀ (s : State) (b : Brick) (code : Word), let x := brickAt s b.val
    haltable x = true → x.fl = {} →
    ∃ t, exec (.haltRequest b code) s = .next t ∧ HaltsTo s t b.val (haltedAs x 0x0E 6 x.r.pc code none))
  ∧ (∀ (s : State) (c : BCtl) (rd a : SReg) (w : Fin 4) (imm : BitVec 10), Ready s c →
    let x := here s c
    let addr := getS x a + imm.signExtend 32
    addr.toNat % 4 ≠ 0 →
    ∃ t u, exec (.ldw c rd a w imm) s = .next t ∧ exec (.stw c rd a w imm) s = .next u
      ∧ HaltsTo s t c.brick.val (haltedAs x 0x05 1 x.r.pc addr (some w)) ∧ HaltsTo s u c.brick.val (haltedAs x 0x05 1 x.r.pc addr (some w)))
  ∧ (∀ (s : State) (c : BCtl) (rd a : SReg) (imm : BitVec 12), Ready s c → 32 ≤ imm.toNat → let x := here s c
    ∀ cmd ∈ [Instr.slli c rd a imm, .srli c rd a imm, .srai c rd a imm],
      ∃ t, exec cmd s = .next t ∧ HaltsTo s t c.brick.val (haltedAs x 0x02 1 x.r.pc 0 none))
  ∧ (∀ (s : State) (c : BCtl) (rd : SReg) (w : Fin 4) (n : Fin 16) (half : Bool), Ready s c → let x := here s c
    isPatched x w n.val = false →
      ∃ t, exec (.prd c rd w n half) s = .next t
        ∧ HaltsTo s t c.brick.val (haltedAs x 0x04 1 x.r.pc (BitVec.ofNat 32 (16 * w.val + n.val)) (some w)))
  ∧ (∀ (s : State) (c : BCtl) (rd : SReg) (bank : Fin 8) (w : Fin 4), Ready s c → let x := here s c
    4 ≤ bank.val → x.arr.layout = false →
      ∃ t, exec (.afr c rd bank w) s = .next t ∧ HaltsTo s t c.brick.val (haltedAs x 0x0B 1 x.r.pc 0 none))

/-- R251, R253, R254: NOP, BARRIER and CLEAR. Model's choices it rests on: log 65. -/
def Obligations.SyncSlot : Prop :=
  ∀ (s : State) (c : BCtl), Ready s c →
    (∀ slot, exec (.nop c slot) s = leaves s c (issuedNow s c []))
    ∧ (∀ (id : BitVec 6), id.toNat < 48 → ∃ y,
        exec (.clear c id) s = leaves s c (raiseSig c.sig y)
        ∧ (id ≠ 0 → waitOk y id 1 = false)
        ∧ (∀ j : BitVec 6, j ≠ id → ∀ n, waitOk y j n = waitOk (afterBundle s c [0] 1) j n)
        ∧ y = { afterBundle s c [0] 1 with r := { (afterBundle s c [0] 1).r with flags := y.r.flags, counters := y.r.counters } })
    ∧ (∀ (rel : BitVec 6) (b : Fin 4), rel.toNat < 48 →
        exec (.barrier c rel b) s = leaves s c (raiseSig c.sig { afterBundle s c [0] 1 with
          fl := { (here s c).fl with arrivals := 1#4 <<< b.val, releases := [(b.val, rel)] } }))

/-- R230, R231: REPLAY takes the full pending sets and restarts at the entry. Model's choices it rests on: log 65. -/
def Obligations.Replay : Prop :=
  ∀ (s : State) (c : BCtl) (w₀ : Fin 4) (ps : Map DWord) (p7 : DWord), Ready s c →
    let x := here s c
    let full := fun (w : Fin 4) => (win x w).valid && (x.params.get w).pending.isSome
    full w₀ = true → (x.params.get w₀).pending = some ps → (ps.map (·.1)).Nodup → mapFind 7 ps = some p7 →
    (∀ w, full w = true → ∃ qs q7, (x.params.get w).pending = some qs ∧ mapFind 7 qs = some q7
      ∧ q7 / 2 ^ 32 = p7 / 2 ^ 32 ∧ q7.setWidth 13 = p7.setWidth 13) →
    p7 / 2 ^ 32 = x.c.capHash.setWidth 64 → fetchOk x (p7.setWidth 13) = true →
    ∃ y, exec (.replay c) s = leaves s c y
      ∧ y.r.pc = p7.setWidth 13
      ∧ (∀ w, full w = true → (y.params.get w).pending = none)
      ∧ (∀ n : Fin 16, (y.params.get w₀).vals.get n = (mapFind n.val ps).getD ((x.params.get w₀).vals.get n)
          ∧ (y.params.get w₀).patched.getLsbD n.val = ((x.params.get w₀).patched.getLsbD n.val || (mapFind n.val ps).isSome))
      ∧ (∀ w, (win x w).valid = true → (x.params.get w).pending = none → x.everPatched.getLsbD w.val = true →
          (y.params.get w).vals = ((x.params.get w).vals.set 1 0).set 2 0)
      ∧ (∀ w, full w = true → y.everPatched.getLsbD w.val = true)
      ∧ y.r.s = x.r.s ∧ y.m = x.m ∧ y.descs = x.descs ∧ y.vec = { x.vec with exps := [] } ∧ y.arr = x.arr ∧ y.wins = x.wins

/-- R289: a barrier is released in every member once all have arrived. Model's choices it rests on: log 4, 25. -/
def Obligations.BarrierRelease : Prop :=
  ∀ (s : State) (course : Course) (b : Fin 4) (c : Nat), physCdie s course.val = some c →
    let ms := barrierMembers s c b
    (ms ≠ [] → (∀ k ∈ ms, (brickAt s k).fl.arrivals.getLsbD b.val = true) →
      ∃ t, exec (.barrierRelease course b) s = .next t
        ∧ (∀ k ∈ ms, (brickAt t k).fl.arrivals.getLsbD b.val = false
          ∧ (clocked (brickAt s k) = true → ∃ rel, mapGet 0 (brickAt s k).fl.releases b.val = rel
            ∧ (brickAt t k).fl.sigs = (brickAt s k).fl.sigs ++ (if rel = 0 then [] else [((brickAt s k).r.cycle, rel)])))
        ∧ (∀ k, k ∉ ms → brickAt t k = brickAt s k)
        ∧ t = { s with bricks := t.bricks })
    ∧ ((∃ k ∈ ms, (brickAt s k).fl.arrivals.getLsbD b.val = false) → exec (.barrierRelease course b) s = .next s)

/-- R260, R261, R223: the operations of the vector slot that give a vector; the result lands four cycles after issue. Model's choices it rests on: log 65. -/
def Obligations.VectorIssue : Prop :=
  ∀ (s : State) (c : BCtl) (vd va vb : VReg), Ready s c →
    let x := here s c
    let a := getV x va
    let b := getV x vb
    let gives := fun (cmd : Instr) (lane : Fin 128 → Word) (raised : NumFlags → Prop) => ∃ (f : NumFlags) (v : VecVal),
      exec cmd s = leaves s c { stick f (afterBundle s c [2] 1) with
        fl := { x.fl with vecs := [{ due := x.r.cycle + 4, vd, value := v, sig := c.sig }] } }
      ∧ (∀ i, v.get i = lane i) ∧ raised f
    let anyLane := fun (g : Fin 128 → NumFlags) (f : NumFlags) =>
      (f.flush = true ↔ ∃ i, (g i).flush = true) ∧ (f.overflow = true ↔ ∃ i, (g i).overflow = true) ∧ (f.invalid = true ↔ ∃ i, (g i).invalid = true)
    let two := fun (cmd : Instr) (op : Word → Word → Word × NumFlags) =>
      gives cmd (fun i => (op (a.get i) (b.get i)).1) (anyLane (fun i => (op (a.get i) (b.get i)).2))
    let none_ := fun (f : NumFlags) => f = {}
    two (.vadd c vd va vb) fadd ∧ two (.vsub c vd va vb) fsub ∧ two (.vmul c vd va vb) fmul
    ∧ two (.vmin c vd va vb) (fpick false) ∧ two (.vmax c vd va vb) (fpick true)
    ∧ gives (.vabs c vd va) (fun i => 0#1 ++ (a.get i).setWidth 31) none_
    ∧ gives (.vneg c vd va) (fun i => BitVec.ofBool (!(a.get i).msb) ++ (a.get i).setWidth 31) none_
    ∧ gives (.vmov c vd va) (fun i => a.get i) none_
    ∧ (∀ rs, gives (.vbcs c vd rs) (fun _ => getS x rs) none_)
    ∧ (∀ table w, (win x w).valid = true →
        gives (.vlut c vd va table w) (fun i => (lutLane (lutOf x w table) (a.get i)).1) (anyLane (fun i => (lutLane (lutOf x w table) (a.get i)).2)))
    ∧ (∀ (bank : Fin 8) (row : Fin 128), bank.val < 4 ∨ x.arr.layout = true →
        gives (.vacc c vd bank row) (fun i => (accRow x.arr.acc x.arr.layout bank.val row.val).1.get i) none_)
    ∧ (∀ w rs, let p := (getS x rs).toNat
        (win x w).valid = true → p % 32 = 0 → p < 2 ^ 23 → bmemInside x w p 512 = true → unloadedIn x p 512 = none →
        gives (.vld c vd w rs) (fun i => memByte x.m.bmem (p + 4 * i.val + 3) ++ memByte x.m.bmem (p + 4 * i.val + 2)
          ++ memByte x.m.bmem (p + 4 * i.val + 1) ++ memByte x.m.bmem (p + 4 * i.val)) none_)
    ∧ gives (.vrsum c vd va) (fun i => if i = 0 then ((a.toList.drop 1).foldl (fun t y => (fadd t y).1) (a.get 0)) else 0) (fun f => f = (vecSum a).2)
    ∧ gives (.vrmax c vd va) (fun i => if i = 0 then ((a.toList.drop 1).foldl (fun t y => (fpick true t y).1) (fpick true (a.get 0) (a.get 0)).1) else 0)
        (fun f => f = (vecMaxLane a).2)

/-- R223, R226, R219: a vector result and a quantise result land in their cycles. Model's choices it rests on: log 4, 65. -/
def Obligations.VectorLanding : Prop :=
  (∀ (s : State) (b : Brick) (l : VecDue) (rest : List VecDue), let x := brickAt s b.val
    clocked x = true → x.fl = { vecs := l :: rest } → x.r.cycle < l.due → (∀ k ∈ rest, l.due < k.due) →
    let t := timerAfter (l.due - x.r.cycle) x.r.timer
    exec (.vectorResultWrite b) s = .next (putBrick b.val { x with
      vec := { x.vec with v := x.vec.v.set l.vd.val l.value l.vd.isLt },
      r := { x.r with cycle := l.due, timer := t.1, pendTimer := x.r.pendTimer || t.2 },
      fl := { vecs := rest, sigs := if l.sig = 0 then [] else [(l.due, l.sig)] } } s))
  ∧ (∀ (s : State) (b : Brick) (l : QuantDue) (a : Nat) (bs : List Byte), let x := brickAt s b.val
    clocked x = true → x.fl = { quants := [l] } → x.r.cycle < l.due → l.writes = [(a, bs)] → a + bs.length ≤ 65536 →
    let t := timerAfter (l.due - x.r.cycle) x.r.timer
    ∃ mem : List Host.Cell, exec (.quantiseDone b) s = .next (putBrick b.val { x with
        m := { x.m with staging := mem }, vec := { x.vec with stats := l.stats.foldl addStat x.vec.stats },
        r := { x.r with cycle := l.due, timer := t.1, pendTimer := x.r.pendTimer || t.2 },
        fl := { sigs := if l.sig = 0 then [] else [(l.due, l.sig)] } } s)
      ∧ (∀ i, i < bs.length → memByte mem (a + i) = bs.getD i 0)
      ∧ (∀ k, ¬(a ≤ k ∧ k < a + bs.length) → memByte mem k = memByte x.m.staging k))

/-- R262, R264, R265: VPUT, QNT and QSCAN. Model's choices it rests on: log 65, 66. -/
def Obligations.QuantiserIssue : Prop :=
  ∀ (s : State) (c : BCtl) (va : VReg), Ready s c →
    let x := here s c
    let a := getV x va
    (∀ unit : BitVec 11, unit.toNat % 16 = 0 → ∃ bs : List Byte,
      exec (.vput c va unit) s = leaves s c { afterBundle s c [2] 1 with
        fl := { x.fl with quants := [{ due := x.r.cycle + 4, writes := [(unit.toNat * 32, bs)], stats := [], sig := c.sig }] } }
      ∧ bs.length = 512
      ∧ ∀ (i : Fin 128) (j : Nat), j < 4 → bs.getD (4 * i.val + j) 0 = BitVec.ofNat 8 ((a.get i).toNat / 2 ^ (8 * j)))
    ∧ (∀ (qd : Fin 32) (unit : BitVec 11) (row : Fin 128) (nanMode : Bool) (w : Fin 4),
        let q := qdRead x w qd
        let stats := if rowValid x w row.val then rowStats q (quantRow q x nanMode a) else []
        vectorHalts x (.qnt va qd unit row nanMode w) = [] → q.outlier = false →
        ∃ (f : NumFlags) (codes : List Nat),
          exec (.qnt c va qd unit row nanMode w) s = leaves s c { stick f (afterBundle s c [2] 1) with
            fl := { x.fl with quants := [{ due := x.r.cycle + 6, writes := [(unit.toNat * 32, packCodes q.elem codes)], stats := stats, sig := c.sig }] } }
          ∧ codes.length = q.lanes
          ∧ ∀ n : Fin 128, n.val < q.lanes → codes.getD n.val 0 = (quantLane q.elem nanMode (q.scale (n.val / q.group)) (a.get n) (q.mult x n.val)).code)
    ∧ (∀ (qd : Fin 32) (unit : BitVec 11) (row : Fin 128) (w : Fin 4),
        vectorHalts x (.qscan va qd unit row false w) = [] →
        ∃ (f : NumFlags) (maxima : Map Dyadic2),
          exec (.qscan c va qd unit row false w) s = leaves s c { stick f (afterBundle s c [2] 1) with
            vec := { x.vec with maxima := maxima },
            fl := { x.fl with quants := [{ due := x.r.cycle + 6, writes := [], stats := [], sig := c.sig }] } }
          ∧ (∀ j : Nat, j < 8 → mapFind (maxKey qd j) maxima = some ((scanMaxima x (qdRead x w qd) va qd row w).getD j ⟨0, 0⟩))
          ∧ (∀ k, ¬(qd.val * 8 ≤ k ∧ k < qd.val * 8 + 8) → mapFind k maxima = mapFind k x.vec.maxima))

/-- R183, R184, R193, R180, R182, R267: the matrix slot. Model's choices it rests on: log 22, 65, 67. -/
def Obligations.MatrixIssue : Prop :=
  (∀ (s : State) (c : BCtl) (m : MatmulArgs) (act : Stream), Ready s c →
    let x := here s c
    opHalts (hasButtress s) x [] ⟨.matrix, c.wait, c.sig, c.rsv, .matmul m⟩ = [] → m.nb = 0 → mapFind m.da.val x.fl.streams = some act →
    ∃ (f : NumFlags) (rows : List (VecVal × Bool)),
      exec (.matmul c m) s = leaves s c { stick f (afterBundle s c [3] 1) with
        arr := if m.swap then { x.arr with active := x.arr.shadow, shadow := x.arr.active } else x.arr,
        fl := { x.fl with
          streams := mapSet m.da.val { act with consumed := true, endsAt := x.r.cycle + 254, moved := dTotal act.desc } x.fl.streams,
          passes := [{ t0 := x.r.cycle, quartered := false, quadrant := 0, dst := m.dst.val, rows := rows, sig := c.sig, pc := x.r.pc,
                       win := dWin act.desc }] } }
      ∧ rows.length = 128
      ∧ (∀ (r : Nat) (row : VecVal × Bool), rows[r]? = some row → row = (wholeRow x m act (operandBytes x act) [] x.arr.acc r).1
          ∧ ∀ n : Fin 128, m.nWidth.toNat ≤ n.val → row.1.get n = 0))
  ∧ (∀ (s : State) (c : BCtl) (m : MatmulQArgs) (act : Stream), Ready s c →
    let x := here s c
    opHalts (hasButtress s) x [] ⟨.matrix, c.wait, c.sig, c.rsv, .matmulQ m⟩ = [] → mapFind m.da.val x.fl.streams = some act →
    ∃ (f : NumFlags) (rows : List (VecVal × Bool)),
      exec (.matmulQ c m) s = leaves s c { stick f (afterBundle s c [3] 1) with
        arr := if m.swap then { x.arr with
            qActive := x.arr.qActive.set m.quadrant.val (x.arr.qShadow.get m.quadrant) m.quadrant.isLt,
            qShadow := x.arr.qShadow.set m.quadrant.val (x.arr.qActive.get m.quadrant) m.quadrant.isLt } else x.arr,
        fl := { x.fl with
          streams := mapSet m.da.val { act with consumed := true, endsAt := x.r.cycle + 380, moved := dTotal act.desc } x.fl.streams,
          passes := [{ t0 := x.r.cycle, quartered := true, quadrant := m.quadrant, dst := m.dst.val, rows := rows, sig := c.sig, pc := x.r.pc,
                       win := dWin act.desc }] } }
      ∧ rows.length = 128
      ∧ (∀ (r : Nat) (row : VecVal × Bool), rows[r]? = some row → row = (quadRow x m act (operandBytes x act) x.arr.acc r).1
          ∧ ∀ n : Fin 128, m.nWidth.toNat ≤ n.val ∨ 64 ≤ n.val → row.1.get n = 0))
  ∧ (∀ (s : State) (c : BCtl) (dw ds : Fin 16) (kdbl : Bool) (ws sc : Stream), Ready s c → dw ≠ ds →
    let x := here s c
    opHalts (hasButtress s) x [] ⟨.matrix, c.wait, c.sig, c.rsv, .wfill dw ds false 0 kdbl⟩ = [] →
    mapFind dw.val x.fl.streams = some ws → mapFind ds.val x.fl.streams = some sc →
    let ended := fun (st : Stream) => { st with consumed := true, endsAt := x.r.cycle + 127, moved := dTotal st.desc }
    ∃ (bad : Bool) (shadow : WeightSet),
      exec (.wfill c dw ds false 0 kdbl) s = leaves s c { afterBundle s c [3] 1 with
        num := { x.num with t2w := x.num.t2w || bad }, arr := { x.arr with shadow := shadow },
        fl := { x.fl with streams := mapSet dw.val (ended ws) (mapSet ds.val (ended sc) x.fl.streams),
                          fills := [{ l0 := x.r.cycle, quartered := false, quadrant := 0, sig := c.sig }] } }
      ∧ (∀ k, k < 128 → mapFind k shadow.rows = some (((operandBytes x ws).drop (64 * k)).take 64))
      ∧ (∀ g, g < 4 → 128 * g < (operandBytes x sc).length → mapFind g shadow.scales = some (((operandBytes x sc).drop (128 * g)).take 128)))

/-- R219, R177, R184, R200, R201: a pass and a fill complete; a pass in which the checkers find a first error is discarded. Model's choices it rests on: log 4, 10. -/
def Obligations.MatrixLanding : Prop :=
  (∀ (s : State) (b : Brick) (p : PassDue), let x := brickAt s b.val
    clocked x = true → x.fl = { passes := [p] } → x.r.cycle < p.due → p.quartered = false → p.dst < 4 → p.rows.length = 128 →
    let t := timerAfter (p.due - x.r.cycle) x.r.timer
    ∃ acc : Map AccRow, exec (.passComplete b .clean) s = .next (putBrick b.val { x with
        arr := { x.arr with acc := acc }, r := { x.r with cycle := p.due, timer := t.1, pendTimer := x.r.pendTimer || t.2 },
        fl := { sigs := if p.sig = 0 then [] else [(p.t0 + 392, p.sig)] } } s)
      ∧ (∀ (r : Nat) (row : VecVal × Bool), p.rows[r]? = some row → accRow acc false p.dst r = row)
      ∧ (∀ bank r, r < 128 → bank ≠ p.dst → accRow acc false bank r = accRow x.arr.acc false bank r))
  ∧ (∀ (s : State) (b : Brick) (p : PassDue) (rest : List PassDue) (gs : List (Fin 16)) (kind : Fin 8), let x := brickAt s b.val
    clocked x = true → x.fl.passes = p :: rest → x.arr.suspect = [] → x.arr.reruns < 3 → gs ≠ [] →
    ∃ t, exec (.passComplete b (.error gs kind)) s = .next t
      ∧ brickAt t b.val = { x with
          fl := { x.fl with passes := rest },
          arr := { x.arr with lastGroup := gs.headD 0, lastKind := kind, suspect := gs, reruns := x.arr.reruns + 1 } }
      ∧ (∀ k, k ≠ b.val → brickAt t k = brickAt s k)
      ∧ t = { s with bricks := t.bricks, pdies := t.pdies, sdies := t.sdies })
  ∧ (∀ (s : State) (b : Brick) (f : FillDue), let x := brickAt s b.val
    clocked x = true → x.fl = { fills := [f] } → x.r.cycle < f.due →
    let t := timerAfter (f.due - x.r.cycle) x.r.timer
    exec (.wfillComplete b) s = .next (putBrick b.val { x with
      r := { x.r with cycle := f.due, timer := t.1, pendTimer := x.r.pendTimer || t.2 },
      fl := { sigs := if f.sig = 0 then [] else [(f.l0 + (if f.quartered then 127 else 255), f.sig)] } } s))

/-- R228, R268, R287: START in the load and the store slot. Model's choices it rests on: log 65, 66. -/
def Obligations.StreamStart : Prop :=
  ∀ (s : State) (c : BCtl) (d : Fin 16) (rsSrc rsDst : SReg), Ready s c →
    let x := here s c
    let word := fun (k : Fin 4) => (x.descs.get d).get k
    let named := fun (r : SReg) (w : DWord) => if r = 0 then w else w.extractLsb' 48 16 ++ (getS x r).setWidth 48
    let copy : Vector DWord 4 := #v[named rsSrc (word 0), named rsDst (word 1), word 2, word 3]
    let st := fun (store : Bool) =>
      ({ desc := copy, pc := x.r.pc, sig := c.sig, armedAt := x.r.cycle, inStoreSlot := store } : Stream)
    let kind := dKind copy
    mapFind d.val x.fl.streams = none →
    (startHalts x false d rsSrc rsDst = [] → (kind = 9 → (x.fl.streams.filter (fun p => dKind p.2.desc == 9)).length < 2) →
      exec (.loadStart c d rsSrc rsDst) s = leaves s c { afterBundle s c [4] 1 with
        fl := { x.fl with streams := mapSet d.val (st false) x.fl.streams } })
    ∧ (startHalts x true d rsSrc rsDst = [] → kind ≠ 8 →
      exec (.storeStart c d rsSrc rsDst) s = leaves s c { afterBundle s c [5] 1 with
        fl := { x.fl with streams := mapSet d.val (st true) x.fl.streams } })
    ∧ (startHalts x true d rsSrc rsDst = [] → kind = 8 → (∀ p ∈ x.fl.streams, dKind p.2.desc ≠ 8) →
      let dest := c.brick.val / 16 * 16 + bits 8 5 (dDst copy)
      let bytes := (List.range (dTotal copy)).map (fun i => memByte x.m.staging (dAddr copy (dSrc copy) i))
      dest ≠ c.brick.val →
      ∃ t, exec (.storeStart c d rsSrc rsDst) s = .next t
        ∧ brickAt t c.brick.val = { afterBundle s c [5] 1 with fl := { x.fl with streams := mapSet d.val (st true) x.fl.streams } }
        ∧ (∀ k, k ≠ c.brick.val → brickAt t k = if k = dest then { brickAt s k with
            fl := { (brickAt s k).fl with ringIn := (brickAt s k).fl.ringIn ++ (chunks64 (bytes.length / 64) bytes).map (fun h => (c.brick.val, h)) } }
          else brickAt s k)
        ∧ t = { s with bricks := t.bricks })

/-- R219, R262, R287: a chunk of a staging stream is written to BMEM; a ring chunk is written by the receive that waits for it, and is lost
without one. Model's choices it rests on: log 4, 66. -/
def Obligations.StreamChunks : Prop :=
  (∀ (s : State) (b : Brick) (d : Fin 16) (st : Stream), let x := brickAt s b.val
    clocked x = true → x.c.lockstep = false → (∀ k, k / 16 = b.val / 16 → (brickAt s k).c.phase ≠ .frozen) →
    mapFind d.val x.fl.streams = some st → dKind st.desc = 6 →
    let n := min (chunkBytes st.desc) (dTotal st.desc - st.moved)
    let lo := dDst st.desc + st.moved
    (∀ i, i < n → bmemInside x (dWin st.desc) (lo + i) 1 = true) → st.moved + n < dTotal st.desc → 0 < n → n = chunkBytes st.desc →
    dChunk st.desc ≠ 0 →
    ∃ mem : List Host.Cell, exec (.streamChunkDone b d) s = .next (putBrick b.val { x with
        m := { x.m with bmem := mem },
        fl := { x.fl with streams := mapSet d.val { st with moved := st.moved + n, buf := st.buf.drop n } x.fl.streams,
                          sigs := x.fl.sigs ++ (if st.sig = 0 then [] else [(x.r.cycle, st.sig)]) } } s)
      ∧ (∀ i, i < n → memByte mem (lo + i) = memByte x.m.staging (dAddr st.desc (dSrc st.desc) (st.moved + i)))
      ∧ (∀ k, ¬(lo ≤ k ∧ k < lo + n) → memByte mem k = memByte x.m.bmem k))
  ∧ (∀ (s : State) (b : Brick) (src : Nat) (bytes : List Byte) (rest : List (Nat × List Byte)), let x := brickAt s b.val
    x.fl.ringIn = (src, bytes) :: rest → src ≠ b.val → (∀ p ∈ (brickAt s src).fl.streams, dKind p.2.desc ≠ 8) →
    (∀ p ∈ x.fl.streams, ¬(dKind p.2.desc = 9 ∧ bits 8 5 (dSrc p.2.desc) = src % 16)) →
    ∃ t, exec (.ringChunkArrive b) s = .next t
      ∧ brickAt t b.val = { x with fl := { x.fl with ringIn := rest }, c := { x.c with ringLost := true } }
      ∧ (∀ k, k ≠ b.val → brickAt t k = brickAt s k) ∧ t = { s with bricks := t.bricks })
  ∧ (∀ (s : State) (b : Brick) (src d : Nat) (st : Stream) (bytes : List Byte) (rest : List (Nat × List Byte)), let x := brickAt s b.val
    x.fl.ringIn = (src, bytes) :: rest → src ≠ b.val → bytes.length = 64 → (∀ p ∈ (brickAt s src).fl.streams, dKind p.2.desc ≠ 8) →
    x.fl.streams = [(d, st)] → dKind st.desc = 9 → bits 8 5 (dSrc st.desc) = src % 16 →
    bmemInside x (dWin st.desc) (dDst st.desc + st.moved) 64 = true → st.moved + 64 < dTotal st.desc → dChunk st.desc = 0 →
    ∃ (t : State) (mem : List Host.Cell), exec (.ringChunkArrive b) s = .next t
      ∧ brickAt t b.val = { x with
          m := { x.m with bmem := mem },
          fl := { x.fl with ringIn := rest, streams := [(d, { st with moved := st.moved + 64, buf := st.buf.drop 64 })] } }
      ∧ (∀ i, i < 64 → memByte mem (dDst st.desc + st.moved + i) = bytes.getD i 0)
      ∧ (∀ k, ¬(dDst st.desc + st.moved ≤ k ∧ k < dDst st.desc + st.moved + 64) → memByte mem k = memByte x.m.bmem k)
      ∧ (∀ k, k ≠ b.val → brickAt t k = brickAt s k) ∧ t = { s with bricks := t.bricks })

/-- R244, R246, R526, R527: the watchdog, the dump and the brick reset. Model's choices it rests on: log 4, 60, 79. -/
def Obligations.HangAndReset : Prop :=
  (∀ (s : State) (b : Brick) (i : Nat), let x := brickAt s b.val
    let idle := nowNs s - x.c.lastIssueNs
    x.c.phase = .running → x.c.lockstep = false → x.fl = {} → x.c.wdogLimitUs * 1000 ≤ idle →
    i < 4 → mapFind i s.obs.rubble = none → (∀ j, j < i → (mapFind j s.obs.rubble).isSome = true) →
    ∃ t u, exec (.watchdog b) s = .next t ∧ u = { s with obs := u.obs, freeIx := u.freeIx }
      ∧ u.obs.latched = (if s.obs.latched = 255 then 255 else s.obs.latched + 1)
      ∧ (∃ r : Rubble, mapFind i u.obs.rubble = some r ∧ r.brick = b ∧ r.written = false)
      ∧ (∀ j, j ≠ i → mapFind j u.obs.rubble = mapFind j s.obs.rubble)
      ∧ HaltsTo u t b.val (haltedAs x 0x0A 6 x.r.pc (BitVec.ofNat 32 idle) none))
  ∧ (∀ (s : State) (slot : Fin 4) (r : Rubble), mapFind slot.val s.obs.rubble = some r →
    exec (.dumpWritten slot) s = .next { s with obs := { s.obs with rubble := mapSet slot.val { r with written := true } s.obs.rubble } })
  ∧ (∀ (s : State) (b : Brick), let x := brickAt s b.val
    let k := unitKey 0 (brickUnit b.val)
    x.c.phase = .fenced → x.arr.state.val ≠ 1 → k ∉ s.flt.retests →
    ∃ t y, exec (.brickReset b) s = .next t ∧ brickAt t b.val = y
      ∧ y.c.phase = .reset ∧ y.c.resetDone = nowNs s + 2000 ∧ y.c.haltReason = 0 ∧ y.c.haltSlot = 6 ∧ y.c.lastReason = x.c.lastReason
      ∧ (∀ r, getS y r = 0) ∧ (∀ v : VReg, getV y v = Vector.replicate 128 0) ∧ y.r.flags = 0 ∧ y.r.counters = Vector.replicate 16 0
      ∧ y.r.ie = false ∧ y.r.excDepth = 0 ∧ y.r.timer = 0 ∧ y.r.pendTimer = false ∧ y.r.pendDoorbell = none
      ∧ (∀ a, memByte y.m.dmem a = 0) ∧ y.m.bmem = x.m.bmem ∧ y.m.imem = x.m.imem ∧ y.m.loaded = x.m.loaded
      ∧ (∀ w n, isPatched y w n = false) ∧ (∀ w, (y.params.get w).pending = none) ∧ (∀ d, dKind (y.descs.get d) = 0)
      ∧ y.num = {} ∧ y.wins = x.wins ∧ y.regions = x.regions ∧ y.arr = x.arr ∧ y.barriers = x.barriers
      ∧ y.c.stkLo = x.c.stkLo ∧ y.c.stkHi = x.c.stkHi ∧ y.c.excVec = x.c.excVec ∧ y.c.capHash = x.c.capHash
      ∧ (unitAt t k).st = .inService ∧ (∀ j, j ≠ k → unitAt t j = unitAt s j) ∧ (∀ j, j ≠ b.val → brickAt t j = brickAt s j)
      ∧ t = { s with bricks := t.bricks, flt := { s.flt with units := t.flt.units } })

/-- R172, R532: the snapshots of statistics and counters. Model's choices it rests on: log 78. -/
def Obligations.BrickSnapshots : Prop :=
  ∀ (s : State) (b : Brick), let x := brickAt s b.val
    (x.c.phase = .idle → exec (.qstatSnap b) s = .next (putBrick b.val { x with
      vec := { x.vec with snap := x.vec.stats, qsnapDone := true, qsnapBusy := false } } s))
    ∧ (x.c.phase ≠ .idle → exec (.qstatSnap b) s = .next (putBrick b.val { x with vec := { x.vec with qsnapDone := false, qsnapBusy := true } } s))
    ∧ (x.vec.qsnapBusy = true → exec (.qstatSnapshotTaken b) s = .next (putBrick b.val { x with
      vec := { x.vec with snap := x.vec.stats, qsnapDone := true, qsnapBusy := false } } s))
    ∧ exec (.perfSnap b) s = .next (putBrick b.val { x with
      perf := { x.perf with snapEngines := x.perf.engines, snapStalls := x.perf.stalls, snapDone := true } } s)

/-- R14, R15, R17: a slice record enters the elastic buffer, and the oldest slice leaves it. Model's choices it rests on: log 30. -/
def Obligations.SliceIngress : Prop :=
  (∀ (s : State) (port : LPort) (feed : Local) (c : FeedCfg), feedOf s port.val feed.val = some c →
    let n := reclenOf s port.val feed.val
    let l := port.val / 16
    let stream := mapGet [] (portAt s port.val).rx (pkey 2 feed.val)
    let d := BitVec.ofNat 128 (leNat (stream.take 16))
    n ≤ stream.length →
    ∃ t, exec (.sliceIn port feed) s = .next t
      ∧ ldieAt t l = { ldieAt s l with elastic := (ldieAt s l).elastic ++ [{
          feed := c.feed, desc := d, hdr := (stream.take n).drop 16, tIn := s.time.wall
          fail := if n - 16 < dHdrCount d then some 0 else if dFeed d ≠ c.feed.val then some 1 else if dReserved d ≠ 0 then some 3 else none }] }
      ∧ (∀ k, k ≠ l → ldieAt t k = ldieAt s k)
      ∧ portAt t port.val = { portAt s port.val with rx := mapSet (pkey 2 feed.val) (stream.drop n) (portAt s port.val).rx }
      ∧ (∀ k, k ≠ port.val → portAt t k = portAt s k)
      ∧ t = { s with ldies := t.ldies, link := { s.link with ports := t.link.ports }, obs := { s.obs with traceWait := t.obs.traceWait } })
  ∧ (∀ (s : State) (l : Die) (x : Slice) (rest : List Slice), (ldieAt s l.val).elastic = x :: rest →
    s.st.pause = none → (ldieAt s l.val).ledger.length < 327680 → (ldieAt s l.val).lost = false →
    let p := (dPart x.desc).val
    let e := activeNum s p
    let check := sliceCheck s s.st.epoch x
    (check = none → (partAt s p).resetStep = 0 → e ≠ 0 →
      ∃ (t : State) (st : Stamped), exec (.sliceRelease l) s = .next t
        ∧ st.s = { x with fenced := false } ∧ st.structEpoch = s.st.epoch ∧ st.modelEpoch = e ∧ st.ldie = l
        ∧ st.pdie = steerOf (ldieAt s l.val) (dSteer x.desc) ∧ st.lid = (ldieAt s l.val).nextLid
        ∧ pdieAt t st.pdie.val = { pdieAt s st.pdie.val with inbox := (pdieAt s st.pdie.val).inbox ++ [st] }
        ∧ (∀ k, k ≠ st.pdie.val → pdieAt t k = pdieAt s k)
        ∧ (ldieAt t l.val).elastic = rest ∧ (ldieAt t l.val).egress = (ldieAt s l.val).egress
        ∧ (ldieAt t l.val).ledger.getLast? = some {
            lid := st.lid, tag := dTag x.desc, feed := x.feed, part := dPart x.desc, arrival := dArrival x.desc, deadline := dDeadline x.desc,
            tIn := x.tIn, epoch := e, structEpoch := s.st.epoch, pdie := some st.pdie }
        ∧ (∀ k, k ≠ l.val → ldieAt t k = ldieAt s k)
        ∧ (modelAt t p).epochs = (modelAt s p).epochs.map (fun m => if m.num = e then { m with inflight := m.inflight + 1 } else m)
        ∧ mapGet 0 t.st.inflight s.st.epoch.toNat = mapGet 0 s.st.inflight s.st.epoch.toNat + 1
        ∧ t = { s with ldies := t.ldies, pdies := t.pdies, models := t.models, link := { s.link with ports := t.link.ports },
                       st := { s.st with inflight := t.st.inflight } })
    ∧ (check ≠ none ∨ (partAt s p).resetStep ≠ 0 ∨ e = 0 →
      ∃ (t : State) (v : Verdict), exec (.sliceRelease l) s = .next t
        ∧ (ldieAt t l.val).egress = (ldieAt s l.val).egress ++ [v]
        ∧ v.source = (if (partAt s p).resetStep ≠ 0 then 7 else 5) ∧ v.action = defaultAction s s.st.epoch p ∧ v.tag = dTag x.desc ∧ v.feed = x.feed
        ∧ v.final = true ∧ v.prov = false ∧ (ldieAt t l.val).elastic = rest
        ∧ (∀ k, check = some k → mapGet 0 (ldieAt t l.val).cnt k.val = mapGet 0 (ldieAt s l.val).cnt k.val + 1)
        ∧ (∀ k, k ≠ l.val → ldieAt t k = ldieAt s k)
        ∧ t = { s with ldies := t.ldies, parts := t.parts, models := t.models, link := { s.link with ports := t.link.ports },
                       st := t.st, dev := { s.dev with sched := t.dev.sched } }))
  ∧ (∀ (s : State) (l : Die), s.st.pause ≠ none → exec (.sliceRelease l) s = .next s)

/-- R14, R33, R52, R112, R113: what a slice gets at its P-die: source 5 without its epoch, a place on the slow path, or the verdict of tier 1. Model's choices it rests on: log 10, 20, 23. -/
def Obligations.SliceAtPDie : Prop :=
  ∀ (s : State) (p : Die) (st : Stamped) (rest : List Stamped), (pdieAt s p.val).inbox = st :: rest → (pdieAt s p.val).lost = false →
    let d := st.s.desc
    let part := (dPart d).val
    let secs := secsOf s st.structEpoch
    (epochAt s part st.modelEpoch = none → st.s.fenced = false → ∀ ecc,
      ∃ u t, exec (.sliceAtPDie p ecc) s = .next t ∧ u = { s with pdies := u.pdies } ∧ (∀ k, k ≠ p.val → pdieAt u k = pdieAt s k)
        ∧ pdieAt u p.val = { pdieAt s p.val with inbox := rest } ∧ Answered u t st 5 (defaultAction s st.structEpoch part) 0 0)
    ∧ (∀ (ep : ModelEpoch) (r : SlowReason) ecc, epochAt s part st.modelEpoch = some ep →
      parseSlice secs.parse st.s.hdr (dHdrCount d) = .slow r → slowServes s = true →
      (takeToken 250 4096 (nowNs s) (pdieAt s p.val).slowBucket).2 = true →
      ∃ t b, exec (.sliceAtPDie p ecc) s = .next t ∧ t = { s with pdies := t.pdies, freeIx := s.freeIx + 1 } ∧ (∀ k, k ≠ p.val → pdieAt t k = pdieAt s k)
        ∧ (pdieAt t p.val).slow = (pdieAt s p.val).slow ++ [{ st, reason := r.num, brick := b }] ∧ (pdieAt t p.val).inbox = rest
        ∧ (∃ k ∈ s.st.running.bond.slowPool, brickServes s k = true ∧ physBrick s k = some b)
        ∧ mapGet 0 (pdieAt t p.val).cnt r.num.val = mapGet 0 (pdieAt s p.val).cnt r.num.val + 1)
    ∧ (∀ (ep : ModelEpoch) (state : Nat) (buf : ExtBuf) (cut : Bool), epochAt s part st.modelEpoch = some ep →
      parseSlice secs.parse st.s.hdr (dHdrCount d) = .accept state buf cut → flowKey secs.parse state buf (dPart d) = none → Timely s st →
      let snap := transient (dWireLen d) (timeStampOf s.time.wall) (flagsByte secs.parse state buf) (dPart d)
      let tree := runTrees ep.vd.ensemble (features secs.parse buf snap d) (fun i => (secs.parse.features.map (fun w => bit 28 w.toNat)).getD i false)
      let rule := ruleOf ep.vd.ensemble.vmap tree.top tree.q
      rOutcome rule = 0 → rEnrol rule = false →
      ∃ u t, exec (.sliceAtPDie p .good) s = .next t ∧ u = { s with pdies := u.pdies } ∧ (∀ k, k ≠ p.val → pdieAt u k = pdieAt s k)
        ∧ pdieAt u p.val = { pdieAt s p.val with inbox := rest, cnt := (pdieAt u p.val).cnt }
        ∧ mapGet 0 (pdieAt u p.val).cnt 107 = mapGet 0 (pdieAt s p.val).cnt 107 + 1
        ∧ mapGet 0 (pdieAt u p.val).cnt 200 = mapGet 0 (pdieAt s p.val).cnt 200 + 1
        ∧ mapGet 0 (pdieAt u p.val).cnt 202 = mapGet 0 (pdieAt s p.val).cnt 202 + 1
        ∧ Answered u t st 0 (rAction rule) (BitVec.ofNat 8 tree.top) tree.q)

/-- R32, R33, R55, R57, R116: the other ends of a slice at its P-die, the fragment table, and a tree word rewritten. Model's choices it rests on: log 4, 10, 23. -/
def Obligations.SliceEnds : Prop :=
  (∀ (s : State) (p : Die) (slot : Fin 65536) (r : RetSlot), mapFind slot.val (pdieAt s p.val).slots = some r →
    let x := pdieAt s p.val
    (expired s r.st.s.desc = true → r.st.s.fenced = false → (partAt s (dPart r.st.s.desc).val).resetStep = 0 →
      ∃ u t, exec (.deadlineExpiry p slot) s = .next t ∧ u = { s with pdies := u.pdies } ∧ (∀ k, k ≠ p.val → pdieAt u k = pdieAt s k)
        ∧ pdieAt u p.val = { x with slots := mapDel slot.val x.slots, open_ := x.open_.map (groutRow slot.val),
                                    inflight := mapAll (groutRow slot.val) x.inflight }
        ∧ Answered u t r.st 6 r.fbAction (r.top.setWidth 8) r.score)
    ∧ (expired s r.st.s.desc = false → exec (.deadlineExpiry p slot) s = .next s))
  ∧ (∀ (s : State) (p : Die) (sl : SlowSlice) (rest : List SlowSlice) (a : SlowAnswer), (pdieAt s p.val).slow = sl :: rest →
    slowRuns s sl = true → Timely s sl.st → a.key = [] →
    let miss := (secsOf s sl.st.structEpoch).parse.fragMissAction
    (a.frag = none →
      ∃ u t, exec (.slowPathVerdict p a) s = .next t ∧ u = { s with pdies := u.pdies } ∧ (∀ k, k ≠ p.val → pdieAt u k = pdieAt s k)
        ∧ pdieAt u p.val = { pdieAt s p.val with slow := rest } ∧ Answered u t sl.st 3 a.action a.cls a.score)
    ∧ (∀ f, a.frag = some f → f.first = false →
      (let q := fragPlace s f.key; fragFind (sdieAt s q.1) q.2.1 q.2.2 = none) →
      ∃ u t, exec (.slowPathVerdict p a) s = .next t ∧ u = { s with pdies := u.pdies } ∧ (∀ k, k ≠ p.val → pdieAt u k = pdieAt s k)
        ∧ mapGet 0 (pdieAt u p.val).cnt 7 = mapGet 0 (pdieAt s p.val).cnt 7 + 1 ∧ (pdieAt u p.val).slow = rest
        ∧ Answered u t sl.st 3 miss a.cls a.score))
  ∧ (∀ (s : State) (d : Die) (set : Fin 16384) (way : Fin 16) (e : FragEntry), let k := set.val * 16 + way.val
    mapFind k (sdieAt s d.val).frags = some e →
    let age := ageOf (timeStampOf s.time.wall) e.lastUse * 1024
    (s.st.running.parse.fragTimeoutNs ≤ age →
      exec (.fragEntryExpire d set way) s = .next (putSdie d.val { sdieAt s d.val with frags := mapDel k (sdieAt s d.val).frags } s))
    ∧ (age < s.st.running.parse.fragTimeoutNs → exec (.fragEntryExpire d set way) s = .next s))
  ∧ (∀ (s : State) (p : Die), exec (.treeWordRewrite p) s =
      .next (putPdie p.val { pdieAt s p.val with rewrites := (pdieAt s p.val).rewrites - 1 } s))

/-- R26, R28, R201, R230, R232, R357, R454, R455: a pallet leaves its former, is dispatched, and fails. Model's choices it rests on: log 3, 4, 69, 77. -/
def Obligations.PalletLife : Prop :=
  (∀ (s : State) (p : Die) (part : Part) (target : Target) (q : Pallet), let x := pdieAt s p.val
    x.open_.find? (fun q => q.part == part && q.target == target.val) = some q →
    (nowNs s < q.firstNs + fillTimeout s part.val → exec (.palletFillTimeout p part target) s = .next s)
    ∧ (q.firstNs + fillTimeout s part.val ≤ nowNs s →
      ∃ t y pal, exec (.palletFillTimeout p part target) s = .next t ∧ pdieAt t p.val = y
        ∧ mapFind x.nextSeq y.inflight = some pal ∧ y.nextSeq = (x.nextSeq + 1) % 2 ^ 32
        ∧ pal.rows = q.rows ∧ pal.part = part ∧ pal.epoch = q.epoch ∧ pal.seqNo = x.nextSeq ∧ pal.dispatched = q.dispatched
        ∧ pal.params = ((epochAt s part.val q.epoch).map (·.params)).getD [] ∧ pal.offsets = ((epochAt s part.val q.epoch).map (·.offsets)).getD []
        ∧ (∀ z, z ∈ y.open_ ↔ z ∈ x.open_ ∧ ¬(z.part = q.part ∧ z.target = q.target ∧ z.epoch = q.epoch ∧ z.structEpoch = q.structEpoch))
        ∧ (∀ n, n ≠ x.nextSeq → mapFind n y.inflight = mapFind n x.inflight)
        ∧ y = { x with open_ := y.open_, inflight := y.inflight, nextSeq := y.nextSeq, slots := y.slots }
        ∧ (∀ k, k ≠ p.val → pdieAt t k = pdieAt s k)
        ∧ t = { s with pdies := t.pdies, loops := t.loops, freeIx := t.freeIx }))
  ∧ (∀ (s : State) (p : Die) (n : Nat) (pal : Pallet) (ep : ModelEpoch) (g : Group) (gs : List Group), let x := pdieAt s p.val
    mapFind n x.inflight = some pal → pal.dispatched = false → epochAt s pal.part.val pal.epoch = some ep →
    targetServes s pal.part.val ep = true → groupsFor s pal.part.val n ep = some (g :: gs) → g.lockstep = false →
    let first := groupBricks s [g]
    let c := first.headD 0 / 16
    let weight := fun (k : Part) => max 1 (partAt s k.val).weight
    let used := fun (k : Part) => mapGet 0 x.turns (c * 1024 + k.val)
    (∀ b ∈ first, windowFull s g.window b = false ∧ (brickAt s b).c.phase = .running) → first ≠ [] → first.Nodup →
    (∀ q ∈ x.inflight, waitsFor s q.1 q.2 = some c → q.2.part ≠ pal.part → weight pal.part ≤ used pal.part → used q.2.part < weight q.2.part →
      exec (.palletDispatch p n) s = .next s)
    ∧ (∀ q ∈ x.inflight, waitsFor s q.1 q.2 = some c → q.2.part ≠ pal.part → used q.2.part < weight q.2.part →
      (partAt s q.2.part.val).qosClass = (partAt s pal.part.val).qosClass → q.2.part < pal.part → exec (.palletDispatch p n) s = .next s)
    ∧ ((∀ q ∈ x.inflight, q.2.dispatched = false → q.2.part = pal.part) →
    let live := pal.rows.filter (fun r => r.slot.isSome)
    let recs := live.flatMap (fun r => packCodes .i4 r.record)
    ∃ t sent, exec (.palletDispatch p n) s = .next t
      ∧ mapFind n (pdieAt t p.val).inflight = some sent
      ∧ sent = { pal with rows := live, dispatched := true, bricks := groupBricks s (g :: gs) }
      ∧ (∀ b ∈ first, ∃ set, ((brickAt t b).params.get g.window).pending = some set
        ∧ (∃ w0 : DWord, mapFind 0 set = some w0 ∧ ∀ i, i < recs.length → memByte (brickAt t b).m.bmem (w0.toNat % 2 ^ 23 + i) = recs.getD i 0)
        ∧ mapFind 1 set = some (BitVec.ofNat 64 (2 ^ live.length - 1)) ∧ mapFind 2 set = some (BitVec.ofNat 64 ((2 ^ live.length - 1) / 2 ^ 64))
        ∧ (∃ w3 : DWord, mapFind 3 set = some w3 ∧ w3.extractLsb' 32 16 = pal.epoch ∧ w3.extractLsb' 48 16 = pal.structEpoch.setWidth 16)
        ∧ (∃ w6 : DWord, mapFind 6 set = some w6 ∧ w6.extractLsb' 32 32 = BitVec.ofNat 32 pal.seqNo)
        ∧ (∃ w7 : DWord, mapFind 7 set = some w7 ∧ w7.extractLsb' 32 32 = (brickAt s b).c.capHash)
        ∧ (brickAt t b).r = (brickAt s b).r ∧ (brickAt t b).c = (brickAt s b).c)
      ∧ (∀ b, b ∉ first → brickAt t b = brickAt s b)
      ∧ (∀ k, k ≠ p.val → pdieAt t k = pdieAt s k)
      ∧ t.flt = { s.flt with leases := t.flt.leases } ∧ (∃ l, t.flt.leases = s.flt.leases ++ [l] ∧ l.kind = 1 ∧ l.pdie = p ∧ l.pallet = n
        ∧ l.until_ = nowNs s + 6000)
      ∧ mapGet 0 (pdieAt t p.val).turns (c * 1024 + pal.part.val) = (if used pal.part < weight pal.part then used pal.part + 1 else 1)
      ∧ t = { s with bricks := t.bricks, pdies := t.pdies, flt := t.flt, freeIx := t.freeIx, obs := { s.obs with traceWait := t.obs.traceWait } }))
  ∧ (∀ (s : State) (p : Die) (n : Nat) (pal : Pallet), let x := pdieAt s p.val
    mapFind n x.inflight = some pal →
    (pal.failed = false → ∀ how, exec (.palletFail p n how) s = .next s)
    ∧ (pal.failed = true → pal.bricks ≠ [] → pal.reruns < 3 → (∀ b ∈ pal.bricks, clocked (brickAt s b) = true) →
      ∃ t, exec (.palletFail p n .rerun) s = .next t
        ∧ pdieAt t p.val = { x with inflight := mapSet n { pal with failed := false, reruns := pal.reruns + 1 } x.inflight }
        ∧ (∀ k, k ≠ p.val → pdieAt t k = pdieAt s k)
        ∧ mapGet 0 t.flt.cnt 8 = mapGet 0 s.flt.cnt 8 + 1 ∧ mapGet 0 t.flt.cnt 9 = mapGet 0 s.flt.cnt 9 + 1
        ∧ t = { s with pdies := t.pdies, flt := { s.flt with cnt := t.flt.cnt } })
    ∧ (∀ (r : PalletRow) (k : Nat) (z : RetSlot), pal.failed = true → pal.rows = [r] → r.slot = some k → mapFind k x.slots = some z → Timely s z.st →
      ∃ u v t, exec (.palletFail p n .answer) s = .next t ∧ Answered u v z.st 4 z.fbAction (z.top.setWidth 8) z.score
        ∧ mapFind k (pdieAt t p.val).slots = none ∧ mapFind n (pdieAt t p.val).inflight = none
        ∧ u = { s with pdies := u.pdies, flt := { s.flt with cnt := u.flt.cnt } }
        ∧ t = { v with pdies := t.pdies, flt := { v.flt with leases := t.flt.leases } }))

/-- R27, R87, R113: a pallet retires, each row that still has its slot with its own verdict of tier 2. Model's choices it rests on: log 10, 28. -/
def Obligations.PalletRetires : Prop :=
  ∀ (s : State) (p : Die) (n : Nat) (pal : Pallet) (ep : ModelEpoch) (c : HykaiCode), let x := pdieAt s p.val
    mapFind n x.inflight = some pal → pal.dispatched = true → pal.failed = false → epochAt s pal.part.val pal.epoch = some ep →
    ep.vd.t2 = some c → peerStage s ep = none → (pal.rows.filterMap (·.slot)).Nodup →
    let env := (runPallet pal ep c s).1
    ∃ t, exec (.palletRetire p n) s = .next t
      ∧ mapFind n (pdieAt t p.val).inflight = none
      ∧ (∀ (i k : Nat) (r : PalletRow) (z : RetSlot), pal.rows[i]? = some r → r.slot = some k → mapFind k x.slots = some z →
        mapFind k (pdieAt t p.val).slots = none
        ∧ (Timely s z.st → ∃ v ∈ (ldieAt t z.st.ldie.val).egress, v.lid = z.st.lid ∧ v.tag = dTag z.st.s.desc ∧ v.source = 1 ∧ v.final = true
          ∧ v.action = rAction (ruleOf ep.vd.t2Map ((env.emit.getD []).getD i (0, 0)).1 ((env.emit.getD []).getD i (0, 0)).2)
          ∧ v.cls = BitVec.ofNat 8 ((env.emit.getD []).getD i (0, 0)).1 ∧ v.score = ((env.emit.getD []).getD i (0, 0)).2))
      ∧ (∀ k, k ∉ pal.rows.filterMap (·.slot) → mapFind k (pdieAt t p.val).slots = mapFind k x.slots)
      ∧ (∀ l ∈ t.flt.leases, ¬(l.kind = 1 ∧ l.pdie = p ∧ l.pallet = n))
      ∧ (∀ l v, v ∈ (ldieAt s l).egress → v ∈ (ldieAt t l).egress)
      ∧ t = { s with bricks := t.bricks, pdies := t.pdies, ldies := t.ldies, sdies := t.sdies, parts := t.parts, models := t.models, st := t.st,
                     dev := t.dev, flt := t.flt, obs := t.obs, freeIx := t.freeIx }

/-- R415, R419: the wall's clock, the reachability of a peer and the time-out of a carry. Model's choices it rests on: log 4, 33. -/
def Obligations.WallTimers : Prop :=
  (∀ (s : State) (peer : Fin 16) (port : Nat), routePort s peer.val = some port →
    let x := portAt s port
    let k := pkey 7 peer.val
    (maySend x 7 peer.val = true → mapFind k x.forming = none →
      ∃ t, exec (.wallCtlSend peer) s = .next t
        ∧ portAt t port = { x with
            forming := (portAt t port).forming
            held := mapSet (pkey 3 peer.val) (mapGet 0 x.held (pkey 3 peer.val) - 1) x.held
            unacked := x.unacked ++ [{ seq := x.txSeq, ty := 7, feed := peer.val, records := 1, body := [] }]
            txSeq := x.txSeq + 1 }
        ∧ (∀ j, mapFind j (portAt t port).forming = mapFind j x.forming)
        ∧ mapFind peer.val t.link.wall.lastSent = some (nowNs s)
        ∧ (∀ j, j ≠ port → portAt t j = portAt s j)
        ∧ t = { s with link := { s.link with ports := t.link.ports, wall := { s.link.wall with lastSent := t.link.wall.lastSent } } })
    ∧ (maySend x 7 peer.val = false → exec (.wallCtlSend peer) s = .next s))
  ∧ (∀ (s : State) (peer : Fin 16) (at_ : Nat), mapFind peer.val s.link.wall.lastCtl = some at_ →
    (nowNs s ≤ at_ + 10000 → exec (.wallPeerUnreachable peer) s = .next s)
    ∧ (at_ + 10000 < nowNs s → ∃ t, exec (.wallPeerUnreachable peer) s = .next t
      ∧ mapFind peer.val t.link.wall.lastCtl = none ∧ (∀ j, j ≠ peer.val → mapFind j t.link.wall.lastCtl = mapFind j s.link.wall.lastCtl)
      ∧ t.link.wall.carries = s.link.wall.carries.filter (fun c => c.peer != peer)
      ∧ (∀ c ∈ s.link.wall.carries, c.peer = peer → mapFind c.pallet (pdieAt t c.pdie.val).inflight = none)
      ∧ t = { s with
          link := { s.link with ports := t.link.ports, wall := t.link.wall }, pdies := t.pdies, ldies := t.ldies, parts := t.parts, models := t.models
          st := t.st, dev := { s.dev with sched := t.dev.sched }, flt := { s.flt with leases := t.flt.leases } }))
  ∧ (∀ (s : State) (n : Nat), let late := fun (c : WallCarry) => c.pallet = n ∧ c.sentNs + wallTimeoutNs s ≤ nowNs s
    ∃ t, exec (.wallTimeout n) s = .next t
      ∧ t.link.wall.carries = s.link.wall.carries.filter (fun c => !decide (late c))
      ∧ (∀ c ∈ s.link.wall.carries, late c → mapFind n (pdieAt t c.pdie.val).inflight = none)
      ∧ t = { s with
          link := { s.link with ports := t.link.ports, wall := t.link.wall }, pdies := t.pdies, ldies := t.ldies, parts := t.parts, models := t.models
          st := t.st, dev := { s.dev with sched := t.dev.sched }, flt := { s.flt with leases := t.flt.leases } })

/-- R79, R81, R82, R83, R84, R89: warm probes, demotion and the sweepers. Model's choices it rests on: log 4, 21, 68. -/
def Obligations.FlowTiers : Prop :=
  (∀ (s : State) (p : Die) (n : Nat) (pr : WarmProbe) (e : FlowEntry), let x := pdieAt s p.val
    let ctx := flowCtx s
    let ref : FlowRef := { tracked := true, digest := pr.digest, bucket := pr.bucket, part := pr.part, gen := pr.gen, geom := pr.geom }
    x.probes.find? (fun q => q.id == n) = some pr → peekEntry ctx ref x = some e → e.young = true →
    (∀ q ∈ x.probes, q.digest = pr.digest → q.part = pr.part → q.id ≤ pr.id) →
    (nowNs s ≤ pr.sentNs + 2000 → ∀ hit, warmFind s pr = hit →
      ∃ t m, exec (.warmProbeReply p n) s = .next t ∧ (pdieAt t p.val).probes = x.probes.filter (fun q => q.id != pr.id)
        ∧ peekEntry ctx ref (pdieAt t p.val) = some m ∧ m.young = false
        ∧ (hit = none → m = { e with young := false } ∧ mapGet 0 (pdieAt t p.val).cnt 109 = mapGet 0 x.cnt 109 + 1 ∧ t = { s with pdies := t.pdies })
        ∧ (∀ w, hit = some w → mapGet 0 (pdieAt t p.val).cnt 108 = mapGet 0 x.cnt 108 + 1
          ∧ m.pktCount = BitVec.ofNat 64 (min (e.pktCount.toNat + w.pktCount.toNat) (2 ^ 64 - 1))
          ∧ m.byteCount = BitVec.ofNat 64 (min (e.byteCount.toNat + w.byteCount.toNat) (2 ^ 64 - 1))
          ∧ (∀ y ∈ mapGet [] (sdieAt t (warmHome pr.digest)).warm (warmBucketOf pr.digest), sameFlow y w = false)
          ∧ (∀ y, sameFlow y w = false → (y ∈ mapGet [] (sdieAt t (warmHome pr.digest)).warm (warmBucketOf pr.digest) ↔
              y ∈ mapGet [] (sdieAt s (warmHome pr.digest)).warm (warmBucketOf pr.digest)))
          ∧ (∀ b, b ≠ warmBucketOf pr.digest → mapGet [] (sdieAt t (warmHome pr.digest)).warm b = mapGet [] (sdieAt s (warmHome pr.digest)).warm b)
          ∧ t = { s with pdies := t.pdies, sdies := t.sdies })
        ∧ (∀ k, k ≠ p.val → pdieAt t k = pdieAt s k))
    ∧ (pr.sentNs + 2000 ≤ nowNs s →
      ∃ t, exec (.warmProbeTimeout p n) s = .next t ∧ peekEntry ctx ref (pdieAt t p.val) = some { e with young := false }
        ∧ (pdieAt t p.val).probes = x.probes ∧ (∀ k, k ≠ p.val → pdieAt t k = pdieAt s k) ∧ t = { s with pdies := t.pdies })
    ∧ (nowNs s < pr.sentNs + 2000 → exec (.warmProbeTimeout p n) s = .next s)
    ∧ (pr.sentNs + 2000 < nowNs s → ∃ t, exec (.warmProbeReply p n) s = .next t
        ∧ mapGet 0 (pdieAt t p.val).cnt 110 = mapGet 0 x.cnt 110 + 1 ∧ t = { s with pdies := t.pdies }))
  ∧ (∀ (s : State) (d : Die) (g : Demoting) (rest : List Demoting), let x := sdieAt s d.val
    let b := g.entry.digest.toNat / 4 % 2 ^ 23
    let l := mapGet [] x.warm b
    x.demoting = g :: rest →
    (warmLost x b = true → ∃ t, exec (.demotion d) s = .next t ∧ sdieAt t d.val = { x with demoting := rest }
      ∧ mapGet 0 (pdieAt t g.pdie.val).cnt 111 = mapGet 0 (pdieAt s g.pdie.val).cnt 111 + 1 ∧ t = { s with pdies := t.pdies, sdies := t.sdies })
    ∧ (warmLost x b = false → (∀ y ∈ l, sameFlow y g.entry = false) → l.length < 8 →
      exec (.demotion d) s = .next (putSdie d.val { x with demoting := rest, warm := mapSet b (l ++ [g.entry]) x.warm } (putSdie d.val { x with demoting := rest } s))))
  ∧ (∀ (s : State) (p : Die), let x := pdieAt s p.val
    let ctx := flowCtx s
    let i := x.sweepPos
    ((bucketOf x i).pos.map (·.1)).Nodup →
    ∃ t y, exec (.sweeperVisit p) s = .next t ∧ pdieAt t p.val = y
      ∧ (∀ k e, mapFind k (bucketOf y i).pos = some e ↔ mapFind k (bucketOf x i).pos = some e ∧ stale ctx e = false ∧ aged ctx e = false)
      ∧ (∀ j, j ≠ i → bucketOf y j = bucketOf x j)
      ∧ y.flushLeft = x.flushLeft - 1
      ∧ (i + 1 < 786432 → y.sweepPos = i + 1 ∧ y.lastSweepMs = x.lastSweepMs)
      ∧ (786432 ≤ i + 1 → y.sweepPos = 0)
      ∧ y = { x with hot := y.hot, cnt := y.cnt, sweepPos := y.sweepPos, sweepStartNs := y.sweepStartNs, lastSweepMs := y.lastSweepMs,
                     flushLeft := y.flushLeft }
      ∧ (∀ k, k ≠ p.val → pdieAt t k = pdieAt s k) ∧ t = { s with pdies := t.pdies, loops := t.loops })
  ∧ (∀ (s : State) (d : Die), let x := sdieAt s d.val
    let ctx := flowCtx s
    ∃ t y, exec (.warmSweeperVisit d) s = .next t ∧ sdieAt t d.val = y
      ∧ mapGet [] y.warm x.warmPos = (mapGet [] x.warm x.warmPos).filter (fun e => !stale ctx e && !aged ctx e)
      ∧ (∀ b, b ≠ x.warmPos → mapGet [] y.warm b = mapGet [] x.warm b)
      ∧ y.warmPos = (x.warmPos + 1) % 2 ^ 23
      ∧ y = { x with warm := y.warm, warmPos := y.warmPos }
      ∧ (∀ k, k ≠ d.val → sdieAt t k = sdieAt s k) ∧ t = { s with pdies := t.pdies, sdies := t.sdies })

/-- R35, R39, R404, R410, R411, R414, R457, R521: a verdict leaves its L-die. Model's choices it rests on: log 4, 30, 32, 70. -/
def Obligations.VerdictEgress : Prop :=
  (∀ (s : State) (l : Die) (v : Verdict) (rest : List Verdict), let q := ldieAt s l.val
    q.egress = v :: rest →
    let lat := (s.time.wall - v.tIn).toNat
    let hist := 4 * v.part.val + (if v.source = 0 then 0 else if v.source.toNat ≤ 2 then 1 else 2)
    let common := fun (t : State) =>
      (ldieAt t l.val).egress = rest
      ∧ (∀ e, v.final = true → (e ∈ (ldieAt t l.val).ledger ↔ e ∈ q.ledger ∧ e.lid ≠ v.lid))
      ∧ (mapGet {} t.obs.hists hist).total = (mapGet {} s.obs.hists hist).total + 1
      ∧ (∀ h, h ≠ hist → mapGet {} t.obs.hists h = mapGet {} s.obs.hists h)
      ∧ (∀ k, k ≠ l.val → ldieAt t k = ldieAt s k)
    (v.orphan = true → ∃ t, exec (.verdictEgress l) s = .next t ∧ common t
      ∧ mapGet 0 (ldieAt t l.val).cnt 12 = mapGet 0 q.cnt 12 + 1 ∧ t = { s with ldies := t.ldies, obs := t.obs })
    ∧ (∀ c, v.orphan = false → feedCfg s v.feed.val = some c → let x := portAt s c.port.val
      let k := pkey 3 c.loc
      x.mode.val ≠ 1 → portUp x = true → mapFind v.feed.val s.link.spilling = none → mapGet 0 x.held (pkey 1 c.loc) = 0 → lat < 2 ^ 63 →
      ∃ t, exec (.verdictEgress l) s = .next t ∧ common t
        ∧ portAt t c.port.val = { x with forming := mapSet k (mapGet [] x.forming k ++ [(
            leBytes 4 v.tag.toNat
            ++ [BitVec.ofNat 8 v.feed.val, BitVec.ofNat 8 (16 * v.source.toNat + v.action.toNat), v.cls,
                BitVec.ofNat 8 (b2n v.final + 2 * b2n v.prov + 4 * b2n v.skew + 8 * b2n v.absent)]
            ++ leBytes 2 v.score.toNat ++ leBytes 2 v.epoch.toNat ++ leBytes 2 (min 0xFFFF (lat / 8)) ++ [0, 0], nowNs s)]) x.forming }
        ∧ (∀ j, j ≠ c.port.val → portAt t j = portAt s j)
        ∧ t = { s with ldies := t.ldies, obs := t.obs, link := { s.link with ports := t.link.ports } }))
  ∧ (∀ (s : State) (port : LPort) (f : Local), let x := portAt s port.val
    let k := pkey 3 f.val
    let l := mapGet [] x.forming k
    (portUp x && flitDue (nowNs s) 3 l && maySend x 3 f.val) = true → (l.map (fun r => r.1.length)).sum < 244 →
    exec (.verdictFlitTimeout port f) s = .next (putPort port.val { x with
      forming := mapDel k x.forming
      held := mapSet (pkey 1 f.val) (mapGet 0 x.held (pkey 1 f.val) - 1) x.held
      unacked := x.unacked ++ [{ seq := x.txSeq, ty := 3, feed := f.val, records := l.length, body := l.flatMap (·.1) }]
      txSeq := x.txSeq + 1 } s))
  ∧ (∀ (s : State) (f : Feed) (c : FeedCfg), feedCfg s f.val = some c → let x := portAt s c.port.val
    let late := fun (ty : Nat) => mapGet 0 x.held (pkey (ty - 2) c.loc) = 0
      ∧ ∃ r ∈ mapGet [] x.forming (pkey ty c.loc), r.2 + c.spillUs * 1000 ≤ nowNs s
    (portUp x = true → (late 3 ∨ late 4) →
      ∃ t, exec (.spillTimeout f) s = .next t
        ∧ (mapFind f.val t.link.spilling).isSome = true
        ∧ (∀ ty, ty = 3 ∨ ty = 4 → mapGet [] (portAt t c.port.val).forming (pkey ty c.loc) = spillKeeps ty (mapGet [] x.forming (pkey ty c.loc)))
        ∧ portAt t c.port.val = { x with forming := (portAt t c.port.val).forming }
        ∧ (∀ j, j ≠ c.port.val → portAt t j = portAt s j)
        ∧ t = { s with ldies := t.ldies, link := { s.link with ports := t.link.ports, spilling := t.link.spilling } })
    ∧ (¬late 3 → ¬late 4 → exec (.spillTimeout f) s = .next s))
  ∧ (∀ (s : State) (port : LPort), let x := portAt s port.val
    (x.batch ≠ [] → x.batchSince + 500 ≤ nowNs s →
      exec (.mirrorBatchTimeout port) s = .next (putPort port.val { x with
        framesOut := x.framesOut ++ [verdictFrame s.st.running.feeds x.batchSeq x.batch], batch := [], batchSeq := x.batchSeq + 1 } s))
    ∧ (x.batch = [] ∨ nowNs s < x.batchSince + 500 → exec (.mirrorBatchTimeout port) s = .next s))

/-- R398, R400 to R405, R415 to R419: flits that arrive; a flit is in order when its port takes it, its CRC and form are right, it names its
own type, no nak is set, and its sequence number is the one expected. Model's choices it rests on: log 30, 33, 71. -/
def Obligations.FlitArrival : Prop :=
  ∀ (s : State) (port : LPort) (f : List Byte) (ty : Nat), let p := port.val
    let x := portAt s p
    let k := flitField f 59 56
    x.mode.val ≠ 1 → f.length = 256 → flitField f 63 60 = ty →
    let ok := flitCrcOk f = true ∧ flitBad x.mode.val f = false
    let acked := x.unacked.filter (fun e => !decide ((BitVec.ofNat 12 (flitField f 43 32) - e.seq).toNat < 2048))
    let inOrder := ok ∧ portUp x = true ∧ x.forming = [] ∧ x.dropped = 0 ∧ flitField f 31 31 = 0 ∧ flitField f 24 15 = 0
      ∧ BitVec.ofNat 12 (flitField f 55 44) = x.rxSeq
    let port' := fun (t : State) (y : PortSt) => portAt t p = y ∧ (∀ j, j ≠ p → portAt t j = portAt s j)
    (ok → portUp x = true → x.forming = [] → flitField f 31 31 = 0 → ty = 0 → let cls := flitField f 30 29
      let n := flitField f 24 15
      let key := pkey cls (flitField f 28 25)
      let held := if n = 0 ∨ cls = 0 then x.held else mapSet key (mapGet 0 x.held key + n) x.held
      ∃ t, exec (.idleFlit port f) s = .next t
        ∧ port' t { x with unacked := acked, held := held }
        ∧ (∀ c, n ≠ 0 → cls = 1 ∨ cls = 2 → feedOf s p (flitField f 28 25) = some c → mapFind c.feed.val t.link.spilling = none)
        ∧ t = { s with link := { s.link with ports := t.link.ports, spilling := t.link.spilling } })
    ∧ (ok → x.st.val = 1 → flitField f 31 31 = 0 → ty = 1 →
      ∃ t, exec (.initFlit port f) s = .next t ∧ port' t { x with unacked := acked, initDone := true, held := initCredits (flitBody f) }
        ∧ t = { s with link := { s.link with ports := t.link.ports } })
    ∧ (ok → portUp x = true → ty = 1 → ∃ t, exec (.initFlit port f) s = .next t ∧ (portAt t p).st = 0 ∧ (portAt t p).unacked = [] ∧ (portAt t p).held = [])
    ∧ (inOrder → ty = 2 → ∀ c, feedOf s p k = some c → 0 < mapGet 0 x.granted (pkey 0 k) →
      ∃ t y, exec (.sliceFlit port f) s = .next t ∧ port' t y
        ∧ mapGet [] y.rx (pkey 2 k) = mapGet [] x.rx (pkey 2 k) ++ flitBody f
        ∧ mapGet 0 y.granted (pkey 0 k) + mapGet 0 y.owed (pkey 0 k) = mapGet 0 x.granted (pkey 0 k) + mapGet 0 x.owed (pkey 0 k)
        ∧ (∀ j, j ≠ pkey 2 k → mapGet [] y.rx j = mapGet [] x.rx j)
        ∧ y = { x with rxSeq := x.rxSeq + 1, nakSent := false, unacked := acked, rx := y.rx, granted := y.granted, owed := y.owed }
        ∧ t = { s with link := { s.link with ports := t.link.ports } })
    ∧ (inOrder → ty = 2 → feedOf s p k = none →
      ∃ t, exec (.sliceFlit port f) s = .next t ∧ port' t { x with rxSeq := x.rxSeq + 1, nakSent := false, unacked := acked }
        ∧ mapGet 0 (ldieAt t (p / 16)).cnt 10 = mapGet 0 (ldieAt s (p / 16)).cnt 10 + 1
        ∧ t = { s with link := { s.link with ports := t.link.ports }, ldies := t.ldies })
    ∧ (ty = 2 → portUp x = true → flitCrcOk f = false →
      ∃ t, exec (.sliceFlit port f) s = .next t ∧ port' t { x with nakSent := true, dropped := x.dropped + 1 }
        ∧ mapGet 0 (ldieAt t (p / 16)).cnt 6 = mapGet 0 (ldieAt s (p / 16)).cnt 6 + 1
        ∧ t = { s with link := { s.link with ports := t.link.ports }, ldies := t.ldies })
    ∧ (inOrder → ty = 7 → 0 < mapGet 0 x.granted (pkey 3 k) →
      ∃ t, exec (.wallCtl port f) s = .next t ∧ port' t { x with rxSeq := x.rxSeq + 1, nakSent := false, unacked := acked }
        ∧ mapFind k t.link.wall.lastCtl = some (nowNs s) ∧ (∀ j, j ≠ k → mapFind j t.link.wall.lastCtl = mapFind j s.link.wall.lastCtl)
        ∧ t = { s with link := { s.link with ports := t.link.ports, wall := { s.link.wall with lastCtl := t.link.wall.lastCtl } } })
    ∧ (inOrder → ty = 5 ∨ ty = 6 → 0 < mapGet 0 x.granted (pkey 3 k) →
      let cmd := if ty = 5 then Instr.wallData port f else .wallResult port f
      let stream := mapGet [] x.rx (pkey ty k) ++ flitBody f
      let h := readWallHdr stream
      (stream.length < 64 + h.length →
        ∃ t, exec cmd s = .next t
          ∧ port' t { x with rxSeq := x.rxSeq + 1, nakSent := false, unacked := acked, rx := mapSet (pkey ty k) stream x.rx }
          ∧ t = { s with link := { s.link with ports := t.link.ports } })
      ∧ (stream.length = 64 + h.length → ty = 5 → h.kind = 1 → h.origin ≠ ownPeer s → (modelAt s h.part).epochs = [] →
        ∀ q, routePort s h.origin = some q → ∃ t, exec cmd s = .next t
          ∧ t.link.wall.sent = s.link.wall.sent ++ [(h.origin, wallHdrBytes { h with kind := 2, status := 1, length := 0 })]
          ∧ mapGet [] (portAt t p).rx (pkey ty k) = []
          ∧ t = { s with link := { s.link with ports := t.link.ports, wall := { s.link.wall with sent := t.link.wall.sent } } })
      ∧ (stream.length = 64 + h.length → ty = 6 → h.kind = 2 → s.link.wall.carries = [] → ∃ t, exec cmd s = .next t
          ∧ mapGet 0 (ldieAt t (p / 16)).cnt 15 = mapGet 0 (ldieAt s (p / 16)).cnt 15 + 1
          ∧ t = { s with link := { s.link with ports := t.link.ports }, ldies := t.ldies })
      ∧ (∀ (c : WallCarry) (pal : Pallet) (ep : ModelEpoch), stream.length = 64 + h.length → ty = 6 → h.kind = 2 → h.status = 0 →
          s.link.wall.carries = [c] → c.pallet = h.pallet → mapFind c.pallet (pdieAt s c.pdie.val).inflight = some pal → pal.part.val = h.part →
          epochAt s pal.part.val pal.epoch = some ep → ∃ t, exec cmd s = .next t
          ∧ t.link.wall.carries = [] ∧ mapFind c.pallet (pdieAt t c.pdie.val).inflight = none))

/-- R412, R413: a mirrored frame becomes a slice, or is discarded and counted. Model's choices it rests on: log 35, 72. -/
def Obligations.MirrorFrames : Prop :=
  ∀ (s : State) (port : LPort) (frame : List Byte) (c : FeedCfg), let l := port.val / 16
    let x := portAt s port.val
    s.st.running.feeds.feeds.find? (fun c => c.port.val == port.val) = some c → portUp x = true → x.mode.val = 1 →
    let counted := fun (t : State) => mapGet 0 (ldieAt t l).cnt 13 = mapGet 0 (ldieAt s l).cnt 13 + 1 ∧ t = { s with ldies := t.ldies }
    (∃ t, exec (.mirrorFrame port frame true) s = .next t ∧ counted t)
    ∧ (frame.length < 64 ∨ 9216 < frame.length → ∃ t, exec (.mirrorFrame port frame false) s = .next t ∧ counted t)
    ∧ (64 ≤ frame.length → frame.length ≤ 9216 → isPause frame = true → exec (.mirrorFrame port frame false) s = .next s)
    ∧ (64 ≤ frame.length → frame.length ≤ 9216 → isPause frame = false → c.credits ≤ feedBodies s l c.feed.val →
      ∃ t, exec (.mirrorFrame port frame false) s = .next t ∧ counted t)
    ∧ (64 ≤ frame.length → frame.length ≤ 9216 → isPause frame = false → feedBodies s l c.feed.val < c.credits →
      ∃ t y, exec (.mirrorFrame port frame false) s = .next t
        ∧ ldieAt t l = { ldieAt s l with elastic := (ldieAt s l).elastic ++ [y] }
        ∧ y.feed = c.feed ∧ y.tIn = s.time.wall ∧ dTag y.desc = BitVec.ofNat 24 x.frameCount ∧ dFeed y.desc = c.feed.val ∧ dPart y.desc = c.part
        ∧ dArrival y.desc = s.time.wall.setWidth 32 ∧ dWireLen y.desc = frame.length ∧ dDeadline y.desc = c.deadline.toNat
        ∧ dHdrCount y.desc = min (frame.length - 4) (c.reclen - 16) % 256
        ∧ y.hdr.length = c.reclen - 16
        ∧ (∀ i, i < frame.length - 4 → i < c.reclen - 16 → y.hdr.getD i 0 = frame.getD i 0)
        ∧ portAt t port.val = { x with frameCount := x.frameCount + 1 } ∧ (∀ j, j ≠ port.val → portAt t j = portAt s j)
        ∧ (∀ k, k ≠ l → ldieAt t k = ldieAt s k)
        ∧ t = { s with ldies := t.ldies, link := { s.link with ports := t.link.ports }, obs := { s.obs with traceWait := t.obs.traceWait } })

/-- R399, R402, R406, R407, R409, R420: the training of a port, its going down, and its lanes. Model's choices it rests on: log 4, 34, 73. -/
def Obligations.PortsAndLanes : Prop :=
  (∀ (s : State) (port : LPort), let p := port.val
    let x := portAt s p
    (∀ c, portCfg s p = some c → lanesReady s = true → x.st = 0 →
      (x.restartAt = 0 → ∃ t y, exec (.portTrainingStart port) s = .next t ∧ portAt t p = y ∧ y.st = 1 ∧ y.mode = c.mode ∧ y.trainSince = nowNs s
        ∧ y.signal = true ∧ y.initDone = false ∧ y.held = [] ∧ y.restartAt = 0 ∧ (x.lanesCfg = [] → y.lanesCfg = c.lanes)
        ∧ (∀ f ∈ s.st.running.feeds.feeds, f.port = port → (s.st.running.feeds.feeds.filter (fun g => g.port = port ∧ g.loc = f.loc)) = [f] →
            mapFind f.loc y.reclens = some f.reclen ∧ (s.power.ready = true → f.loc < 16 → mapGet 0 y.granted f.loc = f.credits)
            ∧ (s.power.ready = false → f.loc < 16 → mapGet 0 y.granted f.loc = 0 ∧ mapGet 0 y.owed f.loc = f.credits))
        ∧ (∀ k, k ≠ p → portAt t k = portAt s k) ∧ t = { s with link := { s.link with ports := t.link.ports } })
      ∧ (x.restartAt ≠ 0 → x.restartAt ≤ nowNs s → ∃ t, exec (.portTrainingRestart port) s = .next t ∧ (portAt t p).st = 1
        ∧ (portAt t p).trainSince = nowNs s ∧ (∀ k, k ≠ p → portAt t k = portAt s k) ∧ t = { s with link := { s.link with ports := t.link.ports } }))
    ∧ (∀ n : Fin 17, x.st = 1 → n.val = (lanesLeft s p).length → n.val ≠ 0 → x.initDone = true ∨ x.mode = 1 →
      ∃ t, exec (.portUp port n) s = .next t ∧ portAt t p = { x with st := 2, lanesUp := lanesLeft s p }
        ∧ (∀ m ∈ lanesLeft s p, laneAt t (p / 16) m = { laneAt s (p / 16) m with locked := true, port := Fin.ofNat 16 p })
        ∧ (∀ k, k ≠ p → portAt t k = portAt s k) ∧ t = { s with link := { s.link with ports := t.link.ports, lanes := t.link.lanes } })
    ∧ (let down := fun (t : State) => (portAt t p).st = 0 ∧ (portAt t p).unacked = [] ∧ (portAt t p).held = [] ∧ (portAt t p).granted = []
          ∧ (portAt t p).rx = [] ∧ (portAt t p).forming = [] ∧ (portAt t p).downCount = (if x.downCount = 255 then 255 else x.downCount + 1)
          ∧ (∀ v, v ∈ (ldieAt s (p / 16)).egress → (∃ c ∈ s.st.running.feeds.feeds, c.port = port ∧ c.feed = v.feed) →
              ∃ w ∈ (ldieAt t (p / 16)).egress, w.lid = v.lid ∧ w.orphan = true)
          ∧ (∀ c ∈ t.link.wall.carries, c ∈ s.link.wall.carries ∧ p ∉ routeOf s c.peer.val)
       (portUp x = true → ∃ t, exec (.partnerSignalLoss port) s = .next t ∧ down t ∧ (portAt t p).signal = false)
       ∧ (portUp x = false → exec (.partnerSignalLoss port) s = .next s)
       ∧ (x.st = 1 → x.trainSince + 100000000 ≤ nowNs s → ∃ t, exec (.portTrainingTimeout port) s = .next t ∧ down t
          ∧ (portAt t p).restartAt = nowNs s + 100000000)))
  ∧ (∀ (s : State) (l : Die) (lane : Fin 104) (errors : Nat), let y := laneAt s l.val lane.val
    let p := l.val * 16 + y.port.val
    let limit := ((portCfg s p).map (·.laneErrLimit)).getD 16
    let counted := BitVec.ofNat 16 (min (y.fecUncorr.toNat + errors) 65535)
    y.role.val = 0 ∨ y.role.val = 3 →
    (errors ≤ limit → y.adapted = false → ∃ t, exec (.laneErrorWindow l lane errors) s = .next t
      ∧ laneAt t l.val lane.val = { y with fecUncorr := counted } ∧ t = { s with link := { s.link with lanes := t.link.lanes } })
    ∧ (limit < errors → y.adapted = false → ∃ t, exec (.laneErrorWindow l lane errors) s = .next t
      ∧ laneAt t l.val lane.val = { y with fecUncorr := counted, adapted := true } ∧ t = { s with link := { s.link with lanes := t.link.lanes } })
    ∧ (let removed := fun (t : State) => (laneAt t l.val lane.val).role = 2 ∧ (laneAt t l.val lane.val).locked = false
          ∧ lane.val ∉ (portAt t p).lanesUp ∧ t.dev.intStatus.getLsbD 4 = true ∧ t.flt.head = s.flt.head + 1
          ∧ (portUp (portAt s p) = true → (portAt t p).st = if ((portAt s p).lanesUp.filter (fun n => n != lane.val)) = [] then 0 else 3)
          ∧ (∀ n, freeSpare s l.val = some n → (laneAt t l.val n).swapFor = some lane.val)
       lane.val ∈ (portAt s p).lanesCfg →
       (limit < errors → y.adapted = true → ∃ t, exec (.laneErrorWindow l lane errors) s = .next t ∧ removed t)
       ∧ (y.locked = true → ∃ t, exec (.laneLockLoss l lane) s = .next t ∧ removed t)))
  ∧ (∀ (s : State) (l : Die) (lane : Fin 104) (old : Nat), let y := laneAt s l.val lane.val
    let p := l.val * 16 + y.port.val
    y.swapFor = some old → y.role.val = 1 →
    ∃ t, exec (.spareLaneReady l lane) s = .next t
      ∧ laneAt t l.val lane.val = { y with role := 3, locked := true, swapFor := none }
      ∧ (portAt t p).lanesCfg = (portAt s p).lanesCfg.map (fun n => if n = old then lane.val else n)
      ∧ (portUp (portAt s p) = true → (portAt t p).lanesUp = (portAt s p).lanesUp ++ [lane.val])
      ∧ t.flt.repairGen = s.flt.repairGen + 1 ∧ t.flt.head = s.flt.head + 1
      ∧ t = { s with link := { s.link with ports := t.link.ports, lanes := t.link.lanes }, flt := t.flt })

/-- R299, R305, R307, R315: a stream's next line at its home S-die, for a load or a store whose line is granted. Model's choices it rests on: log 10, 29, 40. -/
def Obligations.MemoryRequests : Prop :=
  (∀ (s : State) (sdie : Die) (b : Brick) (d : Fin 16) (st : Stream), let i := sdie.val
    let x := brickAt s b.val
    let y := sdieAt s i
    mapFind d.val x.fl.streams = some st → overMortar st = true → st.requested < dTotal st.desc → requestsOf s b.val < 128 →
    let pos := st.requested
    let store := dKind st.desc == 7
    let a := if store then dDst st.desc + pos else dAddr st.desc (dSrc st.desc) pos
    let n := min (256 - a % 256) (min (dTotal st.desc - pos) (if store then 256 else dRowLen st.desc - pos % dRowLen st.desc))
    let part := (x.wins.get (dWin st.desc)).part
    homeOf a = i →
    let sent := fun (t : State) (r : MemResponse) => (sdieAt t i).responses = y.responses ++ [r] ∧ r.brick = b ∧ r.d = d ∧ r.pos = pos ∧ r.n = n
      ∧ brickAt t b.val = { x with fl := { x.fl with streams := mapSet d.val { st with requested := pos + n } x.fl.streams } }
      ∧ (∀ k, k ≠ b.val → brickAt t k = brickAt s k) ∧ (∀ k, k ≠ i → sdieAt t k = sdieAt s k) ∧ t = { s with bricks := t.bricks, sdies := t.sdies }
    (∀ p, placeOf a = some p → granted s part a n store = true → store = false → y.lost = false → mapFind (p.off / 256 * 2 + b2n p.sram) y.failedLines = none →
      ∃ t r, exec (.memoryRequest sdie (.stream b d) .good) s = .next t ∧ sent t r ∧ r.bad = none ∧ r.data.length = n
        ∧ (∀ j, j < n → r.data.getD j 0 = memByte (if p.sram then y.sram else y.dram) (p.off + j))
        ∧ (sdieAt t i).dram = y.dram ∧ (sdieAt t i).sram = y.sram ∧ (sdieAt t i).failedLines = y.failedLines
        ∧ mapGet 0 (sdieAt t i).cnt 0 + mapGet 0 (sdieAt t i).cnt 1 = mapGet 0 y.cnt 0 + mapGet 0 y.cnt 1 + 1)
    ∧ (∀ p, placeOf a = some p → granted s part a n store = true → store = false →
      ∃ t r, exec (.memoryRequest sdie (.stream b d) .failed) s = .next t ∧ sent t r ∧ r.data = []
        ∧ r.bad = some (0x0C, BitVec.ofNat 32 (2 ^ 29 + (dDst st.desc + pos) % 2 ^ 28))
        ∧ (sdieAt t i).errValid = true ∧ (sdieAt t i).errAddr = a % 2 ^ 48
        ∧ (mapFind (p.off / 256 * 2 + b2n p.sram) (sdieAt t i).failedLines).isSome = true
        ∧ mapGet 0 (sdieAt t i).cnt 6 = mapGet 0 y.cnt 6 + 1)
    ∧ (∀ p, placeOf a = some p → granted s part a n store = true → store = true →
      ∃ t r, exec (.memoryRequest sdie (.stream b d) .good) s = .next t ∧ sent t r ∧ r.bad = none ∧ r.data = []
        ∧ (∀ j, j < n → memByte (if p.sram then (sdieAt t i).sram else (sdieAt t i).dram) (p.off + j)
            = memByte x.m.staging (dAddr st.desc (dSrc st.desc) (pos + j)))
        ∧ (∀ m, ¬(p.off ≤ m ∧ m < p.off + n) → memByte (if p.sram then (sdieAt t i).sram else (sdieAt t i).dram) m
            = memByte (if p.sram then y.sram else y.dram) m)
        ∧ (if p.sram then (sdieAt t i).dram = y.dram else (sdieAt t i).sram = y.sram))
    ∧ (∀ ecc, (∀ p, placeOf a = some p → granted s part a n store = false) →
      ∃ t r, exec (.memoryRequest sdie (.stream b d) ecc) s = .next t ∧ sent t r ∧ r.data = [] ∧ r.bad = some (0x06, BitVec.ofNat 32 a)
        ∧ mapGet 0 (sdieAt t i).cnt 7 = mapGet 0 y.cnt 7 + 1 ∧ (sdieAt t i).dram = y.dram ∧ (sdieAt t i).sram = y.sram))
  ∧ (∀ (s : State) (sdie : Die) (addr : Nat) (p : MemPlace), placeOf addr = some p → p.sdie = sdie.val → let y := sdieAt s sdie.val
    (∃ t, exec (.memoryRequest sdie (.loaderRead addr) .good) s = .next t
      ∧ mapGet 0 (sdieAt t sdie.val).cnt 0 + mapGet 0 (sdieAt t sdie.val).cnt 1 = mapGet 0 y.cnt 0 + mapGet 0 y.cnt 1 + 1
      ∧ (p.sram = false → cached (cacheSets s y) (sdieAt t sdie.val) (p.off / 256) = true)
      ∧ sdieAt t sdie.val = { y with cache := (sdieAt t sdie.val).cache, cnt := (sdieAt t sdie.val).cnt }
      ∧ (∀ k, k ≠ sdie.val → sdieAt t k = sdieAt s k) ∧ t = { s with sdies := t.sdies })
    ∧ (∀ (data : List Byte) ecc, p.off % 256 + data.length ≤ 256 → p.sram = false →
      ∃ t, exec (.memoryRequest sdie (.loaderWrite addr data) ecc) s = .next t
        ∧ (∀ j, j < data.length → memByte (sdieAt t sdie.val).dram (p.off + j) = data.getD j 0)
        ∧ (∀ m, ¬(p.off ≤ m ∧ m < p.off + data.length) → memByte (sdieAt t sdie.val).dram m = memByte y.dram m)
        ∧ sdieAt t sdie.val = { y with dram := (sdieAt t sdie.val).dram } ∧ (∀ k, k ≠ sdie.val → sdieAt t k = sdieAt s k) ∧ t = { s with sdies := t.sdies })
    ∧ (exec (.lineRewrite sdie addr) s =
        .next (putSdie sdie.val { y with failedLines := mapDel (p.off / 256 * 2 + b2n p.sram) y.failedLines } s)))

/-- R222, R307: a response returns to its brick's stream. Model's choices it rests on: log 40. -/
def Obligations.MemoryResponses : Prop :=
  ∀ (s : State) (sdie : Die) (r : MemResponse) (rest : List MemResponse), let y := sdieAt s sdie.val
    let x := brickAt s r.brick.val
    y.responses = r :: rest →
    (mapFind r.d.val x.fl.streams = none →
      ∃ t, exec (.memoryResponse sdie) s = .next t ∧ (sdieAt t sdie.val) = { y with responses := rest } ∧ (∀ k, brickAt t k = brickAt s k)
        ∧ t = { s with bricks := t.bricks, sdies := t.sdies })
    ∧ (∀ st, mapFind r.d.val x.fl.streams = some st → overMortar st = true →
      let lands := fun (st' : Stream) => ∃ t, exec (.memoryResponse sdie) s = .next t ∧ sdieAt t sdie.val = { y with responses := rest }
        ∧ brickAt t r.brick.val = { x with fl := { x.fl with streams := mapSet r.d.val st' x.fl.streams } }
        ∧ (∀ k, k ≠ r.brick.val → brickAt t k = brickAt s k) ∧ (∀ k, k ≠ sdie.val → sdieAt t k = sdieAt s k)
        ∧ t = { s with bricks := t.bricks, sdies := t.sdies }
      (r.bad = none → r.pos = st.got → st.parts = [] → 0 < r.n → dKind st.desc ≠ 7 → dTranspose st.desc = false →
        lands { st with got := st.got + r.n, arrived := st.got + r.n, buf := st.buf ++ (st.raw ++ r.data), raw := [] })
      ∧ (r.bad = none → r.pos = st.got → st.parts = [] → 0 < r.n → dKind st.desc = 7 →
        lands { st with got := st.got + r.n, arrived := st.got + r.n, raw := st.raw ++ r.data })
      ∧ (r.bad = none → st.got < r.pos → st.parts = [] → dKind st.desc ≠ 7 → dTranspose st.desc = false →
        lands { st with parts := [(r.pos, (r.n, r.data))], arrived := st.got, buf := st.buf ++ st.raw, raw := [] })
      ∧ (∀ c info, r.bad = some (c, info) → st.bad = none → lands { st with bad := some (r.pos, c, info) }))

/-- R327 to R334, R344, R345: tokens, contexts and sequence pallets. Model's choices it rests on: log 10, 21, 36. -/
def Obligations.SequenceContexts : Prop :=
  (∀ (s : State) (sdie : Die) (t : TokenMsg) (rest : List TokenMsg) (c : SeqContext) (e : ModelEpoch), let i := sdie.val
    let x := sdieAt s i
    let k := t.ctx.toNat / 4
    x.tokens = t :: rest → x.lost = false → mapFind k x.ctxs = some c → t.req = none →
    (tokenOk s t c = true → epochAt s t.part.val t.epoch = some e → seqServes s t.part.val e = true → c.busy = false → c.hot = true → c.queue = [] →
      c.envValid = false → (∀ p ∈ x.seqPallets, ¬(p.sent = false ∧ p.part = t.part ∧ p.epoch = t.epoch)) →
      ∃ u c', exec (.tokenArrive sdie false) s = .next u ∧ mapFind k (sdieAt u i).ctxs = some c'
        ∧ c' = { c with busy := true, lastTs := t.ts, lastUseNs := nowNs s, tokens := c'.tokens, state := c'.state }
        ∧ c'.tokens.toNat = min (c.tokens.toNat + 1) 0xFFFFFFFF
        ∧ c'.state = (if c.epoch ≠ 0 ∧ c.epoch ≠ t.epoch ∧ e.vd.stateKeep = false then List.replicate 512 0 else c.state)
        ∧ (sdieAt u i).seqPallets = x.seqPallets ++ [{
            id := x.nextPallet, part := t.part, epoch := t.epoch, structEpoch := t.structEpoch
            rows := [{ ctx := k, tok := t.tok, msg := some t, starts := !c.rollout }], firstNs := nowNs s }]
        ∧ (sdieAt u i).tokens = rest ∧ mapGet 0 (sdieAt u i).cnt 100 = mapGet 0 x.cnt 100 + 1
        ∧ (∀ j, j ≠ k → mapFind j (sdieAt u i).ctxs = mapFind j x.ctxs) ∧ (∀ j, j ≠ i → sdieAt u j = sdieAt s j)
        ∧ u = { s with sdies := u.sdies })
    ∧ (tokenOk s t c = true → epochAt s t.part.val t.epoch = some e → seqServes s t.part.val e = true → c.busy = true → c.queue.length < 7 → c.hot = true →
      (x.ctxs.map (fun y => y.2.queue.length)).sum < 262144 →
      ∃ u, exec (.tokenArrive sdie false) s = .next u ∧ mapFind k (sdieAt u i).ctxs = some { c with queue := c.queue ++ [t] }
        ∧ (sdieAt u i).tokens = rest ∧ u = { s with sdies := u.sdies })
    ∧ (tokenOk s t c = false → ∃ u, exec (.tokenArrive sdie false) s = .next u ∧ mapFind k (sdieAt u i).ctxs = some c
        ∧ mapGet 0 (sdieAt u i).cnt 103 = mapGet 0 x.cnt 103 + 1 ∧ (sdieAt u i).tokens = rest ∧ u = { s with sdies := u.sdies, pdies := u.pdies }))
  ∧ (∀ (s : State) (sdie : Die) (k : Nat) (c : SeqContext), let i := sdie.val
    let x := sdieAt s i
    mapFind k x.ctxs = some c →
    (k ∈ x.fetching → hotInSet x k < 16 → c.queue = [] →
      ∃ u, exec (.contextFetched sdie k .good) s = .next u ∧ k ∉ (sdieAt u i).fetching
        ∧ sdieAt u i = { x with fetching := (sdieAt u i).fetching, ctxs := mapSet k { c with hot := true, lastUseNs := nowNs s } x.ctxs }
        ∧ (∀ j, j ≠ i → sdieAt u j = sdieAt s j) ∧ u = { s with sdies := u.sdies })
    ∧ (∀ state e, x.writebacks.find? (fun w => w.1 == k) = some (k, state, e) →
      (c.markedLost = false → c.freeWhenIdle = false → c.queue = [] →
        ∃ u, exec (.contextWriteback sdie k) s = .next u
          ∧ sdieAt u i = { x with
              ctxs := mapSet k { c with busy := false, state := state, epoch := e } x.ctxs
              writebacks := x.writebacks.filter (fun w => w.1 != k) }
          ∧ (∀ j, j ≠ i → sdieAt u j = sdieAt s j) ∧ u = { s with sdies := u.sdies })
      ∧ (c.markedLost = true ∨ (c.freeWhenIdle = true ∧ c.queue = []) →
        ∃ u, exec (.contextWriteback sdie k) s = .next u ∧ mapFind k (sdieAt u i).ctxs = none ∧ mapFind k (sdieAt u i).shadows = none
          ∧ (∀ j, j ≠ k → mapFind j (sdieAt u i).ctxs = mapFind j x.ctxs) ∧ u = { s with sdies := u.sdies })))
  ∧ (∀ (s : State) (sdie : Die) (k : Nat) (c : SeqContext), let i := sdie.val
    let x := sdieAt s i
    nextCtx x = some k → mapFind k x.ctxs = some c → c.envValid = false → let w := partAt s c.part.val
    let idle := bits 11 0 w.seqCtl.toNat
    let gone := c.gen ≠ w.gen ∨ c.freeWhenIdle = true
    let aged := idle ≠ 0 ∧ min 3600 idle * 1000000000 / 1024 ≤ ageOf (timeStampOf s.time.wall) c.lastTs
    (¬gone → ¬aged → exec (.contextSweep sdie) s = .next (putSdie i { x with sweepPos := k + 1 } s))
    ∧ (gone ∨ aged → c.busy = true → ∃ u, exec (.contextSweep sdie) s = .next u ∧ mapFind k (sdieAt u i).ctxs = some { c with freeWhenIdle := true }
        ∧ (sdieAt u i).sweepPos = k + 1 ∧ u = { s with sdies := u.sdies })
    ∧ (gone ∨ aged → c.busy = false → c.queue = [] → ∃ u, exec (.contextSweep sdie) s = .next u ∧ mapFind k (sdieAt u i).ctxs = none
        ∧ (∀ j, j ≠ k → mapFind j (sdieAt u i).ctxs = mapFind j x.ctxs)
        ∧ (¬gone → mapGet 0 (sdieAt u i).cnt 108 = mapGet 0 x.cnt 108 + 1) ∧ u = { s with sdies := u.sdies }))

/-- R331 to R335: a sequence pallet goes to its pool, and its results come back. Model's choices it rests on: log 4, 21, 36, 77. -/
def Obligations.SequencePallets : Prop :=
  (∀ (s : State) (sdie : Die) (part : Part) (p : SeqPallet) (g : Group), let i := sdie.val
    let x := sdieAt s i
    x.seqPallets.find? (fun p => p.part == part && !p.sent) = some p → (∀ q ∈ x.seqPallets, q.id = p.id → q = p) →
    (p.rows.length < 128 → nowNs s < p.firstNs + seqFill s part.val → exec (.seqFillTimeout sdie part) s = .next s)
    ∧ (p.firstNs + seqFill s part.val ≤ nowNs s → (∀ q ∈ x.seqPallets, q.sent = false → q.part = part) → seqGroup s part.val p.id = some g →
      (∀ b ∈ groupBricks s [g], windowFull s g.window b = false ∧ (brickAt s b).c.phase = .running) → g.lockstep = false → (groupBricks s [g]).Nodup →
      ∃ u, exec (.seqFillTimeout sdie part) s = .next u
        ∧ (∃ q ∈ (sdieAt u i).seqPallets, q = { p with sent := true, bricks := groupBricks s [g],
                                                        params := ((epochAt s part.val p.epoch).map (·.params)).getD [] })
        ∧ (∀ b ∈ groupBricks s [g], windowFull u g.window b = true) ∧ (∀ b, b ∉ groupBricks s [g] → brickAt u b = brickAt s b)
        ∧ u = { s with sdies := u.sdies, bricks := u.bricks, loops := u.loops, freeIx := u.freeIx }))
  ∧ (∀ (s : State) (sdie : Die) (n : Nat) (p : SeqPallet) (row : SeqRow) (t : TokenMsg) (c : SeqContext) (ep : ModelEpoch) (code : HykaiCode),
    let i := sdie.val
    let x := sdieAt s i
    x.seqPallets.find? (fun p => p.id == n && p.sent) = some p → p.failed = false → p.rows = [row] → row.rollout = false → row.msg = some t →
    row.starts = false → epochAt s p.part.val p.epoch = some ep → ep.vd.seqCode = some code → mapFind row.ctx x.ctxs = some c → c.markedLost = false →
    let r := programParams code p.params s
    let env := hProgram { modelCtx ep code r.1 [] with ctxs := [c.state], snaps := [some t.snap] } 1 [seqRecord row] (List.replicate 5 0x78)
    let written := (row.ctx, (env.newCtx.map (fun st => st.getD 0 c.state)).getD c.state, if env.newCtx.isSome then p.epoch else c.epoch)
    let back := fun (u : State) => (∀ q ∈ (sdieAt u i).seqPallets, q.id ≠ n) ∧ (sdieAt u i).writebacks = x.writebacks ++ [written]
    env.surprise = none →
    (t.req = none → ∃ u, exec (.seqPalletResult sdie n) s = .next u ∧ back u ∧ (sdieAt u i).ctxs = x.ctxs)
    ∧ (∀ k z es, t.req = some k → mapFind k (pdieAt s t.pdie.val).slots = some z → env.emit = some es → Timely s z.st →
      ∃ u, exec (.seqPalletResult sdie n) s = .next u ∧ back u ∧ mapFind k (pdieAt u t.pdie.val).slots = none
        ∧ ∃ v ∈ (ldieAt u z.st.ldie.val).egress, v.source = 2 ∧ v.lid = z.st.lid ∧ v.tag = dTag z.st.s.desc ∧ v.final = true
          ∧ v.action = rAction (ruleOf ep.vd.seqMap (es.getD 0 (0, 0)).1 (es.getD 0 (0, 0)).2) ∧ v.score = (es.getD 0 (0, 0)).2))

/-- R354, R355, R360, R362: a load up to PREPARED, with the refusals in their order. Model's choices it rests on: log 4, 10, 14, 15. -/
def Obligations.LoadSteps : Prop :=
  ∀ (s : State) (part : Part), let p := part.val
    let l := (modelAt s p).load
    let only := fun (u t : State) => (∀ q, q ≠ p → modelAt t q = modelAt u q)
      ∧ modelAt t p = { modelAt u p with load := (modelAt t p).load } ∧ t = { u with models := t.models, parts := t.parts, out := t.out }
    let ends := fun (t : State) (code : Byte) (sec : Nat) => let m := (modelAt t p).load
      m.phase = .idle ∧ m.code = code ∧ m.image = none ∧ m.vd = none ∧ m.detailSection = BitVec.ofNat 6 sec
      ∧ (∀ q, q ≠ p → modelAt t q = modelAt s q) ∧ (modelAt t p).epochs = (modelAt s p).epochs
      ∧ t = { s with models := t.models, parts := t.parts, out := t.out, auth := t.auth }
    (∀ path, MayRun s path 6 →
      (l.phase = .idle → partEnabled s p = true → ∃ u t, exec (.loadPrepare path part) s = .next t ∧ Recorded s u path 0x20 p 0 ∧ only u t
        ∧ (modelAt t p).load = { l with
            phase := .fetching, code := 0, image := none, vd := none, place := {}, gap := false, detailSection := 0, detailOffset := 0 })
      ∧ (l.phase ≠ .idle → ∃ u t, exec (.loadPrepare path part) s = .next t ∧ Recorded s u path 0x20 p 3 ∧ only u t
        ∧ (modelAt t p).load = { l with code := 0x0A })
      ∧ (l.phase = .idle → partEnabled s p = false → ∃ u t, exec (.loadPrepare path part) s = .next t ∧ Recorded s u path 0x20 p 3 ∧ only u t
        ∧ (modelAt t p).load = { l with code := 0x0B }))
    ∧ (∀ path, MayNotRun s path 6 → ∃ t, exec (.loadPrepare path part) s = .next t ∧ (modelAt t p).load = { l with code := 0x0C })
    ∧ (∀ v, exec (.loadPrepare (.vf v) part) s = .next s)
    ∧ (∀ image, l.phase = .fetching → ∃ t, exec (.imageFetched part image) s = .next t ∧ only s t
        ∧ (modelAt t p).load = { l with phase := .verifying, image := some image })
    ∧ (∀ image, l.phase ≠ .fetching → exec (.imageFetched part image) s = .next s)
    ∧ (∀ i, l.phase = .verifying → l.image = some i →
        (imageMalformed i l.len.toNat = true → ∃ t, exec (.verifyComplete part) s = .next t ∧ ends t 0x01 0)
        ∧ (imageMalformed i l.len.toNat = false → modelKey s p i.keyId = none → ∃ t, exec (.verifyComplete part) s = .next t ∧ ends t 0x02 0)
        ∧ (∀ key, imageMalformed i l.len.toNat = false → modelKey s p i.keyId = some key → verifies key i.digest i.signature = false →
            ∃ t, exec (.verifyComplete part) s = .next t ∧ ends t 0x03 0)
        ∧ (∀ v d, verifyImage s p i = .inr (v, d) → v < 8 → ∃ t, exec (.verifyComplete part) s = .next t ∧ only s t
            ∧ (modelAt t p).load = { l with phase := .translating, variant := Fin.ofNat 8 v, vd := some d, imageHash := imageHashOf i }))
    ∧ (∀ i v plan, l.phase = .translating → l.image = some i → l.vd = some v → translateRefused s v = none →
        (plan.xlCode = 0x0A → ∃ t, exec (.translationComplete part plan) s = .next t ∧ ends t 0x08 plan.section_.toNat)
        ∧ (plan.xlCode = 0 → plan.refusal = 0 → plan.excessPages = 0 →
          (stagesUnfit s p v = true ∨ treesUnfit s p v.ensemble = true → ∃ t, exec (.translationComplete part plan) s = .next t ∧ ends t 0x08 0)
          ∧ (stagesUnfit s p v = false → treesUnfit s p v.ensemble = false → passesOf v.ensemble = 1 →
            bits 31 16 l.ctl.toNat ≠ 0 → bits 31 16 l.ctl.toNat < plan.predictedNs → ∃ t, exec (.translationComplete part plan) s = .next t ∧ ends t 0x09 0)
          ∧ (stagesUnfit s p v = false → treesUnfit s p v.ensemble = false → passesOf v.ensemble = 1 →
            (bits 31 16 l.ctl.toNat = 0 ∨ plan.predictedNs ≤ bits 31 16 l.ctl.toNat) → bit 4 l.ctl.toNat = false →
            ∃ t, exec (.translationComplete part plan) s = .next t
              ∧ (modelAt t p).load.phase = .prepared ∧ (modelAt t p).load.passes = 1 ∧ (modelAt t p).load.gap = false
              ∧ (modelAt t p).load.place.predictedNs = plan.predictedNs ∧ (modelAt t p).load.place.kind = 0
              ∧ (modelAt t p).load.report.extractLsb' 48 16 = BitVec.ofNat 16 (min 0xFFFF plan.predictedNs)
              ∧ (∀ q, q ≠ p → modelAt t q = modelAt s q) ∧ (modelAt t p).epochs = (modelAt s p).epochs
              ∧ t = { s with models := t.models, parts := t.parts, out := t.out, auth := t.auth })))

/-- R363 to R367: COMMIT, ABORT and UNLOAD, and the epoch change at T_c. Model's choices it rests on: log 4, 16, 37. -/
def Obligations.ModelCommits : Prop :=
  ∀ (s : State) (part : Part), let p := part.val
    let m := modelAt s p
    let l := m.load
    let only := fun (u t : State) => (∀ q, q ≠ p → modelAt t q = modelAt u q) ∧ (modelAt t p).epochs = m.epochs ∧ (modelAt t p).lastNum = m.lastNum
      ∧ t = { u with models := t.models, parts := t.parts, out := t.out, dev := { u.dev with sched := t.dev.sched }, auth := t.auth }
    (∀ path, MayRun s path 6 →
      (l.phase = .prepared → l.commits = [] → (∀ e ∈ m.epochs, e.st ≠ .draining) →
        ∃ u t, exec (.loadCommit path part) s = .next t ∧ Recorded s u path 0x20 p 0 ∧ only u t ∧ t.auth = u.auth
          ∧ (scheduleHeld s p = false → (modelAt t p).load = { l with phase := .committing, commits := [{ kind := .load, tc := some (nextInstant s) }] }
            ∧ t.dev.sched = s.dev.sched ++ [(nextInstant s, 0, part)])
          ∧ (scheduleHeld s p = true → (modelAt t p).load = { l with phase := .committing, commits := [{ kind := .load }] } ∧ t.dev = s.dev))
      ∧ (l.phase ≠ .prepared →
        ∃ u t, exec (.loadCommit path part) s = .next t ∧ Recorded s u path 0x20 p 3 ∧ only u t ∧ (modelAt t p).load = { l with code := 0x0F })
      ∧ (l.phase = .prepared → ∃ u t, exec (.loadAbort path part) s = .next t ∧ Recorded s u path 0x20 p 0 ∧ only u t
          ∧ (modelAt t p).load.phase = .idle ∧ (modelAt t p).load.code = 0x0D ∧ (modelAt t p).load.commits = l.commits)
      ∧ ((activeEpoch s p).isSome = true → l.commits = [] → (∀ e ∈ m.epochs, e.st ≠ .draining) → scheduleHeld s p = false →
        ∃ u t, exec (.loadUnload path part) s = .next t ∧ Recorded s u path 0x20 p 0 ∧ only u t
          ∧ (modelAt t p).load = { l with commits := [{ kind := .unload, tc := some (nextInstant s) }] })
      ∧ (activeEpoch s p = none → ∃ u t, exec (.loadUnload path part) s = .next t ∧ Recorded s u path 0x20 p 3 ∧ only u t
          ∧ (modelAt t p).load = { l with code := 0x0F }))
    ∧ (∀ v, exec (.loadCommit (.vf v) part) s = .next s ∧ exec (.loadAbort (.vf v) part) s = .next s ∧ exec (.loadUnload (.vf v) part) s = .next s)
    ∧ (∀ (c : CommitSt) (rest : List CommitSt) (t₀ : DWord), l.commits = c :: rest → c.tc = some t₀ →
      let drained := fun (t : State) => ∀ a ∈ m.epochs, a.st = .active → ∃ b ∈ (modelAt t p).epochs, b.num = a.num
        ∧ b.st = (if a.inflight = 0 then .retired else .draining) ∧ b.inflight = a.inflight ∧ b.since = nowNs s
      (s.time.wall.toNat < t₀.toNat → exec (.modelTc part) s = .next s)
      ∧ (t₀.toNat ≤ s.time.wall.toNat → s.st.pause = none →
        (∀ vd, c.kind = .load → l.vd = some vd → (∀ b ∈ l.blocks, b.tp ≠ none) → ∃ t e, exec (.modelTc part) s = .next t ∧ drained t
          ∧ e ∈ (modelAt t p).epochs ∧ e.num = (if m.lastNum = 0xFFFF then 1 else m.lastNum + 1) ∧ e.st = .active ∧ e.vd = vd ∧ e.inflight = 0
          ∧ (modelAt t p).lastNum = e.num ∧ (modelAt t p).cascadeOn = true ∧ (partAt t p).cascade.getLsbD 0 = true ∧ (partAt t p).fault.targetLost = false
          ∧ (modelAt t p).load.phase = .idle ∧ (modelAt t p).load.code = 0
          ∧ t.dev.lastTc = t₀ ∧ t.dev.lastKind = 0 ∧ t.dev.lastPart = part
          ∧ (∀ q, q ≠ p → (modelAt t q) = modelAt s q)
          ∧ t = { s with bricks := t.bricks, sdies := t.sdies, grants := t.grants, parts := t.parts, models := t.models, dev := t.dev, auth := t.auth,
                         out := t.out, freeIx := t.freeIx })
        ∧ (c.kind = .unload → ∃ t, exec (.modelTc part) s = .next t ∧ drained t ∧ activeEpoch t p = none
          ∧ (modelAt t p).cascadeOn = false ∧ (partAt t p).cascade.getLsbD 0 = false ∧ (partAt t p).stream = 0
          ∧ (modelAt t p).lastNum = m.lastNum ∧ t.dev.lastTc = t₀ ∧ t.bricks = s.bricks ∧ (∀ q, q ≠ p → (modelAt t q) = modelAt s q))))

/-- R361, R364 to R366: an epoch forced into retirement, freed, and its remaining pages written. Model's choices it rests on: log 4, 16, 38. -/
def Obligations.EpochEnds : Prop :=
  ∀ (s : State) (part : Part), let p := part.val
    let m := modelAt s p
    (∀ e, drainingEpoch s p = some e →
      (nowNs s < e.since + 2000000 → exec (.forcedRetirement part) s = .next s)
      ∧ (e.since + 2000000 ≤ nowNs s → ∃ t, exec (.forcedRetirement part) s = .next t
        ∧ (∀ x ∈ (modelAt t p).epochs, x.num = e.num → x.st = .retired ∧ x.inflight = 0)
        ∧ (modelAt t p).epochs.map (·.num) = m.epochs.map (·.num)
        ∧ (modelAt t p).forced = (if m.forced = 255 then 255 else m.forced + 1)
        ∧ (∀ q k r, mapFind k (pdieAt t q).slots = some r → ¬(dPart r.st.s.desc = part ∧ r.st.modelEpoch = e.num))
        ∧ (∀ q, ∀ st ∈ (pdieAt t q).inbox, ¬(dPart st.s.desc = part ∧ st.modelEpoch = e.num))
        ∧ (∀ q k r, mapFind k (pdieAt s q).slots = some r → dPart r.st.s.desc = part → r.st.modelEpoch = e.num → Timely s r.st →
            ∃ v ∈ (ldieAt t r.st.ldie.val).egress, v.lid = r.st.lid ∧ v.tag = dTag r.st.s.desc ∧ v.source = 4 ∧ v.action = r.fbAction)
        ∧ (∀ q, q ≠ p → (modelAt t q).epochs = (modelAt s q).epochs)
        ∧ t = { s with pdies := t.pdies, ldies := t.ldies, sdies := t.sdies, parts := t.parts, models := t.models, st := t.st, dev := t.dev }))
    ∧ (∀ e, m.epochs.find? (fun e => e.st == .retired) = some e →
      ∃ t, exec (.epochFreed part) s = .next t
        ∧ (modelAt t p).epochs = m.epochs.filter (fun x => x.num != e.num)
        ∧ (∀ b k q, mapFind k (brickAt t b).vec.stats = some q → ¬(q.part = part ∧ q.epoch = e.num))
        ∧ ((∀ x ∈ m.epochs, x.num ≠ e.num → x.place.id ≠ e.place.id) →
            t.grants = s.grants.filter (fun g => !(g.part == part && g.epoch == e.place.id && g.epoch != 0))
            ∧ (∀ q ∈ e.place.pages, (brickAt t q.1).m.loaded &&& q.2 = 0
                ∧ ∀ a, q.2.getLsbD (a / 4096) = true → memByte (brickAt t q.1).m.bmem a = 0))
        ∧ ((∃ x ∈ m.epochs, x.num ≠ e.num ∧ x.place.id = e.place.id) → t.grants = s.grants ∧ ∀ b, (brickAt t b).m.bmem = (brickAt s b).m.bmem)
        ∧ (∀ q, q ≠ p → modelAt t q = modelAt s q)
        ∧ t = { s with bricks := t.bricks, sdies := t.sdies, grants := t.grants, models := t.models })
    ∧ (m.epochs.find? (fun e => e.st == .retired) = none → exec (.epochFreed part) s = .next s)
    ∧ (∀ e, activeEpoch s p = some e → e.gapMissing = true →
      ((∀ x ∈ m.epochs, x.st ≠ .draining ∧ x.st ≠ .retired) → ∃ t, exec (.gapPagesWritten part) s = .next t
        ∧ (∀ x ∈ (modelAt t p).epochs, x.num = e.num → x.gapMissing = false) ∧ (modelAt t p).epochs.map (·.num) = m.epochs.map (·.num)
        ∧ (∀ b, (brickAt t b).m.loaded ||| (brickAt s b).m.loaded = (brickAt t b).m.loaded)
        ∧ (∀ b a, (brickAt s b).m.loaded.getLsbD (a / 4096) = true → memByte (brickAt t b).m.bmem a = memByte (brickAt s b).m.bmem a)
        ∧ (∀ q, q ≠ p → modelAt t q = modelAt s q) ∧ t = { s with bricks := t.bricks, models := t.models, freeIx := t.freeIx })
      ∧ ((∃ x ∈ m.epochs, x.st = .draining ∨ x.st = .retired) → exec (.gapPagesWritten part) s = .next s))

/-- R370, R388: a parameter block is accepted, waits or is refused, and applies at its instant. Model's choices it rests on: log 4, 17, 37. -/
def Obligations.ParameterBlocks : Prop :=
  ∀ (s : State) (part : Part) (block : ParamBlock), let p := part.val
    let m := modelAt s p
    let l := m.load
    (∀ path, MayRun s path 6 →
      (l.phase = .committing → ∃ u, Recorded s u path 0x22 p 0 ∧
        exec (.paramCommit path part block) s = .next (putModel p { m with load := { l with blocks := l.blocks ++ [{ block }] } } u))
      ∧ (∀ e, l.phase ≠ .committing → activeEpoch s p = some e → badBlock e block = false → ∃ u t, Recorded s u path 0x22 p 0 ∧
        exec (.paramCommit path part block) s = .next t
        ∧ t = { putModel p { m with load := { l with blocks := l.blocks ++ [{ block, epoch := e.num, tp := some (nextInstant s) }] } } u with
            dev := { s.dev with sched := s.dev.sched ++ [(nextInstant s, 2, part)] } })
      ∧ (∀ e, l.phase ≠ .committing → activeEpoch s p = some e → badBlock e block = true → ∃ t, exec (.paramCommit path part block) s = .next t
        ∧ (modelAt t p).load = { l with code := 0x06 })
      ∧ (l.phase ≠ .committing → activeEpoch s p = none → ∃ t, exec (.paramCommit path part block) s = .next t
        ∧ (modelAt t p).load = { l with code := 0x0F }))
    ∧ (∀ v, exec (.paramCommit (.vf v) part block) s = .next s)
    ∧ (∀ (b : ParamWait) (rest : List ParamWait) (tp : DWord), l.blocks = b :: rest → b.tp = some tp →
      (s.time.wall.toNat < tp.toNat → exec (.paramTp part) s = .next s)
      ∧ (tp.toNat ≤ s.time.wall.toNat → ∃ t, exec (.paramTp part) s = .next t
        ∧ (modelAt t p).load.blocks = rest ∧ (modelAt t p).load.code = 0
        ∧ (modelAt t p).epochs = m.epochs.map (fun e => if e.num = b.epoch then
            { e with params := b.block.vals.foldl (fun m v => mapSet v.1 v.2 m) e.params, offsets := b.block.offsets, offVersion := e.offVersion + 1 } else e)
        ∧ (∀ q, ∀ z ∈ (pdieAt t q).open_, z.part ≠ part)
        ∧ (∀ q, ∀ z, z.part ≠ part → (z ∈ (pdieAt t q).open_ ↔ z ∈ (pdieAt s q).open_))
        ∧ t.dev.lastTc = tp ∧ t.dev.lastKind = 2 ∧ t.dev.lastPart = part
        ∧ (∀ q, q ≠ p → modelAt t q = modelAt s q)
        ∧ t = { s with pdies := t.pdies, parts := t.parts, models := t.models, loops := t.loops, dev := t.dev, out := t.out, freeIx := t.freeIx }))

/-- R158 to R160, R162, R168, R174: a drift window ends, and the operator's commands of re-tempering. Model's choices it rests on: log 4, 19. -/
def Obligations.DriftWatch : Prop :=
  ∀ (s : State) (part : Part), let p := part.val
    let x := partAt s p
    let d := x.drift
    let only := fun (u t : State) => (∀ q, q ≠ p → partAt t q = partAt u q) ∧ t = { u with parts := t.parts, out := t.out }
    (∀ e, activeEpoch s p = some e → d.state.val = 1 ∨ d.state.val = 2 →
      let r := evalWindow e (statsNow s p) d.seen
      let above := (r.filter (fun k => k.2.2)).map (·.1)
      let short := (r.filter (fun k => k.2.1)).map (·.1)
      let allShort := r.all (fun k => k.2.1)
      let hold := if above ≠ [] then min 255 (d.holdCount + 1) else if allShort then d.holdCount else 0
      let calm := if above = [] ∧ allShort = false then d.calm + 1 else 0
      let rises := d.state.val = 1 ∧ bits 23 16 d.ctl.toNat ≤ hold
      let falls := d.state.val = 2 ∧ bits 23 16 d.ctl.toNat ≤ calm
      let ended : DriftSt := { d with
        setsAbove := BitVec.ofNat 8 ((above.map (fun i => 2 ^ i)).sum), setsShort := BitVec.ofNat 8 ((short.map (fun i => 2 ^ i)).sum)
        windowNs := nowNs s, seen := statsNow s p, holdCount := hold, calm := if rises ∨ falls then 0 else calm
        state := if rises then 2 else if falls then 1 else d.state }
      (nowNs s < d.windowNs + bits 9 0 d.ctl.toNat * 1000000 → exec (.driftWindowEnd part) s = .next s)
      ∧ (d.windowNs + bits 9 0 d.ctl.toNat * 1000000 ≤ nowNs s → bit 31 d.ctl.toNat = false →
        ∃ t, exec (.driftWindowEnd part) s = .next t ∧ (partAt t p).drift = ended ∧ only s t)
      ∧ (d.windowNs + bits 9 0 d.ctl.toNat * 1000000 ≤ nowNs s → ended.state = 2 → above ≠ [] → mayTemper s p = true → intervalOver s p = true →
        ∃ t a, exec (.driftWindowEnd part) s = .next t ∧ (partAt t p).drift = { ended with state := 3, attempt := some a }
          ∧ a.epoch = e.num ∧ a.startNs = nowNs s ∧ a.rows = [] ∧ (sdieAt t a.sdie.val).captureOf = some part
          ∧ (∀ q, q ≠ p → partAt t q = partAt s q) ∧ t = { s with parts := t.parts, out := t.out, sdies := t.sdies }))
    ∧ (∀ path, MayRun s path 6 →
      (∀ v : Word, ∃ u t stored, exec (.driftCtlWrite path part v) s = .next t ∧ Recorded s u path 0x28 p 0 ∧ (partAt t p).drift.ctl = stored
        ∧ stored.getLsbD 31 = (v.getLsbD 31 && decide (0 < (effectiveBound s 7 p).2)) ∧ stored.getLsbD 30 = v.getLsbD 30
        ∧ bits 23 16 stored.toNat = max 1 (bits 23 16 v.toNat) ∧ bits 9 0 stored.toNat = max 1 (min 1000 (bits 9 0 v.toNat))
        ∧ (v.getLsbD 30 = false → (partAt t p).drift.state = 0 ∧ ((d.state.val = 3 ∨ d.state.val = 4) →
            (partAt t p).drift.outcome = 0x08 ∧ (partAt t p).drift.attempt = none))
        ∧ (v.getLsbD 30 = true → d.state.val = 1 ∨ d.state.val = 2 → (partAt t p).drift = { d with ctl := stored })
        ∧ (v.getLsbD 30 = true → d.state.val = 0 → (partAt t p).drift.state = if (modelAt s p).cascadeOn then 1 else 0)
        ∧ (∀ q, q ≠ p → partAt t q = partAt s q)
        ∧ t = { u with parts := t.parts, models := t.models, grants := t.grants, sdies := t.sdies, dev := { u.dev with sched := t.dev.sched } })
      ∧ (spans s p = false → d.state.val = 1 ∨ d.state.val = 2 → mayTemper s p = true →
        (intervalOver s p = true → ∀ e, activeEpoch s p = some e →
          ∃ u t a, exec (.retemperStart path part) s = .next t ∧ Recorded s u path 0x28 p 0 ∧ (partAt t p).drift = { d with state := 3, attempt := some a }
            ∧ a.epoch = e.num ∧ a.startNs = nowNs s ∧ a.rows = [] ∧ a.brick = none
            ∧ (∀ k, k < 9 → a.bounds.getD k (0, 0) = effectiveBound s (7 + k) p)
            ∧ freeCapture s = some a.sdie.val ∧ (sdieAt t a.sdie.val).captureOf = some part
            ∧ t = { u with parts := t.parts, sdies := t.sdies })
        ∧ (intervalOver s p = false → ∃ u, Recorded s u path 0x28 p 3 ∧
          exec (.retemperStart path part) s = .next (putPart p { x with drift := { d with outcome := 0x09 } } u)))
      ∧ (spans s p = true → ∃ u, Recorded s u path 0x28 p 3 ∧
          exec (.retemperStart path part) s = .next (putPart p { x with drift := { d with outcome := 0x0C } } u))
      ∧ (∀ e, activeEpoch s p = some e → e.tempered = true → (modelAt s p).load.commits = [] → (∀ z ∈ (modelAt s p).epochs, z.st ≠ .draining) →
          scheduleHeld s p = false → ∃ u t, exec (.retemperRevert path part) s = .next t ∧ Recorded s u path 0x28 p 0
            ∧ (modelAt t p).load = { (modelAt s p).load with commits := [{ kind := .revert, tc := some (nextInstant s) }] }
            ∧ t = { u with models := t.models, dev := { u.dev with sched := s.dev.sched ++ [(nextInstant s, 0, part)] } })
      ∧ ((activeEpoch s p = none ∨ ∃ e, activeEpoch s p = some e ∧ e.tempered = false) → ∃ u, Recorded s u path 0x28 p 3 ∧
          exec (.retemperRevert path part) s = .next (putPart p { x with drift := { d with outcome := 0x0B } } u))
      ∧ (∃ u, Recorded s u path 0x28 p 0 ∧
          exec (.retemperRelease path part) s = .next (putPart p { x with drift := { d with hold := false } } u)))
    ∧ (∀ v w, exec (.driftCtlWrite (.vf v) part w) s = .next s ∧ exec (.retemperStart (.vf v) part) s = .next s
        ∧ exec (.retemperRevert (.vf v) part) s = .next s ∧ exec (.retemperRelease (.vf v) part) s = .next s)

/-- R163 to R167: an attempt's capture, its optimisation and its ends. Model's choices it rests on: log 4, 10, 19. -/
def Obligations.RetemperingAttempts : Prop :=
  (∀ (s : State) (part : Part) (a : Attempt), let p := part.val
    let d := (partAt s p).drift
    d.attempt = some a →
    let bound := fun (i : Nat) => (a.bounds.getD (i - 7) (0, 0)).2
    let ended := fun (t : State) (outcome : Byte) =>
      (partAt t p).drift = { d with state := 1, outcome := outcome, attempt := none, holdCount := 0, calm := 0, lastEnd := some (nowNs s) }
      ∧ (∀ q, q ≠ p → partAt t q = partAt s q)
      ∧ t = { s with parts := t.parts, models := t.models, grants := t.grants, sdies := t.sdies, dev := { s.dev with sched := t.dev.sched } }
    (d.state.val = 3 →
      (nowNs s < a.startNs + bound 10 * 1000000 → exec (.captureTimeout part) s = .next s)
      ∧ (a.startNs + bound 10 * 1000000 ≤ nowNs s →
        (512 ≤ a.rows.length → 384 ≤ (trainingRows a).length → ∃ t, exec (.captureTimeout part) s = .next t
          ∧ (partAt t p).drift = { d with state := 4, attempt := some { a with captureEndNs := nowNs s } } ∧ t = { s with parts := t.parts })
        ∧ (a.rows.length < 512 → ∃ t, exec (.captureTimeout part) s = .next t ∧ ended t 0x07 ∧ (sdieAt t a.sdie.val).captureOf = none)))
    ∧ (d.state.val = 4 → a.brick = none → ∀ b : Brick, b.val ∈ s.st.running.bond.standby → brickServes s b.val = true →
      (∀ q ∈ s.parts, (q.2.drift.attempt.bind (fun a => a.brick)) ≠ some b.val) →
      ∃ t, exec (.optimisationStart part b) s = .next t ∧ (partAt t p).drift = { d with attempt := some { a with brick := some b.val } }
        ∧ t.grants = s.grants ++ [{ part, base := 2 ^ 38 + a.sdie.val * 2 ^ 36 + 0x8A0000000, len := 2 ^ 31, epoch := a.epoch }]
        ∧ (∀ q, q ≠ p → partAt t q = partAt s q) ∧ t = { s with parts := t.parts, grants := t.grants })
    ∧ (d.state.val = 4 → (∀ c ∈ (modelAt s p).load.commits, c.kind ≠ .retemper) →
      (∀ e c, a.brick.isSome = true → activeEpoch s p = some e → e.vd.t2 = some c →
        ((optimise a e c).2.2 = false → ∃ t, exec (.optimisationComplete part) s = .next t ∧ ended t 0x02)
        ∧ ((optimise a e c).2.2 = true → (modelAt s p).load.commits = [] → (∀ z ∈ (modelAt s p).epochs, z.st ≠ .draining) →
          scheduleHeld s p = false → ∃ t, exec (.optimisationComplete part) s = .next t
            ∧ (partAt t p).drift = { d with next := (optimise a e c).1, clamped := BitVec.ofNat 8 (min 255 (optimise a e c).2.1) }
            ∧ (modelAt t p).load = { (modelAt s p).load with commits := [{ kind := .retemper, tc := some (nextInstant s) }] }
            ∧ (∀ q, q ≠ p → partAt t q = partAt s q)
            ∧ t = { s with parts := t.parts, models := t.models, dev := { s.dev with sched := s.dev.sched ++ [(nextInstant s, 0, part)] } }))
      ∧ (a.captureEndNs + bound 15 * 1000000 ≤ nowNs s → ∃ t, exec (.retemperTimeout part) s = .next t ∧ ended t 0x03)
      ∧ (nowNs s < a.captureEndNs + bound 15 * 1000000 → exec (.retemperTimeout part) s = .next s)))
  ∧ (∀ (s : State) (part : Part) (e : BitVec 16) (t₀ : Nat), let p := part.val
    let d := (partAt s p).drift
    d.pinWatch = some (e, t₀) →
    (nowNs s < t₀ → exec (.retemperLoopPinned part) s = .next s)
    ∧ (t₀ ≤ nowNs s → ∃ t, exec (.retemperLoopPinned part) s = .next t ∧ (partAt t p).drift = { d with pinWatch := none }
      ∧ t = { s with parts := t.parts, out := t.out } ∧ (activeNum s p ≠ e → t = putPart p { partAt s p with drift := { d with pinWatch := none } } s)))

/-- R378 to R381, R387, R389: a structure image is staged, checked, applied or given up, and its D steps. Model's choices it rests on: log 4, 14, 18, 39. -/
def Obligations.StructureSteps : Prop :=
  ∀ (s : State), let x := s.st
    let ends := fun (u t : State) (code : Byte) (sec : Nat) => t.st.phase = .idle ∧ t.st.code = code ∧ t.st.image = none
      ∧ t.st.detailSection = BitVec.ofNat 5 sec ∧ t.st.running = x.running ∧ t.st.epoch = x.epoch
      ∧ t = { u with st := t.st, parts := t.parts, out := t.out, auth := t.auth, models := t.models }
    let coded := fun (u t : State) (code : Byte) => t.st = { x with code := code } ∧ t = { u with st := t.st, parts := t.parts, out := t.out }
    (∀ image, MayRun s .pf 4 →
      (x.phase = .idle → ∃ u t, exec (.structStage .pf image) s = .next t ∧ Recorded s u .pf 0x40 0xFFFFFFFF 0
        ∧ t.st = { x with phase := .checking, code := 0, image := some image, detailSection := 0, detailOffset := 0 }
        ∧ t = { u with st := t.st, parts := t.parts, out := t.out })
      ∧ (x.phase ≠ .idle → ∃ u t, exec (.structStage .pf image) s = .next t ∧ Recorded s u .pf 0x40 0xFFFFFFFF 3 ∧ coded u t 0x0E)
      ∧ (x.phase = .staged → ∃ u t, exec (.structAbort .pf) s = .next t ∧ Recorded s u .pf 0x40 0xFFFFFFFF 0 ∧ ends u t 0x11 0)
      ∧ (x.phase ≠ .staged → ∃ u t, exec (.structAbort .pf) s = .next t ∧ Recorded s u .pf 0x40 0xFFFFFFFF 3 ∧ coded u t 0x0E)
      ∧ (x.phase ≠ .staged → ∃ u t, exec (.structApply .pf) s = .next t ∧ Recorded s u .pf 0x40 0xFFFFFFFF 3 ∧ coded u t 0x0E)
      ∧ (∀ i, x.phase = .staged → x.image = some i →
          (dSteps x.running i.secs ≠ [] → ∃ u t, exec (.structApply .pf) s = .next t ∧ Recorded s u .pf 0x40 0xFFFFFFFF 0
            ∧ t.st.phase = .applying ∧ t.st.code = 0 ∧ t.st.dLeft = dSteps x.running i.secs ∧ t.st.restartPending = xDiffers x.running i.secs
            ∧ t.st.running = x.running ∧ t.st.epoch = x.epoch ∧ t.st.tc = x.tc ∧ t = { u with st := t.st, parts := t.parts, out := t.out })
          ∧ (i.secs = x.running → ∃ u t, exec (.structApply .pf) s = .next t ∧ Recorded s u .pf 0x40 0xFFFFFFFF 0
            ∧ t.st.phase = .idle ∧ t.st.code = 0 ∧ t.st.running = x.running ∧ t.st.epoch = x.epoch ∧ t.st.storedId = i.imageId
            ∧ t.power.structValid = true
            ∧ t = { u with st := t.st, parts := t.parts, out := t.out, auth := t.auth, power := { u.power with structValid := true } })))
    ∧ (∀ path image, (MayNotRun s path 4 ∨ MayNotRun s .mctp 0 ∧ path = .mctp) →
        (∃ t, exec (.structStage path image) s = .next t ∧ t.st = { x with code := 0x0F })
        ∧ (∃ t, exec (.structAbort path) s = .next t ∧ t.st = { x with code := 0x0F })
        ∧ (∃ t, exec (.structApply path) s = .next t ∧ t.st = { x with code := 0x0F }))
    ∧ (∀ v image, exec (.structStage (.vf v) image) s = .next s ∧ exec (.structAbort (.vf v)) s = .next s ∧ exec (.structApply (.vf v)) s = .next s)
    ∧ (∀ i, x.phase = .checking → x.image = some i →
        (checkImage s i = none → ∃ t, exec .structCheckComplete s = .next t ∧ t.st = { x with phase := .staged }
          ∧ t = { s with st := t.st, parts := t.parts, out := t.out, auth := t.auth })
        ∧ (∀ code sec, checkImage s i = some (code, sec) → ∃ t, exec .structCheckComplete s = .next t ∧ ends s t code sec)
        ∧ (structMalformed i x.len.toNat = true → ∃ t, exec .structCheckComplete s = .next t ∧ ends s t 0x01 0)
        ∧ (structMalformed i x.len.toNat = false → installerKey s i.keyId = none → ∃ t, exec .structCheckComplete s = .next t ∧ ends s t 0x02 0)
        ∧ (∀ key, structMalformed i x.len.toNat = false → installerKey s i.keyId = some key → verifies key i.digest i.signature = false →
            ∃ t, exec .structCheckComplete s = .next t ∧ ends s t 0x03 0))
    ∧ (∀ i u rest, x.phase = .applying → x.image = some i → x.dLeft = u :: rest → rest ≠ [] →
        ∃ t, exec .dStepComplete s = .next t ∧ t.st.dLeft = rest ∧ t.st.phase = .applying ∧ t.st.epoch = x.epoch
          ∧ (∀ k b, u = 2000 + k → k < 256 → physBrick s k = some b → clocked (brickAt s b) = true →
              (brickAt t b).arr.layout = decide (i.secs.layout.getD k 0 = 1) ∧ (brickAt t b).fl = {} ∧ (brickAt t b).c.phase = .idle
              ∧ (brickAt t b).m = (brickAt s b).m ∧ (∀ j, j ≠ b → brickAt t j = brickAt s j))
          ∧ (u = 64 → t.st.running = { x.running with bond := { x.running.bond with
              slowPool := i.secs.bond.slowPool, seqPool := i.secs.bond.seqPool, standby := i.secs.bond.standby } })
          ∧ (u = 65 → t.st.running = { x.running with wall := i.secs.wall })
          ∧ (u < 64 → (portAt t u).st = 0 ∧ (portAt t u).lanesCfg = []
              ∧ t.st.running.ports.find? (fun c => c.port.val == u) = i.secs.ports.find? (fun c => c.port.val == u)))

/-- R58 to R61, R90, R380, R382 to R385: the epoch change of a structure image, the bounded pause, and a forced retirement. Model's choices it rests on: log 4, 18, 37. -/
def Obligations.StructureEpochs : Prop :=
  ∀ (s : State), let x := s.st
    let newEpoch := fun (t : State) (i : StructImage) =>
      t.st.epoch = x.epoch + 1
      ∧ t.st.running = { i.secs with treeGeom := x.running.treeGeom, device := x.running.device }
      ∧ t.st.draining = (if mapGet 0 x.inflight x.epoch.toNat = 0 then none else some x.epoch)
      ∧ t.st.phase = .idle ∧ t.st.code = 0 ∧ t.st.image = none ∧ t.st.tc = none ∧ t.st.storedId = i.imageId
    (∀ i t₀, x.phase = .applying → x.image = some i → x.tc = some t₀ →
      (t₀.toNat ≤ s.time.wall.toNat → x.dLeft = [] → pauseNeeded x.running i.secs = false →
        ∃ t, exec .structTc s = .next t ∧ newEpoch t i ∧ t.st.lastTc = some t₀ ∧ t.dev.lastTc = t₀ ∧ t.dev.lastKind = 1
          ∧ (∀ p c, x.running.parts ≠ i.secs.parts → partCfg i.secs p = some c →
              (partAt t p).cascade = cascadeOf (modelAt s p).cascadeOn c.cascade ∧ (partAt t p).seqQuota = c.seqQuota.toNat % 2 ^ 26)
          ∧ t = { s with st := t.st, parts := t.parts, models := t.models, loops := t.loops, grants := t.grants, sdies := t.sdies, dev := t.dev,
                         auth := t.auth, out := t.out, power := { s.power with structValid := true } })
      ∧ (s.time.wall.toNat < t₀.toNat → exec .structTc s = .next s ∧ exec .pauseStart s = .next s)
      ∧ (t₀.toNat ≤ s.time.wall.toNat → x.dLeft = [] → pauseNeeded x.running i.secs = true → x.pause = none →
        exec .pauseStart s = .next { s with st := { x with
          pause := some { t0 := s.time.wall, flow := x.running.flowGeom != i.secs.flowGeom }, lastPauseT0 := some s.time.wall } }))
    ∧ (∀ i p, x.pause = some p → x.image = some i → p.flipped = false → p.abandoned = false →
      (drained s = true → s.time.wall.toNat ≤ p.t0.toNat + 800 →
        ∃ t, exec .bankFlip s = .next t ∧ t.st.pause = some { p with flipped := true } ∧ t.st.running = x.running ∧ t.st.epoch = x.epoch
          ∧ (∀ k, k < 4 → (pdieAt t k).activeBank = (if x.running.parse ≠ i.secs.parse then !(pdieAt s k).activeBank else (pdieAt s k).activeBank))
          ∧ (p.flow = true → t.st.geomEpoch = x.geomEpoch + 1 ∧ (∀ k, k < 4 → (pdieAt t k).flushLeft = 786432 ∧ (ldieAt t k).steer = i.secs.flowGeom.steer))
          ∧ (p.flow = false → t.st.geomEpoch = x.geomEpoch ∧ t.ldies = s.ldies ∧ t.sdies = s.sdies)
          ∧ (∀ k, (pdieAt t k).hot = (pdieAt s k).hot)
          ∧ t = { s with st := t.st, pdies := t.pdies, ldies := t.ldies, sdies := t.sdies })
      ∧ (drained s = false → exec .bankFlip s = .next s)
      ∧ (p.t0.toNat + 800 ≤ s.time.wall.toNat → ∃ t, exec .pauseAbandoned s = .next t ∧ t.st.pause = some { p with abandoned := true }
          ∧ t.st.phase = .idle ∧ t.st.code = 0x10 ∧ t.st.running = x.running ∧ t.st.epoch = x.epoch
          ∧ t = { s with st := t.st, parts := t.parts, out := t.out, auth := t.auth })
      ∧ (s.time.wall.toNat < p.t0.toNat + 800 → exec .pauseAbandoned s = .next s)
      ∧ exec .pauseRelease s = .next s)
    ∧ (∀ p, x.pause = some p → p.flipped = true ∨ p.abandoned = true →
      let len := BitVec.ofNat 12 (min 4095 (s.time.wall.toNat - p.t0.toNat))
      ∃ t, exec .pauseRelease s = .next t ∧ t.st.pause = none
        ∧ (∀ k, k < 4 → (pdieAt t k).lastPauseNs = len ∧ (pdieAt t k).lastAbandoned = p.abandoned)
        ∧ (p.flipped = false → t.st = { x with pause := none } ∧ t = { s with st := t.st, pdies := t.pdies, link := { s.link with ports := t.link.ports } })
        ∧ (∀ i, p.flipped = true → x.image = some i → newEpoch t i ∧ t.st.lastTc = some s.time.wall))
    ∧ (∀ e, x.draining = some e →
      (nowNs s < x.drainSince + 2000000 → exec .structForcedRetirement s = .next s)
      ∧ (x.drainSince + 2000000 ≤ nowNs s → ∃ t, exec .structForcedRetirement s = .next t ∧ t.st.draining = none
          ∧ mapFind e.toNat t.st.contents = none ∧ mapGet 0 t.st.inflight e.toNat = 0
          ∧ (∀ q k r, mapFind k (pdieAt t q).slots = some r → r.st.structEpoch ≠ e)
          ∧ (∀ q, ∀ st ∈ (pdieAt t q).inbox, st.structEpoch ≠ e)
          ∧ (∀ q k r, mapFind k (pdieAt s q).slots = some r → r.st.structEpoch = e → Timely s r.st →
              ∃ v ∈ (ldieAt t r.st.ldie.val).egress, v.lid = r.st.lid ∧ v.source = 4 ∧ v.action = r.fbAction)))

/-- R390 to R392, R394, R395: the operator's bounds, and the loops' events. Model's choices it rests on: log 4, 45. -/
def Obligations.LoopBounds : Prop :=
  (∀ (s : State) (path : Path) (lo hi : Word), let i := (selLoop s).1
    let p := (selLoop s).2
    let l := { s.loops with stagedLo := mapDel (loopKey i p) s.loops.stagedLo }
    (MayRun s path 6 →
      (i < 17 → lo.toNat ≤ hi.toNat → ∃ u t, exec (.boundCommit path lo hi) s = .next t ∧ Recorded s u path 0x30 i 0
        ∧ operatorBound t i p = (clampNat (installerBound s i p).1 (installerBound s i p).2 lo.toNat,
            clampNat (installerBound s i p).1 (installerBound s i p).2 hi.toNat)
        ∧ ((installerBound s i p).1 ≤ (installerBound s i p).2 →
            (installerBound s i p).1 ≤ (effectiveBound t i p).1 ∧ (effectiveBound t i p).2 ≤ (installerBound s i p).2
            ∧ (effectiveBound t i p).1 ≤ (effectiveBound t i p).2)
        ∧ (∀ k, k ≠ loopKey i p → mapFind k t.loops.opBounds = mapFind k s.loops.opBounds)
        ∧ t = { u with loops := { l with opBounds := t.loops.opBounds } })
      ∧ (i < 17 → hi.toNat < lo.toNat → ∃ u, Recorded s u path 0x30 i 3
        ∧ exec (.boundCommit path lo hi) s = .next { u with loops := { l with badWrite := true } })
      ∧ (17 ≤ i → ∃ u, Recorded s u path 0x30 i 3 ∧ exec (.boundCommit path lo hi) s = .next u))
    ∧ (MayNotRun s path 6 → ∃ t, exec (.boundCommit path lo hi) s = .next t ∧ t.loops = s.loops ∧ t = { s with auth := t.auth })
    ∧ (∀ v, exec (.boundCommit (.vf v) lo hi) s = .next s))
  ∧ (∀ (s : State) (loop : Fin 64) (part : Part), let k := loop.val * 1024 + part.val
    let p := if loop.val = 4 ∨ loop.val = 5 then part.val else 0
    let counts := fun (m : Map Nat) => ∃ t₀, mapFind k m = some t₀ ∧ t₀ + 1000000 ≤ nowNs s
    (pinLoop loop.val = true → counts s.loops.clampSince → mapFind k s.loops.pinned = none →
      ∃ t, exec (.loopPinned loop part) s = .next t ∧ t.loops = { s.loops with pinned := mapSet k () s.loops.pinned }
        ∧ Posted s t p 4 loop.val ∧ t = { s with loops := t.loops, parts := t.parts, out := t.out })
    ∧ (¬ counts s.loops.clampSince ∨ (mapFind k s.loops.pinned).isSome = true ∨ 17 ≤ loop.val ∨ 7 ≤ loop.val ∧ loop.val ≤ 15 →
      exec (.loopPinned loop part) s = .next s)
    ∧ (pinLoop loop.val = true → counts s.loops.freeSince → (mapFind k s.loops.pinned).isSome = true →
      ∃ t, exec (.loopFree loop part) s = .next t ∧ t.loops = { s.loops with pinned := mapDel k s.loops.pinned }
        ∧ Posted s t p 5 loop.val ∧ t = { s with loops := t.loops, parts := t.parts, out := t.out })
    ∧ (¬ counts s.loops.freeSince ∨ mapFind k s.loops.pinned = none ∨ 17 ≤ loop.val ∨ 7 ≤ loop.val ∧ loop.val ≤ 15 →
      exec (.loopFree loop part) s = .next s))

/-- R393, R394, R490 to R492: the island clocks, the power governor and the safety actions. Model's choices it rests on: log 3, 45, 46. -/
def Obligations.ClocksAndSafety : Prop :=
  ∀ (s : State), let b := effectiveBound s 0 0
    let g := effectiveBound s 2 0
    let clock := fun (u : State) (c : Nat) => mapGet 0 u.loops.clocks c
    (∀ (course : Course), physCdie s course.val = none → exec (.droopDetect course) s = .next s ∧ exec (.islandClockSample course) s = .next s)
    ∧ (∀ (course : Course) c, physCdie s course.val = some c →
      exec (.droopDetect course) s = .next { s with loops := { s.loops with droops := mapMod 0 c (· + 1) s.loops.droops } }
      ∧ ∃ t, exec (.islandClockSample course) s = .next t
        ∧ (let n := mapGet 0 s.loops.droops c
          let lim := fun v => clampNat b.1 b.2 (min v s.loops.ceiling)
          let calm := n = 0 ∧ ∃ t₀, mapFind c s.loops.calmSince = some t₀ ∧ t₀ + 1000000 ≤ nowNs s
          (islandSafety s c = true → clock t c = clock s c)
          ∧ (islandSafety s c = false → mapGet 0 s.loops.droopCal c < n → clock t c = lim (clock s c - 25))
          ∧ (islandSafety s c = false → calm → clock t c = lim (clock s c + 10))
          ∧ (islandSafety s c = false → n ≤ mapGet 0 s.loops.droopCal c → ¬ calm → clock t c = lim (clock s c))
          ∧ mapGet 0 t.loops.droops c = 0
          ∧ ((effectiveBound s 1 0).1 ≤ (effectiveBound s 1 0).2 →
              (effectiveBound s 1 0).1 ≤ mapGet 0 t.loops.volts c ∧ mapGet 0 t.loops.volts c ≤ (effectiveBound s 1 0).2)
          ∧ (∀ k, k ≠ c → clock t k = clock s k ∧ mapFind k t.loops.volts = mapFind k s.loops.volts ∧ mapFind k t.loops.droops = mapFind k s.loops.droops)
          ∧ t = { s with freeIx := s.freeIx + 1, loops := { s.loops with
              droops := t.loops.droops, calmSince := t.loops.calmSince, volts := t.loops.volts, clocks := t.loops.clocks,
              clampSince := t.loops.clampSince, freeSince := t.loops.freeSince } }))
    ∧ (∀ mv ma, let w := mv * ma / 10000
      let cap := (effectiveBound s 3 0).2 * 10
      let high := cap < w
      let rise := w * 100 < cap * 95 ∧ s.loops.ceilingCalm + 1000000 ≤ nowNs s
      ∃ t, exec (.governorSample mv ma) s = .next t ∧ t.loops.vpriMv = mv ∧ t.loops.ipri10ma = ma
        ∧ (s.loops.safety = [] →
          t.loops.ceiling = clampNat g.1 g.2 (if high then s.loops.ceiling - 25 else if rise then s.loops.ceiling + 10 else s.loops.ceiling)
          ∧ ((s.loops.clocks.map (·.1)).Nodup → ∀ c k, mapFind c s.loops.clocks = some k →
              clock t c = if t.loops.ceiling < k then clampNat b.1 b.2 t.loops.ceiling else k)
          ∧ (high → s.loops.ceiling - 25 < g.1 → (mapFind 2048 t.loops.clampSince).isSome = true))
        ∧ (s.loops.safety = [(3, 0)] → t.loops.ceiling = s.loops.ceiling - 500)
        ∧ (s.loops.safety = [(2, 0)] → t.loops.ceiling = s.loops.ceiling)
        ∧ t = { s with loops := { s.loops with
            vpriMv := mv, ipri10ma := ma, ceilingCalm := t.loops.ceilingCalm, ceiling := t.loops.ceiling, clocks := t.loops.clocks,
            clampSince := t.loops.clampSince, freeSince := t.loops.freeSince } })
    ∧ (∀ (kind : Fin 8) unit, let c := unitCdie (BitVec.ofNat 32 unit)
      (5 ≤ kind.val ∨ (kind.val, unit) ∈ s.loops.safety → exec (.safetyOverride kind unit) s = .next s)
      ∧ (kind.val < 5 → (kind.val, unit) ∉ s.loops.safety → ∃ t, exec (.safetyOverride kind unit) s = .next t
        ∧ t.loops.safety = s.loops.safety ++ [(kind.val, unit)] ∧ t.loops.lastSafety = kind
        ∧ mapGet 0 t.loops.safetyCnt kind.val = mapGet 0 s.loops.safetyCnt kind.val + 1
        ∧ t.dev.intStatus.getLsbD 3 = true
        ∧ (s.auth.tail.length < 256 → ∃ r more, t.auth.tail = s.auth.tail ++ r :: more ∧ (r.drop 14).take 2 = leBytes 2 0x60)
        ∧ (kind.val = 0 → unit / 2 ^ 24 = 0 → clock t c = clock s c - 50)
        ∧ (kind.val = 1 → inService s (dieKind (BitVec.ofNat 32 unit)) (BitVec.ofNat 32 unit) = true →
            unit < 2 ^ 32 → bits 31 24 unit = 0 → c < 18 → c ∉ s.flt.retiredCdies →
            c ∈ t.flt.retiredCdies ∧ (∀ k, k < 16 → (brickAt t (c * 16 + k)).c.phase = .retired))
        ∧ (kind.val = 2 → t.loops.ceiling = 500)
        ∧ (kind.val = 3 → t.loops.ceiling = s.loops.ceiling - 100)
        ∧ (kind.val = 4 → clock t c < max 1 b.1)
        ∧ (kind.val ≠ 1 → Posted s t 0 6 kind.val
          ∧ t = { s with parts := t.parts, out := t.out, auth := t.auth, freeIx := t.freeIx
                         dev := { s.dev with intStatus := s.dev.intStatus ||| 8 }
                         loops := { s.loops with safety := t.loops.safety, lastSafety := kind, safetyCnt := t.loops.safetyCnt,
                                                 ceiling := t.loops.ceiling, clocks := t.loops.clocks } }))
      ∧ ((kind.val, unit) ∉ s.loops.safety → exec (.safetyClear kind unit) s = .next s)
      ∧ ((kind.val, unit) ∈ s.loops.safety → ∃ t, exec (.safetyClear kind unit) s = .next t
        ∧ t.loops.safety = s.loops.safety.filter (fun a => a != (kind.val, unit))
        ∧ (t.loops.safety = [] → t.loops.ceiling = clampNat g.1 g.2 s.loops.ceiling
          ∧ ((s.loops.clocks.map (·.1)).Nodup → ∀ q k, mapFind q s.loops.clocks = some k →
              clock t q = if k = 0 then 0 else clampNat b.1 b.2 (min k t.loops.ceiling)))
        ∧ t = { s with loops := { s.loops with safety := t.loops.safety, ceiling := t.loops.ceiling, clocks := t.loops.clocks } }))

/-- R426, R430 to R432, R434, R435, R441: rings and vectors. Model's choices it rests on: log 4, 50. -/
def Obligations.RingsAndVectors : Prop :=
  ∀ (s : State) (part : Part), let p := part.val
    let x := partAt s p
    let only := fun (t : State) => (∀ q, q ≠ p → partAt t q = partAt s q) ∧ t = { s with parts := t.parts, out := t.out }
    (∀ (ring : Fin 8), let r := ring.val
      let y := ringAt x r
      (∀ w rest, y.waiting = w :: rest →
        (nowNs s < w.2 + y.spillUs * 1000 ∨ fenced s p = true → exec (.ringSpill part ring) s = .next s)
        ∧ (w.2 + y.spillUs * 1000 ≤ nowNs s → fenced s p = false → ∃ t, exec (.ringSpill part ring) s = .next t
          ∧ ringAt (partAt t p) r = { y with waiting := [], spilling := true } ∧ (∀ k, k ≠ r → ringAt (partAt t p) k = ringAt x k)
          ∧ mapGet 0 (partAt t p).cnt 8 = mapGet 0 x.cnt 8 + BitVec.ofNat 48 y.waiting.length
          ∧ partAt t p = { x with rings := (partAt t p).rings, cnt := (partAt t p).cnt } ∧ only t ∧ t.out = s.out))
      ∧ (y.waiting = [] → exec (.ringSpill part ring) s = .next s)
      ∧ (fenced s p = true ∨ 6 ≤ r → ∀ v, exec (.ringDoorbell part ring v) s = .next s ∧ exec (.ringEnable part ring v) s = .next s)
      ∧ (fenced s p = false → r < 6 →
        (∀ cons : Word, let z := { y with cons }
          let z := if ringFull z then z else { z with spilling := false }
          ((y.prod - cons).toNat ≤ (y.prod - y.cons).toNat → ∃ t, exec (.ringDoorbell part ring cons) s = .next t
            ∧ (ringAt (partAt t p) r).cons = cons ∧ (partAt t p).badDoorbell = x.badDoorbell ∧ (partAt t p).cnt = x.cnt
            ∧ (y.waiting = [] ∨ ringFull z = true → ringAt (partAt t p) r = z ∧ t.out = s.out)
            ∧ (∀ w, y.waiting = [w] → ringFull z = false → (ringAt (partAt t p) r).waiting = [] ∧ (ringAt (partAt t p) r).prod = y.prod + 1
                ∧ t.out.writes = s.out.writes ++ [(y.base.toNat + y.prod.toNat % 2 ^ y.size * entryBytes r, w.1), (y.wb.toNat, leBytes 8 (y.prod + 1).toNat)])
            ∧ (∀ k, k ≠ r → ringAt (partAt t p) k = ringAt x k) ∧ only t)
          ∧ ((y.prod - y.cons).toNat < (y.prod - cons).toNat → let u := putPart p { x with badDoorbell := true } s
            ∃ t, exec (.ringDoorbell part ring cons) s = .next t ∧ (x.badDoorbell = true → t = u) ∧ (x.badDoorbell = false → Asked u t p 6)))
        ∧ (∀ v : Word, (v.getLsbD 31 = true → ∃ t, exec (.ringEnable part ring v) s = .next t
            ∧ (ringAt (partAt t p) r).enable = true ∧ (ringAt (partAt t p) r).cons = 0
            ∧ (ringAt (partAt t p) r).size = (if y.enable then y.size else max 8 (min 20 (bits 4 0 v.toNat)))
            ∧ (ringAt (partAt t p) r).spillUs = max 2 (min 50 (bits 15 8 v.toNat))
            ∧ (ringAt (partAt t p) r).base = y.base ∧ (ringAt (partAt t p) r).wb = y.wb
            ∧ (y.waiting = [] → (ringAt (partAt t p) r).prod = 0 ∧ t.out = s.out)
            ∧ (ringAt (partAt t p) r).prod = BitVec.ofNat 32 ((t.out.writes.length - s.out.writes.length) / 2)
            ∧ (partAt t p).cnt = x.cnt ∧ (∀ k, k ≠ r → ringAt (partAt t p) k = ringAt x k) ∧ only t)
          ∧ (v.getLsbD 31 = false → ∃ t, exec (.ringEnable part ring v) s = .next t
            ∧ ringAt (partAt t p) r = { y with
                enable := false, waiting := [], size := (if y.enable then y.size else max 8 (min 20 (bits 4 0 v.toNat)))
                spillUs := max 2 (min 50 (bits 15 8 v.toNat)) }
            ∧ mapGet 0 (partAt t p).cnt 9 = mapGet 0 x.cnt 9 + BitVec.ofNat 48 y.waiting.length
            ∧ (∀ k, k ≠ r → ringAt (partAt t p) k = ringAt x k)
            ∧ partAt t p = { x with rings := (partAt t p).rings, cnt := (partAt t p).cnt } ∧ only t ∧ t.out = s.out)))
      ∧ (r < 6 → y.enable = true → ∀ fn v o, spaceOf s fn = some (p + 1) → o = 0x100 + 0x40 * r ∨ o = 0x108 + 0x40 * r →
          ∃ t, exec (.registerWrite fn o .b8 v) s = .next t ∧ ∀ k, ringAt (partAt t p) k = ringAt x k)
      ∧ (0 < y.since → y.oldestNs + y.delayUs * 1000 ≤ nowNs s → ∃ t, exec (.moderationDelay part ring) s = .next t ∧ Asked s t p (if r = 5 then 0 else r + 1))
      ∧ (y.since = 0 ∨ nowNs s < y.oldestNs + y.delayUs * 1000 → exec (.moderationDelay part ring) s = .next s))
    ∧ (∀ (vec : Fin 8), let v := vec.val
      let y := vecAt x v
      (y.held = true → gapOver s x v = true → y.mask = false → fnActive x = true → fenced s p = false →
        ∃ t, exec (.vectorGapExpire part vec) s = .next t ∧ Asked s t p v)
      ∧ (y.held = false ∨ gapOver s x v = false ∨ y.mask = true ∨ fnActive x = false ∨ fenced s p = true →
        exec (.vectorGapExpire part vec) s = .next s)
      ∧ (let u := putPart p { x with vecs := mapSet v { y with mask := false } x.vecs } s
        ∃ t, exec (.msixUnmask part vec) s = .next t ∧ (y.mask = false ∨ y.pend = false → t = u) ∧ (y.mask = true → y.pend = true → Asked u t p v)))

/-- R36, R37, R89, R314, R345, R423, R426, R438, R439, R441, R443: functions that sleep, appear and go, and the reset of a partition. Model's choices it rests on: log 4, 51, 52. -/
def Obligations.FunctionsAndResets : Prop :=
  ∀ (s : State),
    (∀ fn d3 bm, let x := partAt s fn
      (1024 ≤ fn ∨ fnExists s fn = false ∨ s.power.pcieUp = false →
        exec (.functionPowerState fn d3 bm) s = .next s ∧ exec (.flr fn) s = .next s)
      ∧ (fn < 1024 → fnExists s fn = true → s.power.pcieUp = true →
        (d3 = false → bm = true → exec (.functionPowerState fn d3 bm) s = .next (putPart fn { x with d3hot := false, busMaster := true } s))
        ∧ (d3 = true ∨ bm = false → ∃ t, exec (.functionPowerState fn d3 bm) s = .next t
          ∧ (∀ r, r < 6 → ringAt (partAt t fn) r = { ringAt x r with waiting := [] })
          ∧ mapGet 0 (partAt t fn).cnt 9 = mapGet 0 x.cnt 9 + BitVec.ofNat 48 (((List.range 6).map (fun r => (ringAt x r).waiting.length)).sum)
          ∧ partAt t fn = { x with d3hot := d3, busMaster := bm, rings := (partAt t fn).rings, cnt := (partAt t fn).cnt }
          ∧ (∀ q, q ≠ fn → partAt t q = partAt s q) ∧ t = { s with parts := t.parts })
        ∧ (fn ≠ 0 → ∃ t, exec (.flr fn) s = .next t ∧ ResetStarted (flrConfig fn s) t fn)
        ∧ (fn = 0 → ∃ t, exec (.flr fn) s = .next t ∧ t.dev.numVfs = 0 ∧ (∃ u, ResetStarted (flrConfig 0 s) u 0 ∧ partAt t 0 = partAt u 0)
          ∧ (∀ p, 0 < p → p ≤ s.dev.numVfs → p ∈ partsKnown s s.st.running s.st.running → fenced t p = true))))
    ∧ (∀ num, (s.dev.numVfs < num → num ≤ 1023 → s.power.pcieUp = true → exec (.vfEnable num) s = .next { s with dev := { s.dev with numVfs := num } })
      ∧ (num ≤ s.dev.numVfs ∨ 1023 < num ∨ s.power.pcieUp = false → exec (.vfEnable num) s = .next s)
      ∧ (s.power.pcieUp = false → exec (.vfDisable num) s = .next s)
      ∧ (s.power.pcieUp = true → ∃ t, exec (.vfDisable num) s = .next t ∧ t.dev.numVfs = min num s.dev.numVfs
        ∧ (∀ p, num < p → p ≤ s.dev.numVfs → p ∈ partsKnown s s.st.running s.st.running →
            fenced t p = true ∧ fnActive (partAt t p) = false ∧ (partAt t p).vecs = [])
        ∧ (∀ p, p ≤ num → partAt t p = partAt s p ∧ modelAt t p = modelAt s p)
        ∧ t = { s with
          parts := t.parts, models := t.models, auth := t.auth, out := t.out, grants := t.grants, sdies := t.sdies
          dev := { s.dev with sched := t.dev.sched, numVfs := t.dev.numVfs } }))
    ∧ (∀ path (part : Part), let p := part.val
      (MayRun s path 6 → ∃ u t, exec (.resetRequest path part) s = .next t ∧ Recorded s u path 0x32 p 0 ∧ ResetStarted u t p)
      ∧ (MayNotRun s path 6 → ∃ t, exec (.resetRequest path part) s = .next t ∧ t = { s with auth := t.auth })
      ∧ (∀ v, exec (.resetRequest (.vf v) part) s = .next s)
      ∧ ((partAt s p).resetStep ≠ 2 → exec (.resetDrainComplete part) s = .next s)
      ∧ ((partAt s p).resetStep = 2 → ∃ t, exec (.resetDrainComplete part) s = .next t
        ∧ (partAt t p).resetStep = 4 ∧ (partAt t p).badDoorbell = false ∧ (partAt t p).eventLost = false ∧ (partAt t p).ringNew = 0
        ∧ (∀ r, r < 6 → (ringAt (partAt t p) r).waiting = [] ∧ (ringAt (partAt t p) r).since = 0 ∧ (ringAt (partAt t p) r).spilling = false)
        ∧ (∀ v, (vecAt (partAt t p) v).pend = false ∧ (vecAt (partAt t p) v).held = false)
        ∧ mapGet 0 (partAt t p).cnt 12 = mapGet 0 (partAt s p).cnt 12
            + BitVec.ofNat 48 (((List.range 6).map (fun r => (ringAt (partAt s p) r).waiting.length)).sum)
        ∧ (∀ q k r, mapFind k (pdieAt s q).slots = some r → dPart r.st.s.desc = part →
            ∃ v ∈ (ldieAt t r.st.ldie.val).egress, v.lid = r.st.lid ∧ v.source = 7 ∧ v.final = true)
        ∧ (∀ q k r, mapFind k (pdieAt t q).slots = some r → dPart r.st.s.desc ≠ part)
        ∧ (∀ q, (∀ st ∈ (pdieAt t q).inbox, dPart st.s.desc ≠ part) ∧ (∀ z ∈ (pdieAt t q).open_, z.part ≠ part)
            ∧ (∀ z ∈ (pdieAt t q).inflight, z.2.part ≠ part))
        ∧ (∀ i, ∀ z ∈ (sdieAt t i).tokens, z.part ≠ part)
        ∧ (((modelAt s p).epochs.map (·.num)).Nodup → ∀ z ∈ (modelAt t p).epochs, ∀ e, drainingEpoch s p = some e → z.num = e.num → z.st = .retired)
        ∧ (∀ q, q ≠ p → partAt t q = partAt s q))
      ∧ ((partAt s p).resetStep ≠ 4 ∨ genHeld s part = true → exec (.resetRelease part) s = .next s)
      ∧ ((partAt s p).resetStep = 4 → genHeld s part = false → ∃ t, exec (.resetRelease part) s = .next t
        ∧ (partAt t p).resetStep = 0 ∧ (partAt t p).gen = (partAt s p).gen + 1 ∧ (partAt t p).stream = 0 ∧ (partAt t p).badDoorbell = false
        ∧ (∀ r, ringAt (partAt t p) r = { count := if r = 5 then 1 else 64 })
        ∧ mapGet 0 (partAt t p).cnt 11 = mapGet 0 (partAt s p).cnt 11
        ∧ (∀ k, k ≠ 9 → k ≠ 10 → k ≠ 11 → mapGet 0 (partAt t p).cnt k = 0)
        ∧ (partAt t p).fault.programHalts = 0 ∧ (partAt t p).fault.lastHalt = 0
        ∧ (∀ c, partCfg s.st.running p = some c → (partAt t p).cascade = cascadeOf (modelAt s p).cascadeOn c.cascade
            ∧ (partAt t p).seqAdv = seqAdvOf c.seqAdv ∧ (partAt t p).seqThresh = seqThreshOf c.seqThresh
            ∧ (partAt t p).drift.ctl = driftCtlStored s p c.driftCtl)
        ∧ (∀ g ∈ s.grants, g.part = part → g.epoch = 0 → ∀ a, bits 35 0 g.base ≤ a → a < bits 35 0 g.base + g.len →
            memByte (sdieAt t (bits 37 36 g.base)).dram a = 0)
        ∧ (modelAt t p).epochs = (modelAt s p).epochs ∧ (∀ q, q ≠ p → partAt t q = partAt s q ∧ modelAt t q = modelAt s q)))

/-- R387, R482 to R488, R496: the kiln, its phases and its errors, firmware updates and activations. Model's choices it rests on: log 4, 10, 57, 59. -/
def Obligations.KilnPhases : Prop :=
  ∀ (s : State), let pw := s.power
    let begins := fun (t : State) => Cold s t ∧ t.power.running = true ∧ t.power.off = false ∧ t.power.kilnNs = nowNs s
    let fails := fun (u : State) (e : Fin 16) => (∃ t, u = t ∧ t.power.running = false ∧ t.power.error = e ∧ t.power.ready = pw.ready ∧ t.dev.intStatus.getLsbD 0 = true)
    (mayStart s = true → pw.off = false → ∃ t, exec .kilnStart s = .next t ∧ begins t)
    ∧ (mayStart s = false ∨ pw.off = true → exec .kilnStart s = .next s)
    ∧ (mayStart s = true → pw.off = true → ∃ t, exec .kilnRestart s = .next t ∧ begins t)
    ∧ (mayStart s = false ∨ pw.off = false → exec .kilnRestart s = .next s)
    ∧ (∀ o, pw.running = false → pw.activating = false → exec (.kilnPhaseComplete o) s = .next s)
    ∧ (∀ o, pw.running = true → pw.activating = false →
      let n := pw.phase.val
      ∃ t, exec (.kilnPhaseComplete o) s = .next t
        ∧ (n = 0 → o.wdies = 0 → fails t 2 ∧ t.dev.mgmtInt = true)
        ∧ (n = 0 → o.wdies ≠ 0 → t.power = { pw with phase := 1, critView := pw.crit } ∧ t.flt.standbyOk = decide (o.wdies = 3)
            ∧ t = { s with power := t.power, flt := t.flt, auth := t.auth })
        ∧ (n = 1 → o.currentFw = false → o.previousFw = false → fails t 1)
        ∧ (n = 1 → o.currentFw = true ∨ o.previousFw = true → t.power.phase = 2 ∧ t.power.fwFallback = !o.currentFw
            ∧ t.power.structValid = (o.structOk && s.st.stored.isSome) ∧ t.st.running = (if o.structOk then s.st.stored.getD {} else {})
            ∧ t = { s with power := t.power, st := t.st, auth := t.auth, dev := { s.dev with deviceId := o.deviceId } })
        ∧ (2 ≤ n → n ≤ 5 → o.vpriInRange = false → fails t 4)
        ∧ (n = 2 → o.vpriInRange = true → armsHoldup o.cap10uf o.esrMohm o.vholdMv = false → fails t 3)
        ∧ (n = 2 → sound o → armsHoldup o.cap10uf o.esrMohm o.vholdMv = true → t.power.phase = 3 ∧ t.power.armed = true
            ∧ (∀ c, c < cdieCount s → mapGet 0 t.loops.clocks c = clampClock s 1000)
            ∧ t = { s with power := t.power, loops := { s.loops with clocks := t.loops.clocks, volts := t.loops.volts, droopCal := t.loops.droopCal },
                           freeIx := t.freeIx })
        ∧ (n = 3 → sound o → someDie s → t.power.phase = 4 ∧ t.power.k3done = true
            ∧ (∀ b, b < 16 * cdieCount s → (brickAt t b).m = {} ∧ (brickAt t b).fl = {} ∧ (brickAt t b).descs = ({} : BrickSt).descs
              ∧ (brickAt t b).r = {} ∧ ((brickAt t b).c.phase = .reset ∨ (brickAt t b).c.phase = .retired))
            ∧ (∀ i, i < 4 → (sdieAt t i).hbmReady = true ∧ (sdieAt t i).sramReady = true))
        ∧ (n = 4 → sound o → someDie s → t.power.phase = 5
            ∧ (∀ c ∈ s.st.running.ports, (portAt s c.port.val).signal = true → (portAt s c.port.val).st = 0 →
                (ldieAt s (c.port.val / 16)).lost = false → (portAt t c.port.val).st = 1)
            ∧ t = { s with power := t.power, link := { s.link with ports := t.link.ports } })
        ∧ (n = 5 → sound o → someDie s → t.power.phase = 6
            ∧ (∀ c k, c < cdieCount s → k < 16 → (brickAt t (c * 16 + k)).c.phase =
                if (brickAt s (c * 16 + k)).c.phase = .retired then .retired else if (courseOf t c).isSome then .idle else .off))
        ∧ (3 ≤ n → n ≤ 5 → o.vpriInRange = true → (∀ i, i < 4 → (pdieAt s i).lost = true) → fails t 5)
        ∧ (n = 6 → t.power.phase = 7 ∧ t.dev.xlateRev = BitVec.ofNat 32 s.auth.fwCurrent ∧ t.dev.capsGen = s.dev.capsGen + 1
            ∧ (∀ b x, mapFind b s.bricks = some x → x.c.phase ≠ .off → x.c.phase ≠ .retired →
                (brickAt t b).c.capHash = capHashOf t x ∧ (brickAt t b).m = x.m)
            ∧ (o.slowRefusal ≠ 0 → s.st.running.slowpath.isSome = true → t.st.slowRefused = true ∧ t.st.code = 0x0D)
            ∧ (o.slowRefusal = 0 → t.st.slowRefused = false))
        ∧ (n = 7 → t.power.running = false ∧ t.power.ready = true ∧ t.power.readyMs = min 0xFFFF ((nowNs s - pw.kilnNs) / 1000000)
            ∧ t.st.epoch = 1 ∧ t.st.contents = [(1, s.st.running)] ∧ t.st.running = s.st.running
            ∧ t.dev.lastTc = s.time.wall ∧ t.dev.lastKind = 1
            ∧ (∀ (part : Part) c, partCfg s.st.running part.val = some c →
                (partAt t part.val).cascade = cascadeOf (modelAt s part.val).cascadeOn c.cascade)))
    ∧ (∀ o, pw.activating = true → ∃ t, exec (.kilnPhaseComplete o) s = .next t ∧ t.bricks.length = s.bricks.length ∧ t.pdies = s.pdies ∧ t.sdies = s.sdies
        ∧ (pw.phase = 1 → o.currentFw = true → t.power.phase = 6 ∧ t.power.activating = true ∧ t.power.fwFallback = false
            ∧ (s.flt.standbyOk = true → t.flt.activeW = !s.flt.activeW ∧ t.auth.sessions = []))
        ∧ (pw.phase = 1 → o.currentFw = false → t.power = { pw with activating := false, fwFallback := true } ∧ t.auth.fwCurrent = s.auth.fwCurrent)
        ∧ (pw.phase ≠ 1 → t.power = { pw with activating := false } ∧ t.dev.xlateRev = BitVec.ofNat 32 s.auth.fwCurrent))
    ∧ (∀ path, MayRun s path 12 →
        (∀ v, ∃ u, Recorded s u path 0x45 0xFFFFFFFF 0
          ∧ exec (.fwUpdate path true true v) s = .next { u with auth := { u.auth with fwStaged := some v } })
        ∧ (∀ a b v, a = false ∨ b = false → ∃ u, Recorded s u path 0x45 0xFFFFFFFF 3 ∧ exec (.fwUpdate path a b v) s = .next u)
        ∧ (pw.ready = true → pw.activating = false → ∃ u, Recorded s u path 0x46 0xFFFFFFFF 0
          ∧ exec (.fwActivate path) s = .next { u with power := { pw with activation := true, activating := true, phase := 1 } })
        ∧ (pw.ready = false ∨ pw.activating = true → ∃ u, Recorded s u path 0x46 0xFFFFFFFF 3 ∧ exec (.fwActivate path) s = .next u))
    ∧ (∀ v a b n, exec (.fwUpdate (.vf v) a b n) s = .next s ∧ exec (.fwActivate (.vf v)) s = .next s)

/-- R438, R493 to R497, R499, R500, R549 to R551, R553, R555: the hold-up sequence, its capacitor, and the pins. Model's choices it rests on: log 3, 58, 74, 75. -/
def Obligations.HoldUpAndPins : Prop :=
  ∀ (s : State), let pw := s.power
    (∀ low mv, (low < 50 → exec (.sagPin (.sagN low mv)) s = .next s)
      ∧ (100 ≤ low → alight s → ∃ t, exec (.sagPin (.sagN low mv)) s = .next t ∧ HeldUp s t 1 (decide (7000 ≤ mv)) false)
      ∧ (50 ≤ low → low < 100 → alight s → ∃ t, exec (.sagPin (.sagN low mv)) s = .next t
          ∧ (t = { s with freeIx := s.freeIx + 1 } ∨ HeldUp s t 1 (decide (7000 ≤ mv)) false))
      ∧ (low < 2 → exec (.sagPin (.vpri low mv)) s = .next s)
      ∧ (2 ≤ low → alight s → ∃ t, exec (.sagPin (.vpri low mv)) s = .next t ∧ HeldUp s t 2 (decide (7000 ≤ mv)) false)
      ∧ (pw.holdup.isSome = true → exec (.sagPin (.vpri low mv)) s = .next s ∧ (100 ≤ low → exec (.sagPin (.sagN low mv)) s = .next s)))
    ∧ (∀ path, MayRun s path 4 → alight s → ∃ u t, exec (.shutdown path) s = .next t ∧ Recorded s u path 0x42 0xFFFFFFFF 0 ∧ HeldUp u t 3 true false)
    ∧ (∀ v, exec (.shutdown (.vf v)) s = .next s)
    ∧ (∀ path, MayNotRun s path 4 → ∃ t, exec (.shutdown path) s = .next t ∧ t = { s with auth := t.auth })
    ∧ (∀ ok, (pw.holdup = none → exec (.criticalRecordWritten ok) s = .next s)
      ∧ (∀ h, pw.holdup = some h →
        let done := (ok || h.sure)
        ∃ t, exec (.criticalRecordWritten ok) s = .next t
          ∧ (done = true → t.power.crit = h.record ∧ t.power.critGen = pw.critGen + 1 ∧ t.power.savedNums = h.nums ∧ t.auth = s.auth)
          ∧ (done = false → t.power.crit = pw.crit ∧ t.power.critGen = pw.critGen ∧ t.power.savedNums = pw.savedNums
              ∧ t.auth = { s.auth with tail := [], waiting := [], head := s.auth.ringNext, chain := s.auth.ringChain })
          ∧ t.power.holdup = none ∧ t.power.lastCause = h.cause ∧ t.power.recordOk = done ∧ t.power.recordIncomplete = !done
          ∧ t.power.held = (h.cause == 3 && !h.released)
          ∧ t = { s with power := t.power, auth := t.auth }))
    ∧ (∀ cap esr mv, let arms := decide (0x14A ≤ cap) && decide (esr ≤ 20) && decide (10000 ≤ mv)
      let p := { pw with cap10uf := min 0xFFFF cap, esr := min 255 esr, armed := arms }
      (pw.ready = false → exec (.holdupMeasure cap esr mv) s = .next s)
      ∧ (pw.ready = true → arms = true → exec (.holdupMeasure cap esr mv) s = .next { s with power := p })
      ∧ (pw.ready = true → arms = false → exec (.holdupMeasure cap esr mv) s =
          .next { s with power := p, dev := { s.dev with intStatus := s.dev.intStatus ||| 2 } })
      ∧ (pw.ready = true → mv < 10000 → exec (.vholdLow mv) s =
          .next { s with power := { pw with armed := false }, dev := { s.dev with intStatus := s.dev.intStatus ||| 2 } })
      ∧ (pw.ready = false ∨ 10000 ≤ mv → exec (.vholdLow mv) s = .next s))
    ∧ (∀ low mk addr, let straps := fun (u t : State) => t.auth = { u.auth with makerEn := mk, smbAddr := 0x60#7 + BitVec.ofNat 7 addr.val }
      (low < 1000 → exec (.porstPulse low mk addr) s = .next s)
      ∧ (1000 ≤ low → low < 10000 → ∃ t, exec (.porstPulse low mk addr) s = .next t ∧ (t = { s with freeIx := s.freeIx + 1 } ∨ t.auth.makerEn = mk))
      ∧ (10000 ≤ low →
        (∀ h, pw.holdup = some h → ∃ t, exec (.porstPulse low mk addr) s = .next t ∧ straps s t
          ∧ t = { s with auth := t.auth, power := { pw with holdup := some { h with released := true } } })
        ∧ (pw.holdup = none → pw.ready = true → ∃ u t, exec (.porstPulse low mk addr) s = .next t ∧ HeldUp s u 3 true true ∧ straps u t
          ∧ t = { u with auth := t.auth })
        ∧ (pw.holdup = none → pw.ready = false → ∃ u t, exec (.porstPulse low mk addr) s = .next t ∧ Cold s u ∧ straps u t
          ∧ u.power.held = false ∧ u.power.off = false ∧ u.power.vauxOk = true ∧ t = { u with auth := t.auth })))
    ∧ (∃ t, exec .vauxOutOfRange s = .next t ∧ Cold s t ∧ t.power.vauxOk = false ∧ t.power.holdup = none ∧ t.auth.tail = [])
    ∧ (pw.held = false → pw.off = false → pw.holdup = none → pw.pcieUp = true → ∃ t, exec .perstAssert s = .next t
        ∧ t.power = { pw with pcieUp := false } ∧ t.dev.numVfs = 0 ∧ fenced t 0 = true ∧ fnActive (partAt t 0) = false
        ∧ (∀ p, 0 < p → p ≤ s.dev.numVfs → p ∈ partsKnown s s.st.running s.st.running → fenced t p = true ∧ fnActive (partAt t p) = false))
    ∧ (pw.held = true ∨ pw.off = true ∨ pw.holdup.isSome = true ∨ pw.pcieUp = false → exec .perstAssert s = .next s)
    ∧ exec .perstRelease s = .next { s with power := { pw with pcieUp := true } }

/-- R501 to R505, R508, R513, R514: sessions and keys. Model's choices it rests on: log 4, 53, 54. -/
def Obligations.SessionsAndKeys : Prop :=
  ∀ (s : State) (path : Path), (∀ v, path ≠ .vf v) → let k := pathNum path
    let a := s.auth
    let only := fun (t : State) => t = { s with auth := t.auth } ∧ t.auth.keys = a.keys ∧ t.auth.ring = a.ring
    let closed := fun (t : State) => sessionOf t path = none
      ∧ (∀ q, pathNum q ≠ k → sessionOf t q = sessionOf s q)
      ∧ (∀ x, sessionOf s path = some x → a.tail.length < 256 → ∃ r, t.auth.tail = a.tail ++ [r] ∧ (r.drop 14).take 2 = [3, 0] ∧ (r.drop 24).take 4 = leBytes 4 x.slot)
    (a.tail.length < 256 →
      (∀ slot nonce, (slot.toNat ≤ 10 → slotLocked s slot.toNat = false → ∃ t, exec (.openSession path slot nonce) s = .next t ∧ closed t
            ∧ mapFind k t.auth.challenges = some (slot.toNat, nonce) ∧ t.out = { s.out with replies := s.out.replies ++ [(k, beBytes 48 nonce.toNat)] }
            ∧ t = { s with auth := t.auth, out := t.out })
        ∧ (10 < slot.toNat ∨ slotLocked s slot.toNat = true → ∃ t, exec (.openSession path slot nonce) s = .next t ∧ closed t
            ∧ mapFind k t.auth.challenges = none ∧ only t))
      ∧ (∀ sig, (mapFind k a.challenges = none → exec (.verifySession path sig) s = .next s)
        ∧ (∀ slot nonce, mapFind k a.challenges = some (slot, nonce) →
          (∀ pt, slotLocked s slot = false → mapFind slot a.keys = some pt → verifies pt (challengeDigest s slot k nonce) sig = true →
            ∃ t, exec (.verifySession path sig) s = .next t ∧ mapFind k t.auth.challenges = none ∧ t.auth.count = a.count + 1
              ∧ sessionOf t path = some { role := slotRole slot, slot, keyId := keyIdOf pt, lastNs := nowNs s } ∧ only t)
          ∧ (slotLocked s slot = false →
            (mapFind slot a.keys = none ∨ ∃ pt, mapFind slot a.keys = some pt ∧ verifies pt (challengeDigest s slot k nonce) sig = false) →
            ∃ t, exec (.verifySession path sig) s = .next t ∧ mapFind k t.auth.challenges = none ∧ t.auth.count = a.count ∧ t.auth.sessions = a.sessions ∧ only t
              ∧ (let ts := (mapGet [] a.fails slot).filter (fun t => decide (nowNs s < t + 60000000000))
                (ts.length < 2 → mapFind slot t.auth.fails = some (ts ++ [nowNs s]) ∧ t.auth.locked = a.locked)
                ∧ (2 ≤ ts.length → mapFind slot t.auth.fails = none ∧ mapFind slot t.auth.locked = some (nowNs s + 60000000000))))
          ∧ (slotLocked s slot = true → exec (.verifySession path sig) s = .next { s with auth := { a with challenges := mapDel k a.challenges } })))
      ∧ (sessionOf s path ≠ none → ∃ t, exec (.closeSession path) s = .next t ∧ closed t ∧ only t)
      ∧ (∀ b, a.tail.length < 256 →
        (∀ root, mapFind 1 a.keys = none → mapFind 2 a.keys = none → b.slot = 1 ∨ b.slot = 2 → blockOk b = true → mapFind 0 a.keys = some root →
          verifies root (sha384Word (leBytes 8 s.dev.deviceId.toNat ++ b.point)) b.cert = true →
          ∃ t, exec (.claim path b) s = .next t ∧ mapFind b.slot t.auth.keys = some b.point ∧ (∀ j, j ≠ b.slot → mapFind j t.auth.keys = mapFind j a.keys)
            ∧ (∃ r, t.auth.tail = a.tail ++ [r] ∧ (r.drop 14).take 2 = [0x10, 0]) ∧ t = { s with auth := t.auth })
        ∧ (mapFind 1 a.keys ≠ none ∨ mapFind 2 a.keys ≠ none ∨ (b.slot ≠ 1 ∧ b.slot ≠ 2) ∨ blockOk b = false →
          ∃ t, exec (.claim path b) s = .next t ∧ only t ∧ (∃ r, t.auth.tail = a.tail ++ [r] ∧ (r.drop 14).take 2 = [0x10, 0] ∧ r.getD 28 0 = 3))))
    ∧ (sessionOf s path = none → exec (.closeSession path) s = .next s ∧ exec (.sessionTimeout path) s = .next s)
    ∧ (∀ x, sessionOf s path = some x →
      (nowNs s < x.lastNs + 600000000000 → exec (.sessionTimeout path) s = .next s)
      ∧ (x.lastNs + 600000000000 ≤ nowNs s → ∃ t, exec (.sessionTimeout path) s = .next t ∧ closed t ∧ only t))
    ∧ (∀ (slot : Fin 11) t₀, mapFind slot.val a.locked = some t₀ →
      (t₀ ≤ nowNs s → exec (.slotUnlock slot) s = .next { s with auth := { a with locked := mapDel slot.val a.locked } })
      ∧ (nowNs s < t₀ → exec (.slotUnlock slot) s = .next s))
    ∧ (MayRun s path 4 → ∀ b,
      (keySlotOk b.slot = true → blockOk b = true → ∃ u t, exec (.enrol path b) s = .next t ∧ Recorded s u path 0x11 b.slot 0
          ∧ mapFind b.slot t.auth.keys = some b.point ∧ (∀ j, j ≠ b.slot → mapFind j t.auth.keys = mapFind j a.keys)
          ∧ (mapFind b.slot a.keys = some b.point → t.auth.sessions = u.auth.sessions)
          ∧ (mapFind b.slot a.keys ≠ some b.point → ∀ q x, sessionOf s q = some x → x.slot = b.slot → sessionOf t q = none)
          ∧ t = { u with auth := t.auth })
      ∧ (keySlotOk b.slot = false ∨ blockOk b = false → ∃ u, Recorded s u path 0x11 b.slot 3 ∧ exec (.enrol path b) s = .next u)
      ∧ (removeOk b s = true → ∃ u t, exec (.remove path b) s = .next t ∧ Recorded s u path 0x12 b.slot 0
          ∧ mapFind b.slot t.auth.keys = none ∧ (∀ j, j ≠ b.slot → mapFind j t.auth.keys = mapFind j a.keys)
          ∧ (∀ q x, sessionOf s q = some x → x.slot = b.slot → sessionOf t q = none) ∧ t = { u with auth := t.auth })
      ∧ (b.slot = 1 ∧ mapFind 2 a.keys = none ∨ b.slot = 2 ∧ mapFind 1 a.keys = none ∨ mapFind b.slot a.keys ≠ some b.point →
          ∃ u, Recorded s u path 0x12 b.slot 3 ∧ exec (.remove path b) s = .next u))
    ∧ (MayNotRun s path 4 → ∀ b, (∃ t, exec (.enrol path b) s = .next t ∧ only t) ∧ (∃ t, exec (.remove path b) s = .next t ∧ only t))
    ∧ (∀ v b, exec (.enrol (.vf v) b) s = .next s ∧ exec (.remove (.vf v) b) s = .next s ∧ exec (.claim (.vf v) b) s = .next s)

/-- R203, R476, R507, R509 to R513: the audit ring, the commands on counters and units, attestation and JTAG. Model's choices it rests on: log 3, 42, 43, 54, 55, 56. -/
def Obligations.AuditAndAttestation : Prop :=
  (∀ (s : State), let a := s.auth
    let slot := fun (r : List Byte) => leNat ((r.drop 8).take 4) % 16384
    (∃ t, exec .auditFlush s = .next t ∧ t = { s with auth := t.auth } ∧ t.auth.keys = a.keys ∧ t.auth.sessions = a.sessions
      ∧ (a.waiting = [] → t.auth.tail = [] ∧ t.auth.head = a.head ∧ t.auth.chain = a.chain)
      ∧ ((a.tail.map slot).Nodup → ∀ r ∈ a.tail, mapFind (slot r) t.auth.ring = some r)
      ∧ (∀ k, k ∉ a.tail.map slot → mapFind k t.auth.ring = mapFind k a.ring))
    ∧ (∀ path, (MayRun s path 14 → ∃ u t sig, exec (.auditCheckpoint path) s = .next t ∧ Recorded s u path 0x70 0xFFFFFFFF 0 ∧ sig.length = 96
          ∧ t.out = { s.out with replies := s.out.replies ++ [(pathNum path, leBytes 4 u.auth.head.toNat ++ beBytes 16 u.auth.chain.toNat ++ sig)] }
          ∧ t = { u with out := t.out, freeIx := t.freeIx })
      ∧ (MayRun s path 4 → ∀ unit retire, let kind := unit / 2 ^ 32
          let w : Word := BitVec.ofNat 32 unit
          (kind < 14 → inService s kind w = true → ∃ u t, exec (.repairRequest path unit retire) s = .next t ∧ Recorded s u path 0x43 w.toNat 0
            ∧ (retire = false → (unitAt t (unitKey kind w)).st = .covered ∧ unitKey kind w ∈ t.flt.retests)
            ∧ (∀ b, retire = true → b < 288 → unit = (brickUnit b).toNat → (brickAt t b).c.phase = .retired ∧ (unitAt t unit).st = .retired
                ∧ mapGet 0 t.flt.cnt 1 = mapGet 0 s.flt.cnt 1))
          ∧ (14 ≤ kind ∨ inService s kind w = false → ∃ u, Recorded s u path 0x43 w.toNat 3 ∧ exec (.repairRequest path unit retire) s = .next u))
      ∧ (MayRun s path 8 → (∀ unit retire, (unit < 14 * 2 ^ 32 → ∃ u, Recorded s u path 0x50 (unit % 2 ^ 32) 0 ∧ exec (.repairOverride path unit retire) s =
            .next { u with flt := { s.flt with overrides := s.flt.overrides.filter (fun q => q.1 != unit) ++ [(unit, retire)], repairGen := s.flt.repairGen + 1 } })
          ∧ (14 * 2 ^ 32 ≤ unit → ∃ u, Recorded s u path 0x50 (unit % 2 ^ 32) 3 ∧ exec (.repairOverride path unit retire) s = .next u))
        ∧ (∀ i v, ∃ u, Recorded s u path 0x51 0xFFFFFFFF 0
            ∧ exec (.calibWrite path i v) s = .next { u with auth := { u.auth with calib := mapSet i v u.auth.calib } }))
      ∧ (MayNotRun s path 14 → ∃ t, exec (.auditCheckpoint path) s = .next t ∧ t = { s with auth := t.auth })
      ∧ (MayNotRun s path 8 → ∀ i v, ∃ t, exec (.calibWrite path i v) s = .next t ∧ t = { s with auth := t.auth } ∧ t.auth.calib = a.calib))
    ∧ (∀ v unit i w (x : Word), exec (.auditCheckpoint (.vf v)) s = .next s ∧ exec (.repairRequest (.vf v) unit w) s = .next s
        ∧ exec (.repairOverride (.vf v) unit w) s = .next s ∧ exec (.calibWrite (.vf v) i x) s = .next s)
    ∧ (∀ which, exec (.counterClear .pf which) s = .next s)
    ∧ (MayRun s .mctp 6 →
        (∀ k, k < 4 → (∃ u, Recorded s u .mctp 0x31 k 0 ∧ exec (.counterClear .mctp k) s = .next (putPdie k { pdieAt s k with cnt := [] } u))
          ∧ (∃ u, Recorded s u .mctp 0x31 (4 + k) 0 ∧ exec (.counterClear .mctp (4 + k)) s = .next (putLdie k { ldieAt s k with cnt := [] } u))
          ∧ (∃ u, Recorded s u .mctp 0x31 (8 + k) 0 ∧ exec (.counterClear .mctp (8 + k)) s = .next (putSdie k { sdieAt s k with cnt := [] } u)))
        ∧ (∃ u, Recorded s u .mctp 0x31 12 0 ∧ exec (.counterClear .mctp 12) s = .next { u with flt := { s.flt with cnt := [] } })
        ∧ (∀ p, p < 1024 → (∃ u, Recorded s u .mctp 0x31 (16 + p) 0 ∧ exec (.counterClear .mctp (16 + p)) s = .next (putPart p { partAt s p with cnt := [] } u))
          ∧ (∃ u t, Recorded s u .mctp 0x31 (1040 + p) 0 ∧ exec (.counterClear .mctp (1040 + p)) s = .next t
            ∧ (∀ h, mapFind h t.obs.hists = if h = 4 * p ∨ h = 4 * p + 1 ∨ h = 4 * p + 2 then none else mapFind h s.obs.hists)
            ∧ t = { u with obs := { s.obs with hists := t.obs.hists } }))))
  ∧ (∀ (s : State) (path : Path), (∀ v, path ≠ .vf v) → let k := pathNum path
    let level := mapGet 0 s.auth.spdm k
    let answers := fun (c : Instr) (code : Byte) (n : Nat) (to_ : Nat) => ∃ t body, exec c s = .next t ∧ body.length = n
      ∧ t.out = { s.out with replies := s.out.replies ++ [(k, [0x12, code, 0, 0] ++ body)] } ∧ mapGet 0 t.auth.spdm k = to_
      ∧ t = { s with out := t.out, freeIx := t.freeIx, auth := { s.auth with spdm := t.auth.spdm } }
    let refused := fun (c : Instr) => exec c s = .next { s with out := { s.out with replies := s.out.replies ++ [(k, [0x12, 0x7F, 0x04, 0])] } }
    answers (.spdmGetVersion path) 0x04 4 1
    ∧ (1 ≤ level → answers (.spdmGetCapabilities path) 0x61 16 2) ∧ (level < 1 → refused (.spdmGetCapabilities path))
    ∧ (2 ≤ level → answers (.spdmNegotiateAlgorithms path) 0x63 8 3) ∧ (level < 2 → refused (.spdmNegotiateAlgorithms path))
    ∧ (3 ≤ level → answers (.spdmGetDigests path) 0x01 48 level ∧ answers (.spdmGetCertificate path) 0x02 1024 level
        ∧ answers (.spdmChallenge path) 0x03 144 level
        ∧ ∃ t m, exec (.spdmGetMeasurements path) s = .next t ∧ t.out = { s.out with replies := s.out.replies ++ [(k, m)] }
          ∧ (s.power.structValid = true → (m.drop 103).take 48 = sha384 (beBytes 96 s.st.storedSig.toNat))
          ∧ t = { s with out := t.out, freeIx := t.freeIx })
    ∧ (level < 3 → refused (.spdmGetDigests path) ∧ refused (.spdmGetCertificate path) ∧ refused (.spdmChallenge path) ∧ refused (.spdmGetMeasurements path)))
  ∧ (∀ (s : State), let sel := fun (n : Fin 5) => { s with auth := { s.auth with jtag := n } }
    exec .jtagBypass s = .next (sel 0)
    ∧ exec .jtagIdcode s = .next { sel 1 with out := { s.out with replies := s.out.replies ++ [(2, leBytes 4 Config.idcode.toNat)] } }
    ∧ (∃ t b, exec .jtagSamplePreload s = .next t ∧ t.out = { s.out with replies := s.out.replies ++ [(2, b)] }
        ∧ t = { sel 2 with out := t.out, freeIx := t.freeIx })
    ∧ (s.power.extest = true → exec .jtagExtest s = .next (sel 3))
    ∧ (s.power.extest = false → ∃ t, exec .jtagExtest s = .next t ∧ t.auth.jtag = 3 ∧ t.power.extest = true ∧ t.power.ready = false ∧ t.power.running = false
        ∧ (∀ i, i < 4 → (pdieAt t i).lost = true ∧ (ldieAt t i).lost = true ∧ (sdieAt t i).lost = true) ∧ mayStart t = false)
    ∧ (∀ code, (∀ p, jtagSession s = some p → s.auth.tail.length < 256 → ∃ t b r, exec (.jtagPrivate code) s = .next t ∧ t.auth.jtag = 4
          ∧ t.out = { s.out with replies := s.out.replies ++ [(2, b)] } ∧ t.auth.tail = s.auth.tail ++ [r] ∧ (r.drop 14).take 2 = [0x52, 0]
          ∧ t = { s with auth := t.auth, out := t.out, freeIx := t.freeIx })
      ∧ (jtagSession s = none → ∃ t, exec (.jtagPrivate code) s = .next t ∧ t = { s with auth := t.auth } ∧ t.auth.jtag = s.auth.jtag)
      ∧ (s.auth.makerEn = false → jtagSession s = none)))

/-- R515 to R517, R521 to R524, R529, R531, R553: the wall counter's discipline, the histograms, the trace and the dumps. Model's choices it rests on: log 4, 60. -/
def Obligations.TimeAndObservation : Prop :=
  ∀ (s : State), let c := s.time
    (∃ t, exec .tsyncEdge s = .next t ∧ t = { s with time := t.time } ∧ t.time.now = c.now ∧ t.time.wall = (if c.step then c.todNext else c.wall)
      ∧ t.time.step = false ∧ t.time.lastEdge = some c.now ∧ -200000 ≤ t.time.slewPpb ∧ t.time.slewPpb ≤ 200000
      ∧ (let r := t.time.wall.toNat % 1000000000
        (r ≤ 200000 → t.time.slewPpb = -(r : Int)) ∧ (999800000 ≤ r → t.time.slewPpb = 1000000000 - (r : Int))
        ∧ (r ≤ 4 ∨ 999999996 ≤ r → t.time.good = min 4 (c.good + 1) ∧ (3 ≤ c.good → t.time.locked = true) ∧ (c.good < 3 → t.time.locked = false))
        ∧ (4 < r → r < 999999996 → t.time.good = 0 ∧ t.time.locked = false)))
    ∧ (c.lastEdge = none → exec .tsyncTimeout s = .next s)
    ∧ (∀ u, c.lastEdge = some u → (u + 2000000000 ≤ c.now → exec .tsyncTimeout s = .next { s with time := { c with locked := false, good := 0 } })
      ∧ (c.now < u + 2000000000 → exec .tsyncTimeout s = .next s))
    ∧ (let high := ∃ u, c.pulseNs = some u ∧ c.now < u + 100000
      (c.wall.toNat % 1000000000 ≤ 6 → ¬ high → exec .tsyncOutPulse s = .next { s with time := { c with pulseNs := some c.now } })
      ∧ (6 < c.wall.toNat % 1000000000 ∨ high → exec .tsyncOutPulse s = .next s))
    ∧ exec (.wallStep .pf) s = .next { s with time := { c with step := true } }
    ∧ exec (.wallStep .mctp) s = .next s
    ∧ (∀ v (part : Part), exec (.wallStep (.vf v)) s = .next s ∧ exec (.histClear (.vf v) part) s = .next s)
    ∧ (∀ part, let sel := s.obs.histSel.toNat
      let only := fun (k : Nat) => ∃ t, exec (.histClear .pf part) s = .next t ∧ mapFind k t.obs.hists = none
        ∧ (∀ j, j ≠ k → mapFind j t.obs.hists = mapFind j s.obs.hists) ∧ t = { s with obs := { s.obs with hists := t.obs.hists } }
      (bit 31 sel = false → bits 13 12 sel < 3 → only (4 * bits 9 0 sel + bits 13 12 sel))
      ∧ (bit 31 sel = true → bits 9 0 sel < 4 → only (occKey (bits 13 12 sel) (bits 9 0 sel)))
      ∧ (MayRun s .mctp 6 → ∃ u t, exec (.histClear .mctp part) s = .next t ∧ Recorded s u .mctp 0x31 part.val 0
        ∧ (∀ h, mapFind h t.obs.hists = if h = 4 * part.val ∨ h = 4 * part.val + 1 ∨ h = 4 * part.val + 2 then none else mapFind h s.obs.hists)
        ∧ t = { u with obs := { s.obs with hists := t.obs.hists } }))
    ∧ (c.wall.toNat / 1024 = s.obs.lastSampleNs / 1024 → exec .occupancySample s = .next s)
    ∧ (c.wall.toNat / 1024 ≠ s.obs.lastSampleNs / 1024 → ∃ t, exec .occupancySample s = .next t ∧ t.obs.lastSampleNs = c.wall.toNat
      ∧ (∀ q d, q < 4 → d < 4 → let n := occupancy s q d
        let old := mapGet {} s.obs.hists (4096 + 4 * q + d)
        let new := mapGet {} t.obs.hists (4096 + 4 * q + d)
        let b := if n = 0 then 0 else min 31 (Nat.log2 n + 1)
        new.total = old.total + 1 ∧ mapGet 0 new.bins b = min 0xFFFFFFFF (mapGet 0 old.bins b + 1)
        ∧ (∀ j, j ≠ b → mapGet 0 new.bins j = mapGet 0 old.bins j)
        ∧ new.mn = (if n < old.mn.toNat then BitVec.ofNat 48 n else old.mn) ∧ new.mx = (if old.mx.toNat < n then BitVec.ofNat 48 n else old.mx))
      ∧ (∀ j, j < 4096 ∨ 4112 ≤ j → mapFind j t.obs.hists = mapFind j s.obs.hists)
      ∧ t = { s with obs := { s.obs with lastSampleNs := t.obs.lastSampleNs, hists := t.obs.hists } })
    ∧ (∀ unit, ∃ t, exec (.traceDrop unit) s = .next t
      ∧ (∀ r, r ∈ t.obs.traceWait ↔ r ∈ s.obs.traceWait ∧ ¬(leNat ((r.1.drop 9).take 3) = unit ∧ r.2 + 1000 < nowNs s))
      ∧ t.obs.dropCnt = s.obs.dropCnt + BitVec.ofNat 48 (s.obs.traceWait.length - t.obs.traceWait.length)
      ∧ t = { s with obs := { s.obs with traceWait := t.obs.traceWait, dropCnt := t.obs.dropCnt } })
    ∧ (∀ path (slot : Fin 4),
      (allowed s path 4 = false → exec (.rubbleRelease path slot) s = .next s)
      ∧ (allowed s path 4 = true → ∀ r, mapFind slot.val s.obs.rubble = some r → ∃ t, exec (.rubbleRelease path slot) s = .next t
        ∧ mapFind slot.val t.obs.rubble = (if r.written then none else some r)
        ∧ (∀ j, j ≠ slot.val → mapFind j t.obs.rubble = mapFind j s.obs.rubble)
        ∧ t = { s with obs := { s.obs with rubble := t.obs.rubble }, auth := { s.auth with sessions := t.auth.sessions } })
      ∧ ((∀ v, path ≠ .vf v) → s.auth.tail.length < 256 →
        (allowed s path 4 = true → ∃ t, exec (.rubbleExport path slot) s = .next t
          ∧ (∀ r, mapFind slot.val s.obs.rubble = some r → r.written = true →
              t.out = { s.out with replies := s.out.replies ++ [(pathNum path, r.bytes)] })
          ∧ (mapFind slot.val s.obs.rubble = none → t.out = { s.out with replies := s.out.replies ++ [(pathNum path, [])] })
          ∧ (∀ x, sessionOf s path = some x → (x.exported.getLsbD slot.val = true → t.auth = s.auth)
              ∧ (x.exported.getLsbD slot.val = false → (∃ r, t.auth.tail = s.auth.tail ++ [r] ∧ (r.drop 14).take 2 = [0x44, 0])
                ∧ ∃ y, sessionOf t path = some y ∧ y.exported.getLsbD slot.val = true))
          ∧ t = { s with out := t.out, auth := t.auth })
        ∧ (allowed s path 4 = false → ∃ t, exec (.rubbleExport path slot) s = .next t ∧ t = { s with auth := t.auth })))
    ∧ (∀ v slot, exec (.rubbleExport (.vf v) slot) s = .next s)

/-- R10, R11, R37, R62, R427, R431, R438, R441, R443, R444, R483, R534, R536 to R540, R542: reads and writes of registers. Model's choices it rests on: log 13, 61. -/
def Obligations.RegisterAccess : Prop :=
  ∀ (s : State), let reads := fun (t : State) (v : Nat) => t.dev.readData = BitVec.ofNat 64 v
    (∀ fn o size v, (spaceOf s fn = none ∨ ∃ sp, spaceOf s fn = some sp ∧ spaceSize sp < o + sizeOf_ size) →
      exec (.rclrRead fn o size) s = .next s ∧ exec (.registerWrite fn o size v) s = .next s)
    ∧ (spaceOf s .pf = some 0 →
      (exec (.rclrRead .pf 0 .b4) s = .next { s with dev := { s.dev with readData := BitVec.ofNat 64 (0x00400000 + s.dev.vendor.toNat) } }
      ∧ exec (.rclrRead .pf 8 .b8) s = .next { s with dev := { s.dev with readData := s.dev.serial } }
      ∧ exec (.rclrRead .pf 0x38 .b4) s = .next { s with dev := { s.dev with readData := s.dev.intStatus.setWidth 64 } }
      ∧ (∀ o size, s.power.k3done = false → 0x200000 ≤ o → o + sizeOf_ size ≤ 0x8000000 →
          exec (.rclrRead .pf o size) s = .next { s with dev := { s.dev with readData := 0 } })
      ∧ (s.power.k3done = true → exec (.rclrRead .pf 0x300000 .b8) s = .next { s with dev := { s.dev with readData := s.time.wall } })
      ∧ (∀ p n, s.power.k3done = true → p < 4 → n < 10 → unitRetired s 3 (dieUnit 1 p) = false →
          let o := 0x500200 + p * 0x40000 + 8 * n
          let v := mapGet 0 (pdieAt s p).cnt n
          let clears := fun (t : State) => mapGet 0 (pdieAt t p).cnt n = 0 ∧ (∀ k, k ≠ n → mapFind k (pdieAt t p).cnt = mapFind k (pdieAt s p).cnt)
            ∧ pdieAt t p = { pdieAt s p with cnt := (pdieAt t p).cnt } ∧ (∀ q, q ≠ p → pdieAt t q = pdieAt s q)
            ∧ t = { s with pdies := t.pdies, dev := { s.dev with readData := t.dev.readData, latchedHigh := t.dev.latchedHigh } }
          (∃ t, exec (.rclrRead .pf o .b8) s = .next t ∧ reads t v.toNat ∧ clears t)
          ∧ (∃ t, exec (.rclrRead .pf o .b4) s = .next t ∧ reads t (v.toNat % 2 ^ 32) ∧ clears t
              ∧ mapFind o t.dev.latchedHigh = some (BitVec.ofNat 32 (v.toNat / 2 ^ 32)))
          ∧ (∀ h, mapFind o s.dev.latchedHigh = some h → ∃ t, exec (.rclrRead .pf (o + 4) .b4) s = .next t ∧ reads t h.toNat
              ∧ t = { s with dev := { s.dev with readData := t.dev.readData, latchedHigh := mapDel o s.dev.latchedHigh } }))
      ∧ (∀ v : DWord, ∃ t, exec (.registerWrite .pf 0x38 .b4 v) s = .next t ∧ t.dev.intStatus = s.dev.intStatus &&& ~~~(v.setWidth 6)
          ∧ t = { s with dev := { s.dev with intStatus := t.dev.intStatus, heldLow := mapDel 0 s.dev.heldLow } })
      ∧ (∀ v : DWord, ∃ t, exec (.registerWrite .pf 0x3C .b4 v) s = .next t ∧ t.dev.intEn = v.extractLsb' 2 4
          ∧ t = { s with dev := { s.dev with intEn := t.dev.intEn, heldLow := mapDel 0 s.dev.heldLow } })
      ∧ (∀ v : DWord, v.getLsbD 24 = true → exec (.registerWrite .pf 0x30 .b4 v) s =
          .next { s with dev := { s.dev with badAccess := false, heldLow := mapDel 0 s.dev.heldLow } })
      ∧ (∀ o v, o < 0x8000000 → ∃ k, exec (.registerWrite .pf o .b1 v) s = .next { s with dev := { s.dev with badAccess := true, heldLow := mapDel k s.dev.heldLow } })
      ∧ (∀ v : DWord, exec (.registerWrite .pf 0x100100 .b8 v) s = .next { s with
          st := { s.st with addr := BitVec.ofNat 64 (v.toNat / 64 * 64) }, dev := { s.dev with heldLow := mapDel 1 s.dev.heldLow } })
      ∧ (∀ v : DWord, exec (.registerWrite .pf 0x100100 .b4 v) s = .next { s with
          dev := { s.dev with heldLow := mapSet 1 (0x100100, v.setWidth 32) s.dev.heldLow } })
      ∧ (∀ low (v : DWord), mapFind 1 s.dev.heldLow = some (0x100100, low) → exec (.registerWrite .pf 0x100104 .b4 v) s = .next { s with
          st := { s.st with addr := BitVec.ofNat 64 ((low.toNat + (v.toNat % 2 ^ 32) * 2 ^ 32) / 64 * 64) }
          dev := { s.dev with heldLow := mapDel 1 s.dev.heldLow } })
      ∧ (∀ (part : Part) (v : DWord), s.power.k3done = true → let p := part.val
          let u := { s with dev := { s.dev with heldLow := mapDel 13 s.dev.heldLow } }
          exec (.registerWrite .pf (0x3000040 + p * 0x400) .b4 v) s = .next (putPart p { partAt s p with
              cascade := cascadeOf (bit 0 (partAt s p).cascade.toNat) (v.setWidth 32) } u)
          ∧ exec (.registerWrite .pf (0x3000008 + p * 0x400) .b4 1) s = exec (.resetRequest .pf part) u
          ∧ exec (.registerWrite .pf (0x3000100 + p * 0x400) .b4 v) s = exec (.driftCtlWrite .pf part (v.setWidth 32)) u)))
    ∧ (∀ fn (part : Part), spaceOf s fn = some (part.val + 1) → 0 < part.val → let p := part.val
      let x := partAt s p
      exec (.rclrRead fn 0 .b4) s = .next { s with dev := { s.dev with readData := BitVec.ofNat 64 (x.gen.toNat * 2 ^ 26 + p * 2 ^ 16 + x.resetStep.val) } }
      ∧ (∀ n, n < 13 → ∃ t, exec (.rclrRead fn (0x2000 + 8 * n) .b8) s = .next t ∧ reads t (mapGet 0 x.cnt n).toNat
        ∧ mapGet 0 (partAt t p).cnt n = 0 ∧ (∀ k, k ≠ n → mapFind k (partAt t p).cnt = mapFind k x.cnt)
        ∧ partAt t p = { x with cnt := (partAt t p).cnt } ∧ (∀ q, q ≠ p → partAt t q = partAt s q)
        ∧ t = { s with parts := t.parts, dev := { s.dev with readData := t.dev.readData, latchedHigh := t.dev.latchedHigh } })
      ∧ (∀ r (v : DWord), r < 6 → let u := { s with dev := { s.dev with heldLow := mapDel (100 + p + 1) s.dev.heldLow } }
        (fenced s p = true ∨ (ringAt x r).enable = true → ∃ t, exec (.registerWrite fn (0x100 + 0x40 * r) .b8 v) s = .next t ∧ (∀ k, ringAt (partAt t p) k = ringAt x k))
        ∧ (fenced s p = true → exec (.registerWrite fn (0x100 + 0x40 * r) .b8 v) s = .next u)
        ∧ (fenced s p = false → (ringAt x r).enable = false → ∃ t, exec (.registerWrite fn (0x100 + 0x40 * r) .b8 v) s = .next t
          ∧ ringAt (partAt t p) r = { ringAt x r with base := BitVec.ofNat 64 (v.toNat / 4096 * 4096) }
          ∧ (∀ k, k ≠ r → ringAt (partAt t p) k = ringAt x k) ∧ t = { u with parts := t.parts }))
      ∧ (∀ v (d : DWord), v < 8 → ∃ t, exec (.registerWrite fn (0x8000 + 16 * v) .b8 d) s = .next t ∧ vecAt (partAt t p) v = { vecAt x v with addr := d }
        ∧ (∀ k, k ≠ v → vecAt (partAt t p) k = vecAt x k))
      ∧ (∀ v : DWord, fenced s p = false → ∃ t, exec (.registerWrite fn 0x3000 .b4 v) s = .next t
        ∧ (partAt t p).badDoorbell = (x.badDoorbell && !v.getLsbD 9) ∧ (partAt t p).eventLost = (x.eventLost && !v.getLsbD 8)
        ∧ (∀ b, b < 6 → (partAt t p).ringNew.getLsbD b = (x.ringNew.getLsbD b && !v.getLsbD b))))

/-- R448 to R452, R458, R461, R469 to R472, R476, R478, R479: errors detected and classified, halts, leases, heartbeats, takeovers, retests. Model's choices it rests on: log 4, 47, 49, 64. -/
def Obligations.FaultDetection : Prop :=
  ∀ (s : State), let cnt := fun (u : State) (k : Nat) => mapGet 0 u.flt.cnt k
    let retest := fun (t : State) (kind : Nat) (unit : Word) => (unitAt t (unitKey kind unit)).st = .covered ∧ unitKey kind unit ∈ t.flt.retests
    let takes := fun (t : State) => t.flt.activeW = !s.flt.activeW ∧ t.flt.standbyOk = false ∧ t.auth.sessions = [] ∧ t.auth.challenges = []
      ∧ t.dev.intStatus.getLsbD 5 = true ∧ t.bricks = s.bricks ∧ t.pdies = s.pdies ∧ t.sdies = s.sdies ∧ t.ldies = s.ldies ∧ t.time = s.time
    (∀ e : DetectedError, let k := e.kind.val
      let d := e.detector.val
      let key := unitKey k e.unit
      let recent := (unitAt s key).transients.filter (fun t => decide (nowNs s < t + 1000000000))
      (d = 0 ∨ inService s k e.unit = false ∨ k = 6 ∧ (d ≠ 10 ∨ e.retryOk = true) → exec (.errorDetect e) s = .next s)
      ∧ (d ≠ 0 → inService s k e.unit = true → k ≠ 6 → e.retryOk = true →
          escalates k d = false ∨ recent.length < 15 → ∃ t, exec (.errorDetect e) s = .next t ∧ FaultNoted s t k 0 d 0 e.unit
            ∧ cnt t 0 = cnt s 0 + 1 ∧ (unitAt t key).transients = recent ++ [nowNs s] ∧ (unitAt t key).st = (unitAt s key).st ∧ t = { s with flt := t.flt })
      ∧ (d = 7 ∨ d = 8 → inService s k e.unit = true → k ≠ 6 → e.retryOk = false →
          ∃ t, exec (.errorDetect e) s = .next t ∧ retest t k e.unit ∧ cnt t 4 = cnt s 4 + 1)
      ∧ (∀ b, k = 0 → b < 288 → e.unit = brickUnit b → inService s 0 e.unit = true → d ≠ 0 → d ≠ 7 → d ≠ 8 →
          e.retryOk = false ∨ (escalates 0 d = true ∧ 15 ≤ recent.length) →
          ∃ t, exec (.errorDetect e) s = .next t ∧ (brickAt t b).c.phase = .retired ∧ (unitAt t key).st = .retired ∧ b ∈ t.flt.retiredBricks
            ∧ cnt t 1 = cnt s 1 + 1 ∧ t.dev.intStatus.getLsbD 4 = true)
      ∧ (∀ p, k = 3 → p < 4 → e.unit = dieUnit 1 p → inService s 3 e.unit = true → (pdieAt s p).lost = false → d ≠ 0 → d ≠ 7 → d ≠ 8 → e.retryOk = false →
          ∃ t, exec (.errorDetect e) s = .next t ∧ (pdieAt t p).lost = true ∧ (pdieAt t p).slots = [] ∧ (pdieAt t p).inflight = [] ∧ (pdieAt t p).hot = []
            ∧ (unitAt t key).st = .retired ∧ cnt t 1 = cnt s 1 + 1
            ∧ (∀ l, l < 4 → ∀ z ∈ (ldieAt s l).ledger, z.pdie.map (·.val) = some p → (∀ v ∈ (ldieAt s l).egress, v.lid ≠ z.lid) →
                ∃ v ∈ (ldieAt t l).egress, v.lid = z.lid ∧ v.final = true ∧ (v.source = 5 ∨ v.source = 7)))
      ∧ (∀ i, k = 10 → i < 4 → e.unit = dieUnit 4 i → inService s 10 e.unit = true → (sdieAt s i).lost = false → d ≠ 0 → d ≠ 7 → d ≠ 8 → e.retryOk = false →
          ∃ t, exec (.errorDetect e) s = .next t ∧ (sdieAt t i).lost = true ∧ (sdieAt t i).warm = [] ∧ (sdieAt t i).ctxs = []
            ∧ (unitAt t key).st = .retired ∧ (∀ g ∈ t.grants, grantAt i g = false)))
    ∧ (∀ brick : Brick, let b := brick.val
      let x := brickAt s b
      let u := brickUnit b
      let hung := fun (c : Nat) => (unitAt s (unitKey 0 (brickUnit c))).hangs.filter (fun t => decide (nowNs s < t + 1000000000))
      let fencedAs := fun (t : State) => (brickAt t b).c.phase = .fenced ∧ (brickAt t b).fl = {} ∧ (unitAt t (unitKey 0 u)).st = .covered
        ∧ (∀ q, ∀ w ∈ (pdieAt t q).slow, w.brick ≠ b)
        ∧ (∀ q, ∀ w ∈ (pdieAt s q).slow, w.brick = b → Timely s w.st → ∃ v ∈ (ldieAt t w.st.ldie.val).egress, v.lid = w.st.lid ∧ v.source = 5)
      (x.c.phase ≠ .halted ∨ x.c.haltReason = 0x0E → exec (.haltReport brick) s = .next s)
      ∧ (x.c.phase = .halted → x.c.haltReason ≠ 0x0A → x.c.haltReason ≠ 0x0C → x.c.haltReason ≠ 0x0E →
        ∃ t, exec (.haltReport brick) s = .next t ∧ fencedAs t ∧ FaultNoted s t 0 2 0 8 u ∧ cnt t 2 = cnt s 2 + 1
          ∧ (∀ p, p ∈ chargedParts x → let f := (partAt s p).fault
              let ts := f.haltTimes.filter (fun t => decide (nowNs s < t + 1000000000)) ++ [nowNs s]
              (partAt t p).fault = { f with
                programHalts := if f.programHalts = 255 then 255 else f.programHalts + 1, lastHalt := x.c.haltReason, haltTimes := ts
                targetLost := f.targetLost || decide (3 ≤ ts.length) })
          ∧ (∀ p, p ∉ chargedParts x → (partAt t p).fault = (partAt s p).fault))
      ∧ (x.c.phase = .halted → x.c.haltReason = 0x0C → x.c.haltPoison = true →
        ∃ t, exec (.haltReport brick) s = .next t ∧ fencedAs t ∧ FaultNoted s t 0 3 5 8 u ∧ cnt t 3 = cnt s 3 + 1
          ∧ (∀ p, (partAt t p).fault = (partAt s p).fault))
      ∧ (x.c.phase = .halted → x.c.haltReason = 0x0C → x.c.haltPoison = false →
        ∃ t, exec (.haltReport brick) s = .next t ∧ (brickAt t b).c.phase = .retired ∧ (unitAt t (unitKey 0 u)).st = .retired ∧ cnt t 1 = cnt s 1 + 1)
      ∧ (x.c.phase = .halted → x.c.haltReason = 0x0A → hung b = [] →
        ∃ t, exec (.haltReport brick) s = .next t ∧ fencedAs t ∧ FaultNoted s t 0 0 6 8 u ∧ cnt t 0 = cnt s 0 + 1
          ∧ (unitAt t (unitKey 0 u)).hangs = [nowNs s] ∧ (∀ p, (partAt t p).fault = (partAt s p).fault))
      ∧ (x.c.phase = .halted → x.c.haltReason = 0x0A → hung b ≠ [] → otherHung s b = false →
        ∃ t, exec (.haltReport brick) s = .next t ∧ (brickAt t b).c.phase = .retired ∧ (unitAt t (unitKey 0 u)).st = .retired ∧ cnt t 1 = cnt s 1 + 1))
    ∧ (∀ id, ((∀ l ∈ s.flt.leases, l.id ≠ id) → exec (.leaseExpire id) s = .next s)
      ∧ (∀ l, s.flt.leases.find? (fun l => l.id == id) = some l →
        (nowNs s < l.until_ → exec (.leaseExpire id) s = .next s)
        ∧ (l.until_ ≤ nowNs s → ∃ t, exec (.leaseExpire id) s = .next t ∧ (∀ z ∈ t.flt.leases, z.id ≠ id) ∧ cnt t 5 = cnt s 5 + 1
          ∧ (l.kind.val = 6 → s.flt.standbyOk = true → takes t)
          ∧ (l.kind.val ≠ 6 → inService s (l.holder / 2 ^ 32) (BitVec.ofNat 32 l.holder) = true → retest t (l.holder / 2 ^ 32) (BitVec.ofNat 32 l.holder))
          ∧ (l.kind.val = 1 → inService s (l.holder / 2 ^ 32) (BitVec.ofNat 32 l.holder) = false →
              ∀ q, (l.pallet, q) ∈ (pdieAt t l.pdie.val).inflight → q.failed = true))))
    ∧ (∀ n, n < 4 →
      (inService s 3 (dieUnit 1 n) = true → ∃ t, exec (.heartbeatExpire (dieUnit 1 n).toNat) s = .next t ∧ retest t 3 (dieUnit 1 n)
        ∧ (pdieAt t n).lost = true ∧ cnt t 5 = cnt s 5 + 1)
      ∧ (inService s 10 (dieUnit 4 n) = true → ∃ t, exec (.heartbeatExpire (dieUnit 4 n).toNat) s = .next t ∧ retest t 10 (dieUnit 4 n) ∧ (sdieAt t n).lost = true)
      ∧ ((ldieAt s n).lost = false → ∃ t, exec (.heartbeatExpire (dieUnit 3 n).toNat) s = .next t ∧ (ldieAt t n).lost = true ∧ (ldieAt t n).ledger = []
          ∧ (ldieAt t n).elastic = [] ∧ (∀ p, p < 16 → (portAt t (16 * n + p)).st = 0) ∧ (unitAt t (unitKey 13 (dieUnit 3 n))).st = .retired))
    ∧ (∀ c, c < 18 → inService s 2 (dieUnit 0 c) = true → ∃ t, exec (.heartbeatExpire (dieUnit 0 c).toNat) s = .next t ∧ retest t 2 (dieUnit 0 c)
        ∧ (∀ k, k < 16 → (brickAt t (c * 16 + k)).c.phase = .fenced ∨ (brickAt t (c * 16 + k)).c.phase = .off ∨ (brickAt t (c * 16 + k)).c.phase = .retired))
    ∧ (s.flt.standbyOk = true → (∃ t, exec (.heartbeatExpire (dieUnit 5 (b2n s.flt.activeW)).toNat) s = .next t ∧ takes t)
        ∧ (∃ t, exec .wardenTakeover s = .next t ∧ takes t ∧ FaultNoted s t 12 1 8 2 (dieUnit 5 (b2n s.flt.activeW))))
    ∧ (s.flt.standbyOk = false → exec .wardenTakeover s = .next s)
    ∧ (∀ unit pass, let kind := unit / 2 ^ 32
      let w : Word := BitVec.ofNat 32 unit
      let ts := (unitAt s unit).disagreements.filter (fun t => decide (nowNs s < t + 10000000000))
      (unit ∉ s.flt.retests → exec (.retestComplete unit pass) s = .next s)
      ∧ (unit ∈ s.flt.retests → pass = true → ts.length < 2 → ∃ t, exec (.retestComplete unit pass) s = .next t
          ∧ (unitAt t unit).st = .inService ∧ (unitAt t unit).disagreements = ts ++ [nowNs s] ∧ unit ∉ t.flt.retests ∧ FaultNoted s t kind 4 8 8 w
          ∧ (kind = 3 → (pdieAt t (unitCdie w % 4)).lost = false) ∧ (kind = 10 → (sdieAt t (unitCdie w % 4)).lost = false)
          ∧ (∀ b, b < 288 → unit = unitKey 0 (brickUnit b) → (brickAt s b).c.phase = .fenced →
              (brickAt t b).c.phase = .reset ∧ (brickAt t b).c.resetDone = nowNs s + 2000 ∧ (brickAt t b).m.dmem = []))
      ∧ (unit ∈ s.flt.retests → pass = false ∨ 2 ≤ ts.length → ∃ t, exec (.retestComplete unit pass) s = .next t ∧ unit ∉ t.flt.retests
          ∧ (∀ p, p < 4 → unit = unitKey 3 (dieUnit 1 p) → (unitAt t unit).st = .retired)
          ∧ (∀ b, b < 288 → unit = unitKey 0 (brickUnit b) → (brickAt t b).c.phase = .retired ∧ (unitAt t unit).st = .retired)))

/-- R203, R291, R425, R431, R460, R462, R464 to R468: the repairs that complete. Model's choices it rests on: log 4, 10, 41, 48. -/
def Obligations.Repairs : Prop :=
  ∀ (s : State),
    (∀ part ok, let p := part.val
      (p ∉ s.flt.replacing → exec (.replacementComplete part ok) s = .next s)
      ∧ (p ∈ s.flt.replacing → ∃ t, exec (.replacementComplete part ok) s = .next t ∧ p ∉ t.flt.replacing
        ∧ ((coverage t p).1 = true → (partAt t p).fault.targetLost = true ∧ (partAt t p).fault.targetUnavail = false)
        ∧ (ok = true → ∃ unit, FaultNoted s t 0 1 0 6 unit) ∧ (ok = false → t.flt.records = s.flt.records ∧ t.flt.subst = s.flt.subst ∧ t.bricks = s.bricks)))
    ∧ (∀ (course : Course), (physCdie s course.val = none → exec (.retranslationComplete course) s = .next s)
      ∧ (∀ c, physCdie s course.val = some c →
        ((∀ k, k < 16 → (brickAt s (c * 16 + k)).arr.state.val ≠ 1) → exec (.retranslationComplete course) s = .next s)
        ∧ ((∃ k, k < 16 ∧ (brickAt s (c * 16 + k)).arr.state.val = 1) → ∃ t, exec (.retranslationComplete course) s = .next t
          ∧ (∀ k, k < 16 → (brickAt s (c * 16 + k)).arr.state.val = 1 → let x := brickAt t (c * 16 + k)
              x.arr = { (brickAt s (c * 16 + k)).arr with state := 0 } ∧ x.c.phase = .reset ∧ x.c.resetDone = nowNs s + 2000
              ∧ x.c.capHash = capHashOf s (brickAt s (c * 16 + k)) ∧ x.m = { (brickAt s (c * 16 + k)).m with dmem := [] })
          ∧ (∀ b, b / 16 ≠ c → brickAt t b = brickAt s b) ∧ t.dev.capsGen = s.dev.capsGen + 1)))
    ∧ (∀ (cdie : Cdie) ok, (s.flt.rehoming.find? (fun q => q.1 == cdie) = none → exec (.rehomeComplete cdie ok) s = .next s)
      ∧ (∀ course, s.flt.rehoming.find? (fun q => q.1 == cdie) = some (cdie, course) →
        (ok = true → ∃ t, exec (.rehomeComplete cdie ok) s = .next t ∧ mapFind course.val t.flt.courses = some (some cdie)
          ∧ (∀ k, k < 16 → (brickAt t (cdie.val * 16 + k)).c.phase = .idle)
          ∧ (∀ q ∈ t.flt.rehoming, q.1 ≠ cdie) ∧ t.flt.repairGen = s.flt.repairGen + 1 ∧ FaultNoted s t 2 1 0 5 (dieUnit 0 cdie.val))
        ∧ (ok = false → ∃ t, exec (.rehomeComplete cdie ok) s = .next t ∧ cdie.val ∈ t.flt.retiredCdies
          ∧ (∀ k, k < 16 → (brickAt t (cdie.val * 16 + k)).c.phase = .retired) ∧ (unitAt t (unitKey 2 (dieUnit 0 cdie.val))).st = .retired
          ∧ mapGet 0 t.flt.cnt 1 = mapGet 0 s.flt.cnt 1 + 1 ∧ FaultNoted s t 2 1 11 7 (dieUnit 0 cdie.val))))
    ∧ (∀ p : Die, ((pdieAt s p.val).macroPending = 0 → exec (.macroSpareReady p) s = .next s)
      ∧ ((pdieAt s p.val).macroPending ≠ 0 → ∃ t, exec (.macroSpareReady p) s = .next t
        ∧ pdieAt t p.val = { pdieAt s p.val with macroPending := (pdieAt s p.val).macroPending - 1 } ∧ (∀ q, q ≠ p.val → pdieAt t q = pdieAt s q)
        ∧ t.flt.repairGen = s.flt.repairGen + 1 ∧ FaultNoted s t 4 1 0 4 (dieUnit 1 p.val) ∧ t = { s with pdies := t.pdies, flt := t.flt }))
    ∧ (∀ f : FDie, let p := f.val / 2
      let bad := fun (k : Nat) => mapFind (f.val % 2 * 48 + k) (pdieAt s p).badBanks ≠ none
      ((∀ k, k < 48 → ¬ bad k) → exec (.bankSpareReady f) s = .next s)
      ∧ (∀ k, k < 48 → bad k → (∀ j, j < k → ¬ bad j) → let u : Word := BitVec.ofNat 32 (2 * 2 ^ 24 + f.val * 2 ^ 16 + k)
        (2 ≤ mapGet 0 (pdieAt s p).bankSpares f.val → ∃ t, exec (.bankSpareReady f) s = .next t ∧ (unitAt t (unitKey 5 u)).st = .retired
          ∧ t = { s with flt := { s.flt with units := t.flt.units } })
        ∧ (mapGet 0 (pdieAt s p).bankSpares f.val < 2 → ∃ t, exec (.bankSpareReady f) s = .next t ∧ (unitAt t (unitKey 5 u)).st = .inService
          ∧ mapFind (f.val % 2 * 48 + k) (pdieAt t p).badBanks = none ∧ mapGet 0 (pdieAt t p).bankSpares f.val = mapGet 0 (pdieAt s p).bankSpares f.val + 1
          ∧ t.flt.repairGen = s.flt.repairGen + 1 ∧ FaultNoted s t 5 1 0 4 u ∧ (∀ q, q ≠ p → pdieAt t q = pdieAt s q) ∧ t = { s with pdies := t.pdies, flt := t.flt })))
    ∧ (∀ (i : Die) addr, ∃ t, exec (.rowSpared i addr) s = .next t ∧ FaultNoted s t 8 1 1 4 (dieUnit 6 i.val)
      ∧ (unitAt t (unitKey 8 (dieUnit 6 i.val))).st = .inService ∧ t.flt.repairGen = s.flt.repairGen + 1 ∧ t = { s with flt := t.flt })
    ∧ (∀ link, let u : Word := BitVec.ofNat 32 link
      ∃ t, exec (.mortarLaneRepair link) s = .next t ∧ FaultNoted s t 7 1 10 4 u ∧ (unitAt t (unitKey 7 u)).st = .inService
        ∧ mapGet 0 t.flt.cnt 1 = mapGet 0 s.flt.cnt 1 + 1 ∧ t = { s with flt := t.flt, dev := { s.dev with intStatus := s.dev.intStatus ||| 16 } })
    ∧ (∀ (part : Part) (ring : Fin 8), let p := part.val
      (6 ≤ ring.val → exec (.ringWriteFail part ring) s = .next s)
      ∧ (ring.val < 6 → ∃ t, exec (.ringWriteFail part ring) s = .next t ∧ ringAt (partAt t p) ring.val = { ringAt (partAt s p) ring.val with enable := false }
        ∧ (∀ k, k ≠ ring.val → ringAt (partAt t p) k = ringAt (partAt s p) k) ∧ partAt t p = { partAt s p with rings := (partAt t p).rings }
        ∧ (∀ q, q ≠ p → partAt t q = partAt s q) ∧ t = { s with parts := t.parts, dev := { s.dev with aerErrors := s.dev.aerErrors + 1 } }))

/-- A step takes the command at the front of the queue and is that command's meaning on the state with the queue's rest. With no command waiting
one nanosecond passes: the device time moves on by one, the queue and the outputs stay (the model's own tick, log 1). -/
def Obligations.StepRunsFront : Prop :=
  (∀ (c : Instr) (rest : List Instr) (s : State), s.pending = c :: rest → step s = exec c { s with pending := rest })
  ∧ (∀ s : State, s.pending = [] → ∃ t, step s = .next t ∧ t.time.now = s.time.now + 1 ∧ t.pending = [] ∧ t.out = s.out ∧ t.dev = s.dev
      ∧ t.auth = s.auth ∧ t.flt = s.flt ∧ t.parts = s.parts ∧ t.models = s.models ∧ t.pdies = s.pdies ∧ t.ldies = s.ldies ∧ t.sdies = s.sdies
      ∧ (t.time.wall = s.time.wall ∨ t.time.wall = s.time.wall + 1 ∨ t.time.wall = s.time.wall + 2))

/-- What reset leaves: the queue empty, every memory in its canonical form, no brick in service, and the values that the register tables give (R9). Model's choices it rests on: log 2, 5, 13. -/
def Obligations.ResetState : Prop :=
  let s := State.reset
  Wf s ∧ s.pending = [] ∧ s.power.ready = false ∧ s.st.epoch = 0 ∧ s.time.wall = 0 ∧ s.dev.intStatus = 0
  ∧ (∀ b, (brickAt s b).c.phase = .off ∧ (brickAt s b).m = {} ∧ (∀ k, getS (brickAt s b) k = 0) ∧ (brickAt s b).r.flags = 0 ∧ (brickAt s b).r.ie = false
      ∧ (brickAt s b).c.haltSlot = 6)
  ∧ (∀ (part : Part) r, let p := part.val; r < 6 → winReg s p (0x110 + 0x40 * r) = some ⟨4, 0x00000A08⟩ ∧ winReg s p (0x118 + 0x40 * r) = some ⟨4, 0⟩
      ∧ winReg s p (0x128 + 0x40 * r) = some ⟨4, 0x014 * 2 ^ 16 + (if r = 5 then 1 else 0x40)⟩)
  ∧ (∀ part : Part, let p := part.val; winReg s p 0x3000 = some ⟨4, 0⟩ ∧ winReg s p 0 = some ⟨4, p * 2 ^ 16⟩
      ∧ prtReg s p 0x240 = some ⟨4, 0x101⟩ ∧ prtReg s p 0x1C8 = some ⟨4, 0x7F800000⟩)
  ∧ wdnReg s 0x300 = some ⟨4, 0⟩ ∧ wdnReg s 0x148 = some ⟨4, 0⟩ ∧ wdnReg s 0x11C = some ⟨4, 0⟩ ∧ devReg s 0x3C = some ⟨4, 3⟩

/-- The invariant of the block: from every well-kept state (byte memories canonical, s0 and flag 0 of every brick at 0) a step leads to one; what the
maker fused stays, time and the count of free values never go back, and the queue gives up its front and nothing else (R3, R207, R214, R515). Model's choices it rests on: log 3, 13. -/
def Obligations.StepInvariant : Prop :=
  ∀ s t : State, Wf s → step s = .next t →
    Wf t ∧ fusedOf t.dev = fusedOf s.dev ∧ s.time.now ≤ t.time.now ∧ s.freeIx ≤ t.freeIx ∧ t.pending = s.pending.tail
end

