-- ==== Sys2Proof/Laws/Maps.lean ====
section
/-!
SUPPORT. Sparse tables and byte memories: a read after a write, what a write leaves alone, and that every memory operation keeps the
canonical form.
-/

namespace Sys2Proof.Machine

open Sys2Proof

/-! ### Tables -/

variable {α : Type}

@[simp] theorem mapFind_nil (k : Nat) : mapFind k ([] : Map α) = none := rfl

/-- What a table finds after a key is set. -/
theorem mapFind_mapSet (k j : Nat) (v : α) (m : Map α) : mapFind j (mapSet k v m) = if j = k then some v else mapFind j m := by
  induction m with
  | nil =>
    by_cases h : j = k
    · simp [mapSet, mapFind, h]
    · simp [mapSet, mapFind, h, Ne.symm h]
  | cons p t ih =>
    obtain ⟨i, w⟩ := p
    simp only [mapSet]
    split
    · subst i
      by_cases h : j = k
      · simp [mapFind, h]
      · simp [mapFind, h, Ne.symm h]
    · split
      · by_cases h : j = k
        · simp [mapFind, h]
        · simp [mapFind, h, Ne.symm h]
      · simp only [mapFind, ih]
        split
        · subst i
          rename_i h _
          simp [h]
        · rfl

theorem mapGet_mapSet (d v : α) (k j : Nat) (m : Map α) : mapGet d (mapSet k v m) j = if j = k then v else mapGet d m j := by
  simp only [mapGet, mapFind_mapSet]
  split <;> rfl

/-- What a table finds after a key is deleted. -/
theorem mapFind_mapDel (k j : Nat) (m : Map α) : mapFind j (mapDel k m) = if j = k then none else mapFind j m := by
  induction m with
  | nil => simp [mapDel, mapFind]
  | cons p t ih =>
    obtain ⟨i, w⟩ := p
    by_cases hi : i = k
    · subst hi
      simp only [mapDel, List.filter_cons, bne_self_eq_false, Bool.false_eq_true, ite_false] at ih ⊢
      by_cases h : j = i
      · simpa [h] using ih
      · simpa [h, mapFind, Ne.symm h] using ih
    · simp only [mapDel, List.filter_cons, bne_iff_ne, ne_eq, hi, not_false_eq_true, ite_true] at ih ⊢
      simp only [mapFind, ih]
      split
      · subst i
        simp [hi]
      · rfl

theorem mapGet_mapDel (d : α) (k j : Nat) (m : Map α) : mapGet d (mapDel k m) j = if j = k then d else mapGet d m j := by
  simp only [mapGet, mapFind_mapDel]
  split <;> rfl

/-- An entry of a table with a key set is the new one or an old one. -/
theorem mem_mapSet {k : Nat} {v : α} {m : Map α} {p : Nat × α} (h : p ∈ mapSet k v m) : p = (k, v) ∨ p ∈ m := by
  induction m with
  | nil => simpa [mapSet] using h
  | cons q t ih =>
    simp only [mapSet] at h
    split at h
    · rcases List.mem_cons.1 h with h | h
      · exact .inl h
      · exact .inr (List.mem_cons_of_mem _ h)
    · split at h
      · rcases List.mem_cons.1 h with h | h
        · exact .inl h
        · exact .inr h
      · rcases List.mem_cons.1 h with h | h
        · exact .inr (h ▸ List.mem_cons_self)
        · exact (ih h).imp id (List.mem_cons_of_mem _)

/-- What a table finds is an entry of it. -/
theorem mem_of_mapFind {k : Nat} {v : α} {m : Map α} (h : mapFind k m = some v) : (k, v) ∈ m := by
  induction m with
  | nil => simp at h
  | cons q t ih =>
    obtain ⟨i, w⟩ := q
    simp only [mapFind] at h
    split at h
    · rename_i hi
      simp only [Option.some.injEq] at h
      subst hi h
      exact List.mem_cons_self
    · exact List.mem_cons_of_mem _ (ih h)

/-- A property of every value and of the default holds of what is read. -/
theorem mapGet_prop {P : α → Prop} {d : α} {m : Map α} (hd : P d) (h : ∀ p ∈ m, P p.2) (k : Nat) : P (mapGet d m k) := by
  unfold mapGet
  cases hf : mapFind k m with
  | none => exact hd
  | some v => exact h _ (mem_of_mapFind hf)

/-- A property of every value survives setting a key to a value that has it. -/
theorem mapSet_prop {P : α → Prop} {m : Map α} {k : Nat} {v : α} (hv : P v) (h : ∀ p ∈ m, P p.2) : ∀ p ∈ mapSet k v m, P p.2 := by
  intro p hp
  rcases mem_mapSet hp with rfl | hp
  · exact hv
  · exact h p hp

/-- A property of every value survives a change that keeps it. -/
theorem mapAll_prop {P : α → Prop} {f : α → α} {m : Map α} (hf : ∀ x, P x → P (f x)) (h : ∀ p ∈ m, P p.2) :
    ∀ p ∈ mapAll f m, P p.2 := by
  intro p hp
  obtain ⟨q, hq, rfl⟩ := List.mem_map.1 hp
  exact hf _ (h q hq)

/-! ### Rising keys -/

/-- The keys of a table rise strictly. -/
abbrev Rising (m : Map α) : Prop := m.Pairwise (fun a b => a.1 < b.1)

/-- Setting a key keeps the keys rising. -/
theorem rising_mapSet {m : Map α} (k : Nat) (v : α) (h : Rising m) : Rising (mapSet k v m) := by
  induction m with
  | nil => exact List.pairwise_singleton _ _
  | cons q t ih =>
    obtain ⟨i, w⟩ := q
    obtain ⟨h1, h2⟩ := List.pairwise_cons.1 h
    simp only [mapSet]
    split
    · subst i
      exact List.pairwise_cons.2 ⟨h1, h2⟩
    · split
      · rename_i hk
        refine List.pairwise_cons.2 ⟨fun p hp => ?_, h⟩
        rcases List.mem_cons.1 hp with rfl | hp
        · exact hk
        · exact Nat.lt_trans hk (h1 p hp)
      · refine List.pairwise_cons.2 ⟨fun p hp => ?_, ih h2⟩
        rcases mem_mapSet hp with rfl | hp
        · simp only
          omega
        · exact h1 p hp

/-- Deleting a key keeps the keys rising. -/
theorem rising_mapDel {m : Map α} (k : Nat) (h : Rising m) : Rising (mapDel k m) := h.filter _

/-! ### Byte memories -/

/-- A byte written is read back; every other byte reads as before. -/
theorem memByte_memPut (a b : Nat) (v : Byte) (m : List Host.Cell) : memByte (memPut a v m) b = if b = a then v else memByte m b := by
  unfold memByte memPut
  split
  · rename_i hv
    rw [mapGet_mapDel, hv]
  · rw [mapGet_mapSet]

/-- Bytes written are read back in their places; every other byte reads as before. -/
theorem memByte_memPutBytes (bs : List Byte) (a b : Nat) (m : List Host.Cell) :
    memByte (memPutBytes a bs m) b = if a ≤ b ∧ b < a + bs.length then bs.getD (b - a) 0 else memByte m b := by
  induction bs generalizing a m with
  | nil => simp [memPutBytes]
  | cons x t ih =>
    simp only [memPutBytes, ih, memByte_memPut, List.length_cons]
    by_cases h1 : a + 1 ≤ b ∧ b < a + 1 + t.length
    · have : b - a = (b - (a + 1)) + 1 := by omega
      rw [if_pos h1, if_pos (by omega), this, List.getD_cons_succ]
    · rw [if_neg h1]
      by_cases h2 : b = a
      · subst h2
        rw [if_pos rfl, if_pos (by omega)]
        simp
      · rw [if_neg h2, if_neg (by omega)]

theorem memWf_nil : memWf [] := ⟨List.Pairwise.nil, fun _ h => nomatch h⟩

theorem memWf_memPut {m : List Host.Cell} (a : Nat) (v : Byte) (h : memWf m) : memWf (memPut a v m) := by
  unfold memPut
  split
  · exact ⟨rising_mapDel a h.1, fun p hp => h.2 p (List.mem_of_mem_filter hp)⟩
  · rename_i hv
    exact ⟨rising_mapSet a v h.1, mapSet_prop (P := fun x : Byte => x ≠ 0) hv h.2⟩

/-- Writing bytes keeps the canonical form. -/
theorem memWf_memPutBytes {m : List Host.Cell} (a : Nat) (bs : List Byte) (h : memWf m) : memWf (memPutBytes a bs m) := by
  induction bs generalizing a m with
  | nil => exact h
  | cons x t ih => exact ih (a + 1) (memWf_memPut a x h)

/-- Dropping entries keeps the canonical form: a range zeroed, pages zeroed. -/
theorem memWf_filter {m : List Host.Cell} (f : Host.Cell → Bool) (h : memWf m) : memWf (m.filter f) :=
  ⟨h.1.filter f, fun p hp => h.2 p (List.mem_of_mem_filter hp)⟩

theorem memWf_memZero {m : List Host.Cell} (a n : Nat) (h : memWf m) : memWf (memZero a n m) := memWf_filter _ h

/-- In canonical form two memories that read alike are one list. -/
theorem memWf_mem_iff {m : List Host.Cell} (h : memWf m) (p : Host.Cell) : p ∈ m ↔ memByte m p.1 = p.2 ∧ p.2 ≠ 0 := by
  constructor
  · intro hp
    refine ⟨?_, h.2 p hp⟩
    obtain ⟨hr, hnz⟩ := h
    unfold memByte mapGet
    suffices mapFind p.1 m = some p.2 by rw [this]; rfl
    induction m with
    | nil => cases hp
    | cons q t ih =>
      obtain ⟨h1, h2⟩ := List.pairwise_cons.1 hr
      obtain ⟨i, w⟩ := q
      rcases List.mem_cons.1 hp with rfl | hp
      · simp [mapFind]
      · have := h1 p hp
        simp only [mapFind]
        rw [if_neg (by simp only at this; omega)]
        exact ih hp h2 (fun r hr => hnz r (List.mem_cons_of_mem _ hr))
  · rintro ⟨h1, h2⟩
    unfold memByte mapGet at h1
    cases hf : mapFind p.1 m with
    | none => rw [hf] at h1; exact absurd h1.symm h2
    | some v =>
      rw [hf] at h1
      simp only [Option.getD_some] at h1
      subst h1
      exact mem_of_mapFind hf

end Sys2Proof.Machine
end

