-- ==== Sys2Proof/Laws/State.lean ====
section
/-!
SUPPORT. What each update of one unit leaves: one lemma per field of the state, and what the unit reads afterwards.
-/

namespace Sys2Proof.Machine

open Sys2Proof

/-! ### BrickSt -/

@[simp] theorem putBrick_pdies (b : Nat) (x : BrickSt) (s : State) : (putBrick b x s).pdies = s.pdies := rfl
@[simp] theorem putBrick_ldies (b : Nat) (x : BrickSt) (s : State) : (putBrick b x s).ldies = s.ldies := rfl
@[simp] theorem putBrick_sdies (b : Nat) (x : BrickSt) (s : State) : (putBrick b x s).sdies = s.sdies := rfl
@[simp] theorem putBrick_grants (b : Nat) (x : BrickSt) (s : State) : (putBrick b x s).grants = s.grants := rfl
@[simp] theorem putBrick_parts (b : Nat) (x : BrickSt) (s : State) : (putBrick b x s).parts = s.parts := rfl
@[simp] theorem putBrick_models (b : Nat) (x : BrickSt) (s : State) : (putBrick b x s).models = s.models := rfl
@[simp] theorem putBrick_link (b : Nat) (x : BrickSt) (s : State) : (putBrick b x s).link = s.link := rfl
@[simp] theorem putBrick_st (b : Nat) (x : BrickSt) (s : State) : (putBrick b x s).st = s.st := rfl
@[simp] theorem putBrick_loops (b : Nat) (x : BrickSt) (s : State) : (putBrick b x s).loops = s.loops := rfl
@[simp] theorem putBrick_power (b : Nat) (x : BrickSt) (s : State) : (putBrick b x s).power = s.power := rfl
@[simp] theorem putBrick_auth (b : Nat) (x : BrickSt) (s : State) : (putBrick b x s).auth = s.auth := rfl
@[simp] theorem putBrick_time (b : Nat) (x : BrickSt) (s : State) : (putBrick b x s).time = s.time := rfl
@[simp] theorem putBrick_obs (b : Nat) (x : BrickSt) (s : State) : (putBrick b x s).obs = s.obs := rfl
@[simp] theorem putBrick_flt (b : Nat) (x : BrickSt) (s : State) : (putBrick b x s).flt = s.flt := rfl
@[simp] theorem putBrick_dev (b : Nat) (x : BrickSt) (s : State) : (putBrick b x s).dev = s.dev := rfl
@[simp] theorem putBrick_out (b : Nat) (x : BrickSt) (s : State) : (putBrick b x s).out = s.out := rfl
@[simp] theorem putBrick_freeIx (b : Nat) (x : BrickSt) (s : State) : (putBrick b x s).freeIx = s.freeIx := rfl
@[simp] theorem putBrick_pending (b : Nat) (x : BrickSt) (s : State) : (putBrick b x s).pending = s.pending := rfl
@[simp] theorem modBrick_pdies (b : Nat) (g : BrickSt → BrickSt) (s : State) : (modBrick b g s).pdies = s.pdies := rfl
@[simp] theorem modBrick_ldies (b : Nat) (g : BrickSt → BrickSt) (s : State) : (modBrick b g s).ldies = s.ldies := rfl
@[simp] theorem modBrick_sdies (b : Nat) (g : BrickSt → BrickSt) (s : State) : (modBrick b g s).sdies = s.sdies := rfl
@[simp] theorem modBrick_grants (b : Nat) (g : BrickSt → BrickSt) (s : State) : (modBrick b g s).grants = s.grants := rfl
@[simp] theorem modBrick_parts (b : Nat) (g : BrickSt → BrickSt) (s : State) : (modBrick b g s).parts = s.parts := rfl
@[simp] theorem modBrick_models (b : Nat) (g : BrickSt → BrickSt) (s : State) : (modBrick b g s).models = s.models := rfl
@[simp] theorem modBrick_link (b : Nat) (g : BrickSt → BrickSt) (s : State) : (modBrick b g s).link = s.link := rfl
@[simp] theorem modBrick_st (b : Nat) (g : BrickSt → BrickSt) (s : State) : (modBrick b g s).st = s.st := rfl
@[simp] theorem modBrick_loops (b : Nat) (g : BrickSt → BrickSt) (s : State) : (modBrick b g s).loops = s.loops := rfl
@[simp] theorem modBrick_power (b : Nat) (g : BrickSt → BrickSt) (s : State) : (modBrick b g s).power = s.power := rfl
@[simp] theorem modBrick_auth (b : Nat) (g : BrickSt → BrickSt) (s : State) : (modBrick b g s).auth = s.auth := rfl
@[simp] theorem modBrick_time (b : Nat) (g : BrickSt → BrickSt) (s : State) : (modBrick b g s).time = s.time := rfl
@[simp] theorem modBrick_obs (b : Nat) (g : BrickSt → BrickSt) (s : State) : (modBrick b g s).obs = s.obs := rfl
@[simp] theorem modBrick_flt (b : Nat) (g : BrickSt → BrickSt) (s : State) : (modBrick b g s).flt = s.flt := rfl
@[simp] theorem modBrick_dev (b : Nat) (g : BrickSt → BrickSt) (s : State) : (modBrick b g s).dev = s.dev := rfl
@[simp] theorem modBrick_out (b : Nat) (g : BrickSt → BrickSt) (s : State) : (modBrick b g s).out = s.out := rfl
@[simp] theorem modBrick_freeIx (b : Nat) (g : BrickSt → BrickSt) (s : State) : (modBrick b g s).freeIx = s.freeIx := rfl
@[simp] theorem modBrick_pending (b : Nat) (g : BrickSt → BrickSt) (s : State) : (modBrick b g s).pending = s.pending := rfl

/-- A unit put back reads as it was put; every other unit reads as before. -/
theorem brickAt_putBrick (b k : Nat) (x : BrickSt) (s : State) : brickAt (putBrick b x s) k = if k = b then x else brickAt s k := by
  simp only [brickAt, putBrick, mapGet_mapSet]

@[simp] theorem brickAt_putBrick_same (b : Nat) (x : BrickSt) (s : State) : brickAt (putBrick b x s) b = x := by
  simp [brickAt_putBrick]

theorem brickAt_putBrick_other {b k : Nat} (h : k ≠ b) (x : BrickSt) (s : State) : brickAt (putBrick b x s) k = brickAt s k := by
  simp [brickAt_putBrick, h]

/-- A changed unit reads as the change says; every other unit reads as before. -/
theorem brickAt_modBrick (b k : Nat) (g : BrickSt → BrickSt) (s : State) :
    brickAt (modBrick b g s) k = if k = b then g (brickAt s b) else brickAt s k := by
  simp only [modBrick, brickAt_putBrick]

@[simp] theorem brickAt_modBrick_same (b : Nat) (g : BrickSt → BrickSt) (s : State) : brickAt (modBrick b g s) b = g (brickAt s b) := by
  simp [brickAt_modBrick]

/-! ### PDie -/

@[simp] theorem putPdie_bricks (p : Nat) (x : PDie) (s : State) : (putPdie p x s).bricks = s.bricks := rfl
@[simp] theorem putPdie_ldies (p : Nat) (x : PDie) (s : State) : (putPdie p x s).ldies = s.ldies := rfl
@[simp] theorem putPdie_sdies (p : Nat) (x : PDie) (s : State) : (putPdie p x s).sdies = s.sdies := rfl
@[simp] theorem putPdie_grants (p : Nat) (x : PDie) (s : State) : (putPdie p x s).grants = s.grants := rfl
@[simp] theorem putPdie_parts (p : Nat) (x : PDie) (s : State) : (putPdie p x s).parts = s.parts := rfl
@[simp] theorem putPdie_models (p : Nat) (x : PDie) (s : State) : (putPdie p x s).models = s.models := rfl
@[simp] theorem putPdie_link (p : Nat) (x : PDie) (s : State) : (putPdie p x s).link = s.link := rfl
@[simp] theorem putPdie_st (p : Nat) (x : PDie) (s : State) : (putPdie p x s).st = s.st := rfl
@[simp] theorem putPdie_loops (p : Nat) (x : PDie) (s : State) : (putPdie p x s).loops = s.loops := rfl
@[simp] theorem putPdie_power (p : Nat) (x : PDie) (s : State) : (putPdie p x s).power = s.power := rfl
@[simp] theorem putPdie_auth (p : Nat) (x : PDie) (s : State) : (putPdie p x s).auth = s.auth := rfl
@[simp] theorem putPdie_time (p : Nat) (x : PDie) (s : State) : (putPdie p x s).time = s.time := rfl
@[simp] theorem putPdie_obs (p : Nat) (x : PDie) (s : State) : (putPdie p x s).obs = s.obs := rfl
@[simp] theorem putPdie_flt (p : Nat) (x : PDie) (s : State) : (putPdie p x s).flt = s.flt := rfl
@[simp] theorem putPdie_dev (p : Nat) (x : PDie) (s : State) : (putPdie p x s).dev = s.dev := rfl
@[simp] theorem putPdie_out (p : Nat) (x : PDie) (s : State) : (putPdie p x s).out = s.out := rfl
@[simp] theorem putPdie_freeIx (p : Nat) (x : PDie) (s : State) : (putPdie p x s).freeIx = s.freeIx := rfl
@[simp] theorem putPdie_pending (p : Nat) (x : PDie) (s : State) : (putPdie p x s).pending = s.pending := rfl
@[simp] theorem modPdie_bricks (p : Nat) (g : PDie → PDie) (s : State) : (modPdie p g s).bricks = s.bricks := rfl
@[simp] theorem modPdie_ldies (p : Nat) (g : PDie → PDie) (s : State) : (modPdie p g s).ldies = s.ldies := rfl
@[simp] theorem modPdie_sdies (p : Nat) (g : PDie → PDie) (s : State) : (modPdie p g s).sdies = s.sdies := rfl
@[simp] theorem modPdie_grants (p : Nat) (g : PDie → PDie) (s : State) : (modPdie p g s).grants = s.grants := rfl
@[simp] theorem modPdie_parts (p : Nat) (g : PDie → PDie) (s : State) : (modPdie p g s).parts = s.parts := rfl
@[simp] theorem modPdie_models (p : Nat) (g : PDie → PDie) (s : State) : (modPdie p g s).models = s.models := rfl
@[simp] theorem modPdie_link (p : Nat) (g : PDie → PDie) (s : State) : (modPdie p g s).link = s.link := rfl
@[simp] theorem modPdie_st (p : Nat) (g : PDie → PDie) (s : State) : (modPdie p g s).st = s.st := rfl
@[simp] theorem modPdie_loops (p : Nat) (g : PDie → PDie) (s : State) : (modPdie p g s).loops = s.loops := rfl
@[simp] theorem modPdie_power (p : Nat) (g : PDie → PDie) (s : State) : (modPdie p g s).power = s.power := rfl
@[simp] theorem modPdie_auth (p : Nat) (g : PDie → PDie) (s : State) : (modPdie p g s).auth = s.auth := rfl
@[simp] theorem modPdie_time (p : Nat) (g : PDie → PDie) (s : State) : (modPdie p g s).time = s.time := rfl
@[simp] theorem modPdie_obs (p : Nat) (g : PDie → PDie) (s : State) : (modPdie p g s).obs = s.obs := rfl
@[simp] theorem modPdie_flt (p : Nat) (g : PDie → PDie) (s : State) : (modPdie p g s).flt = s.flt := rfl
@[simp] theorem modPdie_dev (p : Nat) (g : PDie → PDie) (s : State) : (modPdie p g s).dev = s.dev := rfl
@[simp] theorem modPdie_out (p : Nat) (g : PDie → PDie) (s : State) : (modPdie p g s).out = s.out := rfl
@[simp] theorem modPdie_freeIx (p : Nat) (g : PDie → PDie) (s : State) : (modPdie p g s).freeIx = s.freeIx := rfl
@[simp] theorem modPdie_pending (p : Nat) (g : PDie → PDie) (s : State) : (modPdie p g s).pending = s.pending := rfl

/-- A unit put back reads as it was put; every other unit reads as before. -/
theorem pdieAt_putPdie (p k : Nat) (x : PDie) (s : State) : pdieAt (putPdie p x s) k = if k = p then x else pdieAt s k := by
  simp only [pdieAt, putPdie, mapGet_mapSet]

@[simp] theorem pdieAt_putPdie_same (p : Nat) (x : PDie) (s : State) : pdieAt (putPdie p x s) p = x := by
  simp [pdieAt_putPdie]

theorem pdieAt_putPdie_other {p k : Nat} (h : k ≠ p) (x : PDie) (s : State) : pdieAt (putPdie p x s) k = pdieAt s k := by
  simp [pdieAt_putPdie, h]

/-- A changed unit reads as the change says; every other unit reads as before. -/
theorem pdieAt_modPdie (p k : Nat) (g : PDie → PDie) (s : State) :
    pdieAt (modPdie p g s) k = if k = p then g (pdieAt s p) else pdieAt s k := by
  simp only [modPdie, pdieAt_putPdie]

@[simp] theorem pdieAt_modPdie_same (p : Nat) (g : PDie → PDie) (s : State) : pdieAt (modPdie p g s) p = g (pdieAt s p) := by
  simp [pdieAt_modPdie]

/-! ### LDieQ -/

@[simp] theorem putLdie_bricks (l : Nat) (x : LDieQ) (s : State) : (putLdie l x s).bricks = s.bricks := rfl
@[simp] theorem putLdie_pdies (l : Nat) (x : LDieQ) (s : State) : (putLdie l x s).pdies = s.pdies := rfl
@[simp] theorem putLdie_sdies (l : Nat) (x : LDieQ) (s : State) : (putLdie l x s).sdies = s.sdies := rfl
@[simp] theorem putLdie_grants (l : Nat) (x : LDieQ) (s : State) : (putLdie l x s).grants = s.grants := rfl
@[simp] theorem putLdie_parts (l : Nat) (x : LDieQ) (s : State) : (putLdie l x s).parts = s.parts := rfl
@[simp] theorem putLdie_models (l : Nat) (x : LDieQ) (s : State) : (putLdie l x s).models = s.models := rfl
@[simp] theorem putLdie_link (l : Nat) (x : LDieQ) (s : State) : (putLdie l x s).link = s.link := rfl
@[simp] theorem putLdie_st (l : Nat) (x : LDieQ) (s : State) : (putLdie l x s).st = s.st := rfl
@[simp] theorem putLdie_loops (l : Nat) (x : LDieQ) (s : State) : (putLdie l x s).loops = s.loops := rfl
@[simp] theorem putLdie_power (l : Nat) (x : LDieQ) (s : State) : (putLdie l x s).power = s.power := rfl
@[simp] theorem putLdie_auth (l : Nat) (x : LDieQ) (s : State) : (putLdie l x s).auth = s.auth := rfl
@[simp] theorem putLdie_time (l : Nat) (x : LDieQ) (s : State) : (putLdie l x s).time = s.time := rfl
@[simp] theorem putLdie_obs (l : Nat) (x : LDieQ) (s : State) : (putLdie l x s).obs = s.obs := rfl
@[simp] theorem putLdie_flt (l : Nat) (x : LDieQ) (s : State) : (putLdie l x s).flt = s.flt := rfl
@[simp] theorem putLdie_dev (l : Nat) (x : LDieQ) (s : State) : (putLdie l x s).dev = s.dev := rfl
@[simp] theorem putLdie_out (l : Nat) (x : LDieQ) (s : State) : (putLdie l x s).out = s.out := rfl
@[simp] theorem putLdie_freeIx (l : Nat) (x : LDieQ) (s : State) : (putLdie l x s).freeIx = s.freeIx := rfl
@[simp] theorem putLdie_pending (l : Nat) (x : LDieQ) (s : State) : (putLdie l x s).pending = s.pending := rfl
@[simp] theorem modLdie_bricks (l : Nat) (g : LDieQ → LDieQ) (s : State) : (modLdie l g s).bricks = s.bricks := rfl
@[simp] theorem modLdie_pdies (l : Nat) (g : LDieQ → LDieQ) (s : State) : (modLdie l g s).pdies = s.pdies := rfl
@[simp] theorem modLdie_sdies (l : Nat) (g : LDieQ → LDieQ) (s : State) : (modLdie l g s).sdies = s.sdies := rfl
@[simp] theorem modLdie_grants (l : Nat) (g : LDieQ → LDieQ) (s : State) : (modLdie l g s).grants = s.grants := rfl
@[simp] theorem modLdie_parts (l : Nat) (g : LDieQ → LDieQ) (s : State) : (modLdie l g s).parts = s.parts := rfl
@[simp] theorem modLdie_models (l : Nat) (g : LDieQ → LDieQ) (s : State) : (modLdie l g s).models = s.models := rfl
@[simp] theorem modLdie_link (l : Nat) (g : LDieQ → LDieQ) (s : State) : (modLdie l g s).link = s.link := rfl
@[simp] theorem modLdie_st (l : Nat) (g : LDieQ → LDieQ) (s : State) : (modLdie l g s).st = s.st := rfl
@[simp] theorem modLdie_loops (l : Nat) (g : LDieQ → LDieQ) (s : State) : (modLdie l g s).loops = s.loops := rfl
@[simp] theorem modLdie_power (l : Nat) (g : LDieQ → LDieQ) (s : State) : (modLdie l g s).power = s.power := rfl
@[simp] theorem modLdie_auth (l : Nat) (g : LDieQ → LDieQ) (s : State) : (modLdie l g s).auth = s.auth := rfl
@[simp] theorem modLdie_time (l : Nat) (g : LDieQ → LDieQ) (s : State) : (modLdie l g s).time = s.time := rfl
@[simp] theorem modLdie_obs (l : Nat) (g : LDieQ → LDieQ) (s : State) : (modLdie l g s).obs = s.obs := rfl
@[simp] theorem modLdie_flt (l : Nat) (g : LDieQ → LDieQ) (s : State) : (modLdie l g s).flt = s.flt := rfl
@[simp] theorem modLdie_dev (l : Nat) (g : LDieQ → LDieQ) (s : State) : (modLdie l g s).dev = s.dev := rfl
@[simp] theorem modLdie_out (l : Nat) (g : LDieQ → LDieQ) (s : State) : (modLdie l g s).out = s.out := rfl
@[simp] theorem modLdie_freeIx (l : Nat) (g : LDieQ → LDieQ) (s : State) : (modLdie l g s).freeIx = s.freeIx := rfl
@[simp] theorem modLdie_pending (l : Nat) (g : LDieQ → LDieQ) (s : State) : (modLdie l g s).pending = s.pending := rfl

/-- A unit put back reads as it was put; every other unit reads as before. -/
theorem ldieAt_putLdie (l k : Nat) (x : LDieQ) (s : State) : ldieAt (putLdie l x s) k = if k = l then x else ldieAt s k := by
  simp only [ldieAt, putLdie, mapGet_mapSet]

@[simp] theorem ldieAt_putLdie_same (l : Nat) (x : LDieQ) (s : State) : ldieAt (putLdie l x s) l = x := by
  simp [ldieAt_putLdie]

theorem ldieAt_putLdie_other {l k : Nat} (h : k ≠ l) (x : LDieQ) (s : State) : ldieAt (putLdie l x s) k = ldieAt s k := by
  simp [ldieAt_putLdie, h]

/-- A changed unit reads as the change says; every other unit reads as before. -/
theorem ldieAt_modLdie (l k : Nat) (g : LDieQ → LDieQ) (s : State) :
    ldieAt (modLdie l g s) k = if k = l then g (ldieAt s l) else ldieAt s k := by
  simp only [modLdie, ldieAt_putLdie]

@[simp] theorem ldieAt_modLdie_same (l : Nat) (g : LDieQ → LDieQ) (s : State) : ldieAt (modLdie l g s) l = g (ldieAt s l) := by
  simp [ldieAt_modLdie]

/-! ### SDie -/

@[simp] theorem putSdie_bricks (i : Nat) (x : SDie) (s : State) : (putSdie i x s).bricks = s.bricks := rfl
@[simp] theorem putSdie_pdies (i : Nat) (x : SDie) (s : State) : (putSdie i x s).pdies = s.pdies := rfl
@[simp] theorem putSdie_ldies (i : Nat) (x : SDie) (s : State) : (putSdie i x s).ldies = s.ldies := rfl
@[simp] theorem putSdie_grants (i : Nat) (x : SDie) (s : State) : (putSdie i x s).grants = s.grants := rfl
@[simp] theorem putSdie_parts (i : Nat) (x : SDie) (s : State) : (putSdie i x s).parts = s.parts := rfl
@[simp] theorem putSdie_models (i : Nat) (x : SDie) (s : State) : (putSdie i x s).models = s.models := rfl
@[simp] theorem putSdie_link (i : Nat) (x : SDie) (s : State) : (putSdie i x s).link = s.link := rfl
@[simp] theorem putSdie_st (i : Nat) (x : SDie) (s : State) : (putSdie i x s).st = s.st := rfl
@[simp] theorem putSdie_loops (i : Nat) (x : SDie) (s : State) : (putSdie i x s).loops = s.loops := rfl
@[simp] theorem putSdie_power (i : Nat) (x : SDie) (s : State) : (putSdie i x s).power = s.power := rfl
@[simp] theorem putSdie_auth (i : Nat) (x : SDie) (s : State) : (putSdie i x s).auth = s.auth := rfl
@[simp] theorem putSdie_time (i : Nat) (x : SDie) (s : State) : (putSdie i x s).time = s.time := rfl
@[simp] theorem putSdie_obs (i : Nat) (x : SDie) (s : State) : (putSdie i x s).obs = s.obs := rfl
@[simp] theorem putSdie_flt (i : Nat) (x : SDie) (s : State) : (putSdie i x s).flt = s.flt := rfl
@[simp] theorem putSdie_dev (i : Nat) (x : SDie) (s : State) : (putSdie i x s).dev = s.dev := rfl
@[simp] theorem putSdie_out (i : Nat) (x : SDie) (s : State) : (putSdie i x s).out = s.out := rfl
@[simp] theorem putSdie_freeIx (i : Nat) (x : SDie) (s : State) : (putSdie i x s).freeIx = s.freeIx := rfl
@[simp] theorem putSdie_pending (i : Nat) (x : SDie) (s : State) : (putSdie i x s).pending = s.pending := rfl
@[simp] theorem modSdie_bricks (i : Nat) (g : SDie → SDie) (s : State) : (modSdie i g s).bricks = s.bricks := rfl
@[simp] theorem modSdie_pdies (i : Nat) (g : SDie → SDie) (s : State) : (modSdie i g s).pdies = s.pdies := rfl
@[simp] theorem modSdie_ldies (i : Nat) (g : SDie → SDie) (s : State) : (modSdie i g s).ldies = s.ldies := rfl
@[simp] theorem modSdie_grants (i : Nat) (g : SDie → SDie) (s : State) : (modSdie i g s).grants = s.grants := rfl
@[simp] theorem modSdie_parts (i : Nat) (g : SDie → SDie) (s : State) : (modSdie i g s).parts = s.parts := rfl
@[simp] theorem modSdie_models (i : Nat) (g : SDie → SDie) (s : State) : (modSdie i g s).models = s.models := rfl
@[simp] theorem modSdie_link (i : Nat) (g : SDie → SDie) (s : State) : (modSdie i g s).link = s.link := rfl
@[simp] theorem modSdie_st (i : Nat) (g : SDie → SDie) (s : State) : (modSdie i g s).st = s.st := rfl
@[simp] theorem modSdie_loops (i : Nat) (g : SDie → SDie) (s : State) : (modSdie i g s).loops = s.loops := rfl
@[simp] theorem modSdie_power (i : Nat) (g : SDie → SDie) (s : State) : (modSdie i g s).power = s.power := rfl
@[simp] theorem modSdie_auth (i : Nat) (g : SDie → SDie) (s : State) : (modSdie i g s).auth = s.auth := rfl
@[simp] theorem modSdie_time (i : Nat) (g : SDie → SDie) (s : State) : (modSdie i g s).time = s.time := rfl
@[simp] theorem modSdie_obs (i : Nat) (g : SDie → SDie) (s : State) : (modSdie i g s).obs = s.obs := rfl
@[simp] theorem modSdie_flt (i : Nat) (g : SDie → SDie) (s : State) : (modSdie i g s).flt = s.flt := rfl
@[simp] theorem modSdie_dev (i : Nat) (g : SDie → SDie) (s : State) : (modSdie i g s).dev = s.dev := rfl
@[simp] theorem modSdie_out (i : Nat) (g : SDie → SDie) (s : State) : (modSdie i g s).out = s.out := rfl
@[simp] theorem modSdie_freeIx (i : Nat) (g : SDie → SDie) (s : State) : (modSdie i g s).freeIx = s.freeIx := rfl
@[simp] theorem modSdie_pending (i : Nat) (g : SDie → SDie) (s : State) : (modSdie i g s).pending = s.pending := rfl

/-- A unit put back reads as it was put; every other unit reads as before. -/
theorem sdieAt_putSdie (i k : Nat) (x : SDie) (s : State) : sdieAt (putSdie i x s) k = if k = i then x else sdieAt s k := by
  simp only [sdieAt, putSdie, mapGet_mapSet]

@[simp] theorem sdieAt_putSdie_same (i : Nat) (x : SDie) (s : State) : sdieAt (putSdie i x s) i = x := by
  simp [sdieAt_putSdie]

theorem sdieAt_putSdie_other {i k : Nat} (h : k ≠ i) (x : SDie) (s : State) : sdieAt (putSdie i x s) k = sdieAt s k := by
  simp [sdieAt_putSdie, h]

/-- A changed unit reads as the change says; every other unit reads as before. -/
theorem sdieAt_modSdie (i k : Nat) (g : SDie → SDie) (s : State) :
    sdieAt (modSdie i g s) k = if k = i then g (sdieAt s i) else sdieAt s k := by
  simp only [modSdie, sdieAt_putSdie]

@[simp] theorem sdieAt_modSdie_same (i : Nat) (g : SDie → SDie) (s : State) : sdieAt (modSdie i g s) i = g (sdieAt s i) := by
  simp [sdieAt_modSdie]

/-! ### PartSt -/

@[simp] theorem putPart_bricks (p : Nat) (x : PartSt) (s : State) : (putPart p x s).bricks = s.bricks := rfl
@[simp] theorem putPart_pdies (p : Nat) (x : PartSt) (s : State) : (putPart p x s).pdies = s.pdies := rfl
@[simp] theorem putPart_ldies (p : Nat) (x : PartSt) (s : State) : (putPart p x s).ldies = s.ldies := rfl
@[simp] theorem putPart_sdies (p : Nat) (x : PartSt) (s : State) : (putPart p x s).sdies = s.sdies := rfl
@[simp] theorem putPart_grants (p : Nat) (x : PartSt) (s : State) : (putPart p x s).grants = s.grants := rfl
@[simp] theorem putPart_models (p : Nat) (x : PartSt) (s : State) : (putPart p x s).models = s.models := rfl
@[simp] theorem putPart_link (p : Nat) (x : PartSt) (s : State) : (putPart p x s).link = s.link := rfl
@[simp] theorem putPart_st (p : Nat) (x : PartSt) (s : State) : (putPart p x s).st = s.st := rfl
@[simp] theorem putPart_loops (p : Nat) (x : PartSt) (s : State) : (putPart p x s).loops = s.loops := rfl
@[simp] theorem putPart_power (p : Nat) (x : PartSt) (s : State) : (putPart p x s).power = s.power := rfl
@[simp] theorem putPart_auth (p : Nat) (x : PartSt) (s : State) : (putPart p x s).auth = s.auth := rfl
@[simp] theorem putPart_time (p : Nat) (x : PartSt) (s : State) : (putPart p x s).time = s.time := rfl
@[simp] theorem putPart_obs (p : Nat) (x : PartSt) (s : State) : (putPart p x s).obs = s.obs := rfl
@[simp] theorem putPart_flt (p : Nat) (x : PartSt) (s : State) : (putPart p x s).flt = s.flt := rfl
@[simp] theorem putPart_dev (p : Nat) (x : PartSt) (s : State) : (putPart p x s).dev = s.dev := rfl
@[simp] theorem putPart_out (p : Nat) (x : PartSt) (s : State) : (putPart p x s).out = s.out := rfl
@[simp] theorem putPart_freeIx (p : Nat) (x : PartSt) (s : State) : (putPart p x s).freeIx = s.freeIx := rfl
@[simp] theorem putPart_pending (p : Nat) (x : PartSt) (s : State) : (putPart p x s).pending = s.pending := rfl
@[simp] theorem modPart_bricks (p : Nat) (g : PartSt → PartSt) (s : State) : (modPart p g s).bricks = s.bricks := rfl
@[simp] theorem modPart_pdies (p : Nat) (g : PartSt → PartSt) (s : State) : (modPart p g s).pdies = s.pdies := rfl
@[simp] theorem modPart_ldies (p : Nat) (g : PartSt → PartSt) (s : State) : (modPart p g s).ldies = s.ldies := rfl
@[simp] theorem modPart_sdies (p : Nat) (g : PartSt → PartSt) (s : State) : (modPart p g s).sdies = s.sdies := rfl
@[simp] theorem modPart_grants (p : Nat) (g : PartSt → PartSt) (s : State) : (modPart p g s).grants = s.grants := rfl
@[simp] theorem modPart_models (p : Nat) (g : PartSt → PartSt) (s : State) : (modPart p g s).models = s.models := rfl
@[simp] theorem modPart_link (p : Nat) (g : PartSt → PartSt) (s : State) : (modPart p g s).link = s.link := rfl
@[simp] theorem modPart_st (p : Nat) (g : PartSt → PartSt) (s : State) : (modPart p g s).st = s.st := rfl
@[simp] theorem modPart_loops (p : Nat) (g : PartSt → PartSt) (s : State) : (modPart p g s).loops = s.loops := rfl
@[simp] theorem modPart_power (p : Nat) (g : PartSt → PartSt) (s : State) : (modPart p g s).power = s.power := rfl
@[simp] theorem modPart_auth (p : Nat) (g : PartSt → PartSt) (s : State) : (modPart p g s).auth = s.auth := rfl
@[simp] theorem modPart_time (p : Nat) (g : PartSt → PartSt) (s : State) : (modPart p g s).time = s.time := rfl
@[simp] theorem modPart_obs (p : Nat) (g : PartSt → PartSt) (s : State) : (modPart p g s).obs = s.obs := rfl
@[simp] theorem modPart_flt (p : Nat) (g : PartSt → PartSt) (s : State) : (modPart p g s).flt = s.flt := rfl
@[simp] theorem modPart_dev (p : Nat) (g : PartSt → PartSt) (s : State) : (modPart p g s).dev = s.dev := rfl
@[simp] theorem modPart_out (p : Nat) (g : PartSt → PartSt) (s : State) : (modPart p g s).out = s.out := rfl
@[simp] theorem modPart_freeIx (p : Nat) (g : PartSt → PartSt) (s : State) : (modPart p g s).freeIx = s.freeIx := rfl
@[simp] theorem modPart_pending (p : Nat) (g : PartSt → PartSt) (s : State) : (modPart p g s).pending = s.pending := rfl

/-- A unit put back reads as it was put; every other unit reads as before. -/
theorem partAt_putPart (p k : Nat) (x : PartSt) (s : State) : partAt (putPart p x s) k = if k = p then x else partAt s k := by
  simp only [partAt, putPart, mapGet_mapSet]

@[simp] theorem partAt_putPart_same (p : Nat) (x : PartSt) (s : State) : partAt (putPart p x s) p = x := by
  simp [partAt_putPart]

theorem partAt_putPart_other {p k : Nat} (h : k ≠ p) (x : PartSt) (s : State) : partAt (putPart p x s) k = partAt s k := by
  simp [partAt_putPart, h]

/-- A changed unit reads as the change says; every other unit reads as before. -/
theorem partAt_modPart (p k : Nat) (g : PartSt → PartSt) (s : State) :
    partAt (modPart p g s) k = if k = p then g (partAt s p) else partAt s k := by
  simp only [modPart, partAt_putPart]

@[simp] theorem partAt_modPart_same (p : Nat) (g : PartSt → PartSt) (s : State) : partAt (modPart p g s) p = g (partAt s p) := by
  simp [partAt_modPart]

/-! ### ModelSt -/

@[simp] theorem putModel_bricks (p : Nat) (x : ModelSt) (s : State) : (putModel p x s).bricks = s.bricks := rfl
@[simp] theorem putModel_pdies (p : Nat) (x : ModelSt) (s : State) : (putModel p x s).pdies = s.pdies := rfl
@[simp] theorem putModel_ldies (p : Nat) (x : ModelSt) (s : State) : (putModel p x s).ldies = s.ldies := rfl
@[simp] theorem putModel_sdies (p : Nat) (x : ModelSt) (s : State) : (putModel p x s).sdies = s.sdies := rfl
@[simp] theorem putModel_grants (p : Nat) (x : ModelSt) (s : State) : (putModel p x s).grants = s.grants := rfl
@[simp] theorem putModel_parts (p : Nat) (x : ModelSt) (s : State) : (putModel p x s).parts = s.parts := rfl
@[simp] theorem putModel_link (p : Nat) (x : ModelSt) (s : State) : (putModel p x s).link = s.link := rfl
@[simp] theorem putModel_st (p : Nat) (x : ModelSt) (s : State) : (putModel p x s).st = s.st := rfl
@[simp] theorem putModel_loops (p : Nat) (x : ModelSt) (s : State) : (putModel p x s).loops = s.loops := rfl
@[simp] theorem putModel_power (p : Nat) (x : ModelSt) (s : State) : (putModel p x s).power = s.power := rfl
@[simp] theorem putModel_auth (p : Nat) (x : ModelSt) (s : State) : (putModel p x s).auth = s.auth := rfl
@[simp] theorem putModel_time (p : Nat) (x : ModelSt) (s : State) : (putModel p x s).time = s.time := rfl
@[simp] theorem putModel_obs (p : Nat) (x : ModelSt) (s : State) : (putModel p x s).obs = s.obs := rfl
@[simp] theorem putModel_flt (p : Nat) (x : ModelSt) (s : State) : (putModel p x s).flt = s.flt := rfl
@[simp] theorem putModel_dev (p : Nat) (x : ModelSt) (s : State) : (putModel p x s).dev = s.dev := rfl
@[simp] theorem putModel_out (p : Nat) (x : ModelSt) (s : State) : (putModel p x s).out = s.out := rfl
@[simp] theorem putModel_freeIx (p : Nat) (x : ModelSt) (s : State) : (putModel p x s).freeIx = s.freeIx := rfl
@[simp] theorem putModel_pending (p : Nat) (x : ModelSt) (s : State) : (putModel p x s).pending = s.pending := rfl
@[simp] theorem modModel_bricks (p : Nat) (g : ModelSt → ModelSt) (s : State) : (modModel p g s).bricks = s.bricks := rfl
@[simp] theorem modModel_pdies (p : Nat) (g : ModelSt → ModelSt) (s : State) : (modModel p g s).pdies = s.pdies := rfl
@[simp] theorem modModel_ldies (p : Nat) (g : ModelSt → ModelSt) (s : State) : (modModel p g s).ldies = s.ldies := rfl
@[simp] theorem modModel_sdies (p : Nat) (g : ModelSt → ModelSt) (s : State) : (modModel p g s).sdies = s.sdies := rfl
@[simp] theorem modModel_grants (p : Nat) (g : ModelSt → ModelSt) (s : State) : (modModel p g s).grants = s.grants := rfl
@[simp] theorem modModel_parts (p : Nat) (g : ModelSt → ModelSt) (s : State) : (modModel p g s).parts = s.parts := rfl
@[simp] theorem modModel_link (p : Nat) (g : ModelSt → ModelSt) (s : State) : (modModel p g s).link = s.link := rfl
@[simp] theorem modModel_st (p : Nat) (g : ModelSt → ModelSt) (s : State) : (modModel p g s).st = s.st := rfl
@[simp] theorem modModel_loops (p : Nat) (g : ModelSt → ModelSt) (s : State) : (modModel p g s).loops = s.loops := rfl
@[simp] theorem modModel_power (p : Nat) (g : ModelSt → ModelSt) (s : State) : (modModel p g s).power = s.power := rfl
@[simp] theorem modModel_auth (p : Nat) (g : ModelSt → ModelSt) (s : State) : (modModel p g s).auth = s.auth := rfl
@[simp] theorem modModel_time (p : Nat) (g : ModelSt → ModelSt) (s : State) : (modModel p g s).time = s.time := rfl
@[simp] theorem modModel_obs (p : Nat) (g : ModelSt → ModelSt) (s : State) : (modModel p g s).obs = s.obs := rfl
@[simp] theorem modModel_flt (p : Nat) (g : ModelSt → ModelSt) (s : State) : (modModel p g s).flt = s.flt := rfl
@[simp] theorem modModel_dev (p : Nat) (g : ModelSt → ModelSt) (s : State) : (modModel p g s).dev = s.dev := rfl
@[simp] theorem modModel_out (p : Nat) (g : ModelSt → ModelSt) (s : State) : (modModel p g s).out = s.out := rfl
@[simp] theorem modModel_freeIx (p : Nat) (g : ModelSt → ModelSt) (s : State) : (modModel p g s).freeIx = s.freeIx := rfl
@[simp] theorem modModel_pending (p : Nat) (g : ModelSt → ModelSt) (s : State) : (modModel p g s).pending = s.pending := rfl

/-- A unit put back reads as it was put; every other unit reads as before. -/
theorem modelAt_putModel (p k : Nat) (x : ModelSt) (s : State) : modelAt (putModel p x s) k = if k = p then x else modelAt s k := by
  simp only [modelAt, putModel, mapGet_mapSet]

@[simp] theorem modelAt_putModel_same (p : Nat) (x : ModelSt) (s : State) : modelAt (putModel p x s) p = x := by
  simp [modelAt_putModel]

theorem modelAt_putModel_other {p k : Nat} (h : k ≠ p) (x : ModelSt) (s : State) : modelAt (putModel p x s) k = modelAt s k := by
  simp [modelAt_putModel, h]

/-- A changed unit reads as the change says; every other unit reads as before. -/
theorem modelAt_modModel (p k : Nat) (g : ModelSt → ModelSt) (s : State) :
    modelAt (modModel p g s) k = if k = p then g (modelAt s p) else modelAt s k := by
  simp only [modModel, modelAt_putModel]

@[simp] theorem modelAt_modModel_same (p : Nat) (g : ModelSt → ModelSt) (s : State) : modelAt (modModel p g s) p = g (modelAt s p) := by
  simp [modelAt_modModel]

/-! ### PortSt -/

@[simp] theorem putPort_bricks (p : Nat) (x : PortSt) (s : State) : (putPort p x s).bricks = s.bricks := rfl
@[simp] theorem putPort_pdies (p : Nat) (x : PortSt) (s : State) : (putPort p x s).pdies = s.pdies := rfl
@[simp] theorem putPort_ldies (p : Nat) (x : PortSt) (s : State) : (putPort p x s).ldies = s.ldies := rfl
@[simp] theorem putPort_sdies (p : Nat) (x : PortSt) (s : State) : (putPort p x s).sdies = s.sdies := rfl
@[simp] theorem putPort_grants (p : Nat) (x : PortSt) (s : State) : (putPort p x s).grants = s.grants := rfl
@[simp] theorem putPort_parts (p : Nat) (x : PortSt) (s : State) : (putPort p x s).parts = s.parts := rfl
@[simp] theorem putPort_models (p : Nat) (x : PortSt) (s : State) : (putPort p x s).models = s.models := rfl
@[simp] theorem putPort_st (p : Nat) (x : PortSt) (s : State) : (putPort p x s).st = s.st := rfl
@[simp] theorem putPort_loops (p : Nat) (x : PortSt) (s : State) : (putPort p x s).loops = s.loops := rfl
@[simp] theorem putPort_power (p : Nat) (x : PortSt) (s : State) : (putPort p x s).power = s.power := rfl
@[simp] theorem putPort_auth (p : Nat) (x : PortSt) (s : State) : (putPort p x s).auth = s.auth := rfl
@[simp] theorem putPort_time (p : Nat) (x : PortSt) (s : State) : (putPort p x s).time = s.time := rfl
@[simp] theorem putPort_obs (p : Nat) (x : PortSt) (s : State) : (putPort p x s).obs = s.obs := rfl
@[simp] theorem putPort_flt (p : Nat) (x : PortSt) (s : State) : (putPort p x s).flt = s.flt := rfl
@[simp] theorem putPort_dev (p : Nat) (x : PortSt) (s : State) : (putPort p x s).dev = s.dev := rfl
@[simp] theorem putPort_out (p : Nat) (x : PortSt) (s : State) : (putPort p x s).out = s.out := rfl
@[simp] theorem putPort_freeIx (p : Nat) (x : PortSt) (s : State) : (putPort p x s).freeIx = s.freeIx := rfl
@[simp] theorem putPort_pending (p : Nat) (x : PortSt) (s : State) : (putPort p x s).pending = s.pending := rfl
@[simp] theorem modPort_bricks (p : Nat) (g : PortSt → PortSt) (s : State) : (modPort p g s).bricks = s.bricks := rfl
@[simp] theorem modPort_pdies (p : Nat) (g : PortSt → PortSt) (s : State) : (modPort p g s).pdies = s.pdies := rfl
@[simp] theorem modPort_ldies (p : Nat) (g : PortSt → PortSt) (s : State) : (modPort p g s).ldies = s.ldies := rfl
@[simp] theorem modPort_sdies (p : Nat) (g : PortSt → PortSt) (s : State) : (modPort p g s).sdies = s.sdies := rfl
@[simp] theorem modPort_grants (p : Nat) (g : PortSt → PortSt) (s : State) : (modPort p g s).grants = s.grants := rfl
@[simp] theorem modPort_parts (p : Nat) (g : PortSt → PortSt) (s : State) : (modPort p g s).parts = s.parts := rfl
@[simp] theorem modPort_models (p : Nat) (g : PortSt → PortSt) (s : State) : (modPort p g s).models = s.models := rfl
@[simp] theorem modPort_st (p : Nat) (g : PortSt → PortSt) (s : State) : (modPort p g s).st = s.st := rfl
@[simp] theorem modPort_loops (p : Nat) (g : PortSt → PortSt) (s : State) : (modPort p g s).loops = s.loops := rfl
@[simp] theorem modPort_power (p : Nat) (g : PortSt → PortSt) (s : State) : (modPort p g s).power = s.power := rfl
@[simp] theorem modPort_auth (p : Nat) (g : PortSt → PortSt) (s : State) : (modPort p g s).auth = s.auth := rfl
@[simp] theorem modPort_time (p : Nat) (g : PortSt → PortSt) (s : State) : (modPort p g s).time = s.time := rfl
@[simp] theorem modPort_obs (p : Nat) (g : PortSt → PortSt) (s : State) : (modPort p g s).obs = s.obs := rfl
@[simp] theorem modPort_flt (p : Nat) (g : PortSt → PortSt) (s : State) : (modPort p g s).flt = s.flt := rfl
@[simp] theorem modPort_dev (p : Nat) (g : PortSt → PortSt) (s : State) : (modPort p g s).dev = s.dev := rfl
@[simp] theorem modPort_out (p : Nat) (g : PortSt → PortSt) (s : State) : (modPort p g s).out = s.out := rfl
@[simp] theorem modPort_freeIx (p : Nat) (g : PortSt → PortSt) (s : State) : (modPort p g s).freeIx = s.freeIx := rfl
@[simp] theorem modPort_pending (p : Nat) (g : PortSt → PortSt) (s : State) : (modPort p g s).pending = s.pending := rfl

/-- A unit put back reads as it was put; every other unit reads as before. -/
theorem portAt_putPort (p k : Nat) (x : PortSt) (s : State) : portAt (putPort p x s) k = if k = p then x else portAt s k := by
  simp only [portAt, putPort, mapGet_mapSet]

@[simp] theorem portAt_putPort_same (p : Nat) (x : PortSt) (s : State) : portAt (putPort p x s) p = x := by
  simp [portAt_putPort]

theorem portAt_putPort_other {p k : Nat} (h : k ≠ p) (x : PortSt) (s : State) : portAt (putPort p x s) k = portAt s k := by
  simp [portAt_putPort, h]

/-- A changed unit reads as the change says; every other unit reads as before. -/
theorem portAt_modPort (p k : Nat) (g : PortSt → PortSt) (s : State) :
    portAt (modPort p g s) k = if k = p then g (portAt s p) else portAt s k := by
  simp only [modPort, portAt_putPort]

@[simp] theorem portAt_modPort_same (p : Nat) (g : PortSt → PortSt) (s : State) : portAt (modPort p g s) p = g (portAt s p) := by
  simp [portAt_modPort]

end Sys2Proof.Machine
end

