-- ==== Sys2Proof/Laws/Kept.lean ====
section
/-!
SUPPORT. What every command keeps, as one relation between two states, and how it passes through updates, choices and folds.
-/

namespace Sys2Proof.Machine

open Sys2Proof

/-- From a state to a later one: well-kept states stay well kept, the queue stands, no free value is taken twice, time does not go back, the
fused values stand. -/
structure Kept (s t : State) : Prop where
  wf : Wf s → Wf t
  pending : t.pending = s.pending
  free : s.freeIx ≤ t.freeIx
  time : s.time.now ≤ t.time.now
  fused : fusedOf t.dev = fusedOf s.dev

/-- The same of a command's answer. -/
def KeptOut (s : State) (o : Host.Outcome State Fault Refusal) : Prop := ∀ t, o = .next t → Kept s t

theorem Kept.refl (s : State) : Kept s s := ⟨id, rfl, Nat.le_refl _, Nat.le_refl _, rfl⟩

theorem kept_id {s₀ s : State} (h : Kept s₀ s) : Kept s₀ (id s) := h

theorem kept_next {s₀ s : State} (h : Kept s₀ s) : KeptOut s₀ (.next s) := by
  intro t ht
  cases ht
  exact h

theorem kept_ite {s₀ a b : State} {c : Prop} [Decidable c] (ha : c → Kept s₀ a) (hb : ¬c → Kept s₀ b) : Kept s₀ (if c then a else b) := by
  split
  · exact ha (by assumption)
  · exact hb (by assumption)

theorem kept_of_eq {α : Type} {s₀ t : State} {p : α × State} {a : α} (e : p = (a, t)) (h : Kept s₀ p.2) : Kept s₀ t := by
  subst e
  exact h

theorem kept_of_eq_fst {α : Type} {s₀ t : State} {p : State × α} {a : α} (e : p = (t, a)) (h : Kept s₀ p.1) : Kept s₀ t := by
  subst e
  exact h

theorem keptOut_ite {s₀ : State} {a b : Host.Outcome State Fault Refusal} {c : Prop} [Decidable c] (ha : c → KeptOut s₀ a)
    (hb : ¬c → KeptOut s₀ b) : KeptOut s₀ (if c then a else b) := by
  split
  · exact ha (by assumption)
  · exact hb (by assumption)

theorem brickWf_ite {a b : BrickSt} {c : Prop} [Decidable c] (ha : c → BrickWf a) (hb : ¬c → BrickWf b) : BrickWf (if c then a else b) := by
  split
  · exact ha (by assumption)
  · exact hb (by assumption)

/-- An update of the fields that no memory stands in. -/
theorem kept_upd {s₀ s : State} {pd ld gr pa mo li st lo po au tm ob fl d ou fx} (h : Kept s₀ s) (hf : s.freeIx ≤ fx)
    (ht : s.time.now ≤ tm.now) (hd : fusedOf d = fusedOf s.dev) :
    Kept s₀ ⟨s.bricks, pd, ld, s.sdies, gr, pa, mo, li, st, lo, po, au, tm, ob, fl, d, ou, fx, s.pending⟩ :=
  ⟨h.wf, h.pending, Nat.le_trans h.free hf, Nat.le_trans h.time ht, hd.trans h.fused⟩

/-- An update of the bricks. -/
theorem kept_updB {s₀ s : State} {br pd ld gr pa mo li st lo po au tm ob fl d ou fx} (h : Kept s₀ s)
    (hb : (∀ b ∈ s.bricks, BrickWf b.2) → ∀ b ∈ br, BrickWf b.2) (hf : s.freeIx ≤ fx) (ht : s.time.now ≤ tm.now)
    (hd : fusedOf d = fusedOf s.dev) :
    Kept s₀ ⟨br, pd, ld, s.sdies, gr, pa, mo, li, st, lo, po, au, tm, ob, fl, d, ou, fx, s.pending⟩ :=
  ⟨fun w => ⟨hb (h.wf w).1, (h.wf w).2⟩, h.pending, Nat.le_trans h.free hf, Nat.le_trans h.time ht, hd.trans h.fused⟩

/-- An update of the S-dies. -/
theorem kept_updS {s₀ s : State} {sd pd ld gr pa mo li st lo po au tm ob fl d ou fx} (h : Kept s₀ s)
    (hb : (∀ b ∈ s.sdies, SDieWf b.2) → ∀ b ∈ sd, SDieWf b.2) (hf : s.freeIx ≤ fx) (ht : s.time.now ≤ tm.now)
    (hd : fusedOf d = fusedOf s.dev) :
    Kept s₀ ⟨s.bricks, pd, ld, sd, gr, pa, mo, li, st, lo, po, au, tm, ob, fl, d, ou, fx, s.pending⟩ :=
  ⟨fun w => ⟨(h.wf w).1, hb (h.wf w).2⟩, h.pending, Nat.le_trans h.free hf, Nat.le_trans h.time ht, hd.trans h.fused⟩

/-- An update of the device registers that leaves the fused values. -/
theorem fused_upd {x : DevSt} {a b c d e f g h i j k l m n o p} :
    fusedOf ⟨x.grade, x.vendor, x.revision, x.serial, a, b, c, d, e, f, g, h, i, j, k, l, m, n, o, p⟩ = fusedOf x := rfl

theorem kept_foldl {α : Type} {s₀ s : State} {f : State → α → State} {l : List α} (hf : ∀ s x, Kept s₀ s → Kept s₀ (f s x))
    (h : Kept s₀ s) : Kept s₀ (l.foldl f s) := by
  induction l generalizing s with
  | nil => exact h
  | cons x t ih => exact ih (hf s x h)

theorem kept_foldl_snd {α β : Type} {s₀ : State} {f : β × State → α → β × State} {a : β × State} {l : List α}
    (hf : ∀ a x, Kept s₀ a.2 → Kept s₀ (f a x).2) (h : Kept s₀ a.2) : Kept s₀ (l.foldl f a).2 := by
  induction l generalizing a with
  | nil => exact h
  | cons x t ih => exact ih (hf a x h)

theorem kept_foldl_fst {α β : Type} {s₀ : State} {f : State × β → α → State × β} {a : State × β} {l : List α}
    (hf : ∀ a x, Kept s₀ a.1 → Kept s₀ (f a x).1) (h : Kept s₀ a.1) : Kept s₀ (l.foldl f a).1 := by
  induction l generalizing a with
  | nil => exact h
  | cons x t ih => exact ih (hf a x h)

/-! ### Bricks -/

theorem brickWf_default : BrickWf {} :=
  ⟨⟨memWf_nil, memWf_nil, memWf_nil, memWf_nil⟩, rfl, rfl⟩

theorem regsWf_default : RegsWf {} := brickWf_default.2

theorem memWf_default : MemWf {} := brickWf_default.1

theorem sdieWf_default : SDieWf {} := ⟨memWf_nil, memWf_nil⟩

theorem brickWf_mk {r c m vec arr fl perf wins regions params ep descs barriers num} (hm : MemWf m) (hr : RegsWf r) :
    BrickWf ⟨r, c, m, vec, arr, fl, perf, wins, regions, params, ep, descs, barriers, num⟩ := ⟨hm, hr⟩

theorem brickWf_mem {b : BrickSt} (h : BrickWf b) : MemWf b.m := h.1
theorem brickWf_regs {b : BrickSt} (h : BrickWf b) : RegsWf b.r := h.2
theorem memWf_imem {m : BrickMem} (h : MemWf m) : memWf m.imem := h.1
theorem memWf_dmem {m : BrickMem} (h : MemWf m) : memWf m.dmem := h.2.1
theorem memWf_bmem {m : BrickMem} (h : MemWf m) : memWf m.bmem := h.2.2.1
theorem memWf_staging {m : BrickMem} (h : MemWf m) : memWf m.staging := h.2.2.2

theorem memWf_mk {i d b st l lu} (hi : memWf i) (hd : memWf d) (hb : memWf b) (hs : memWf st) : MemWf ⟨i, d, b, l, st, lu⟩ := ⟨hi, hd, hb, hs⟩

/-- An update of the registers that leaves s0 to s31 and the flags. -/
theorem regsWf_upd {r : BrickRegs} {pc ie ed ti cy co pt pdb} (h : RegsWf r) : RegsWf ⟨r.s, pc, ie, ed, ti, cy, r.flags, co, pt, pdb⟩ := h

theorem brickWf_foldl {α : Type} {f : BrickSt → α → BrickSt} {b : BrickSt} {l : List α} (hf : ∀ b x, BrickWf b → BrickWf (f b x))
    (h : BrickWf b) : BrickWf (l.foldl f b) := by
  induction l generalizing b with
  | nil => exact h
  | cons x t ih => exact ih (hf b x h)

/-- A brick of a kept state is well kept. -/
theorem Kept.brick {s₀ s : State} (h : Kept s₀ s) (w : Wf s₀) (b : Nat) : BrickWf (brickAt s b) :=
  mapGet_prop brickWf_default (h.wf w).1 b

/-- An S-die of a kept state is well kept. -/
theorem Kept.sdie {s₀ s : State} (h : Kept s₀ s) (w : Wf s₀) (i : Nat) : SDieWf (sdieAt s i) :=
  mapGet_prop sdieWf_default (h.wf w).2 i

theorem sdieWf_dram {x : SDie} (h : SDieWf x) : memWf x.dram := h.1
theorem sdieWf_sram {x : SDie} (h : SDieWf x) : memWf x.sram := h.2

theorem sdieWf_mk {dram sram : List Host.Cell} {a b c d e f g h i j k l m n o p q r s t u v w x y z z'} (h1 : memWf dram) (h2 : memWf sram) :
    SDieWf ⟨dram, sram, a, b, c, d, e, f, g, h, i, j, k, l, m, n, o, p, q, r, s, t, u, v, w, x, y, z, z'⟩ := ⟨h1, h2⟩

theorem sdieWf_foldl {α : Type} {f : SDie → α → SDie} {b : SDie} {l : List α} (hf : ∀ b x, SDieWf b → SDieWf (f b x))
    (h : SDieWf b) : SDieWf (l.foldl f b) := by
  induction l generalizing b with
  | nil => exact h
  | cons x t ih => exact ih (hf b x h)

/-! ### Updates of a unit -/

theorem putBrick_kept {s₀ s : State} {b : Nat} {x : BrickSt} (hx : Wf s₀ → BrickWf x) (h : Kept s₀ s) : Kept s₀ (putBrick b x s) :=
  ⟨fun w => ⟨mapSet_prop (hx w) (h.wf w).1, (h.wf w).2⟩, h.pending, h.free, h.time, h.fused⟩

theorem modBrick_kept {s₀ s : State} {b : Nat} {f : BrickSt → BrickSt} (hf : ∀ x, BrickWf x → BrickWf (f x)) (h : Kept s₀ s) :
    Kept s₀ (modBrick b f s) := putBrick_kept (fun w => hf _ (h.brick w b)) h

theorem putSdie_kept {s₀ s : State} {b : Nat} {x : SDie} (hx : Wf s₀ → SDieWf x) (h : Kept s₀ s) : Kept s₀ (putSdie b x s) :=
  ⟨fun w => ⟨(h.wf w).1, mapSet_prop (hx w) (h.wf w).2⟩, h.pending, h.free, h.time, h.fused⟩

theorem modSdie_kept {s₀ s : State} {b : Nat} {f : SDie → SDie} (hf : ∀ x, SDieWf x → SDieWf (f x)) (h : Kept s₀ s) :
    Kept s₀ (modSdie b f s) := putSdie_kept (fun w => hf _ (h.sdie w b)) h

end Sys2Proof.Machine
end

