-- ==== Sys2Proof/Laws/KeptBrickCore.lean ====
section
/-!
SUPPORT. What every operation and meaning of Machine/BrickCore.lean keeps.
-/

namespace Sys2Proof.Machine

open Sys2Proof

theorem setS_kept (i : SReg) (v : Word) (b : BrickSt) (h_b : BrickWf b) : BrickWf (setS i v b) := by
  unfold setS
  split
  · exact h_b
  · rename_i hi
    refine ⟨h_b.1, ?_, h_b.2.2⟩
    have : (i : Nat) ≠ 0 := fun h => hi (Fin.ext h)
    simpa [Vector.get_eq_getElem, Vector.getElem_set, this] using h_b.2.1

theorem setPc_kept (pc : BitVec 13) (b : BrickSt) (h_b : BrickWf b) : BrickWf (setPc pc b) := by
  unfold setPc
  try dsimp only
  repeat' (with_reducible first | assumption | intro _ | apply brickWf_ite | split | apply brickWf_mem | apply brickWf_regs | apply brickWf_foldl | apply brickWf_mk | apply memWf_mk | apply regsWf_upd)

theorem stick_kept (f : NumFlags) (b : BrickSt) (h_b : BrickWf b) : BrickWf (stick f b) := by
  unfold stick
  try dsimp only
  repeat' (with_reducible first | assumption | intro _ | apply brickWf_ite | split | apply brickWf_mem | apply brickWf_regs | apply brickWf_foldl | apply brickWf_mk)

theorem dmemWrite_kept (a n v : Nat) (b : BrickSt) (h_b : BrickWf b) : BrickWf (dmemWrite a n v b) := by
  unfold dmemWrite
  try dsimp only
  repeat' (with_reducible first | assumption | intro _ | apply brickWf_ite | split | apply brickWf_mem | apply brickWf_regs | apply brickWf_foldl | apply brickWf_mk | apply memWf_mk | apply regsWf_upd | apply memWf_dmem | apply memWf_bmem | apply memWf_imem | apply memWf_staging | apply memWf_memPutBytes)

theorem bmemWrite_kept (a : Nat) (bs : List Byte) (b : BrickSt) (h_b : BrickWf b) : BrickWf (bmemWrite a bs b) := by
  unfold bmemWrite
  try dsimp only
  repeat' (with_reducible first | assumption | intro _ | apply brickWf_ite | split | apply brickWf_mem | apply brickWf_regs | apply brickWf_foldl | apply brickWf_mk | apply memWf_mk | apply regsWf_upd | apply memWf_dmem | apply memWf_bmem | apply memWf_imem | apply memWf_staging | apply memWf_memPutBytes)

theorem stagingWrite_kept (a : Nat) (bs : List Byte) (b : BrickSt) (h_b : BrickWf b) : BrickWf (stagingWrite a bs b) := by
  unfold stagingWrite
  try dsimp only
  repeat' (with_reducible first | assumption | intro _ | apply brickWf_ite | split | apply brickWf_mem | apply brickWf_regs | apply brickWf_foldl | apply brickWf_mk | apply memWf_mk | apply regsWf_upd | apply memWf_dmem | apply memWf_bmem | apply memWf_imem | apply memWf_staging | apply memWf_memPutBytes)

theorem raiseSig_kept (id : BitVec 6) (b : BrickSt) (h_b : BrickWf b) : BrickWf (raiseSig id b) := by
  unfold raiseSig
  dsimp only
  repeat' split
  · exact h_b
  · exact h_b
  · rename_i hi _ _
    refine ⟨h_b.1, h_b.2.1, ?_⟩
    have h0 := h_b.2.2
    have h1 : 0 < id.toNat := Nat.pos_of_ne_zero (fun h => hi (BitVec.eq_of_toNat_eq h))
    simp only [BitVec.getLsbD_or, h0, Bool.false_or, BitVec.getLsbD_shiftLeft]
    simp [h1]
  · exact h_b
  · exact h_b
  · exact h_b

theorem clearId_kept (id : BitVec 6) (b : BrickSt) (h_b : BrickWf b) : BrickWf (clearId id b) := by
  unfold clearId
  repeat' split
  · exact h_b
  · exact ⟨h_b.1, h_b.2.1, by have h0 := h_b.2.2; simp only [BitVec.getLsbD_and, h0, Bool.false_and]⟩
  · exact h_b
  · exact h_b

theorem consumeWait_kept (b : BrickSt) (id : BitVec 6) (h_b : BrickWf b) : BrickWf (consumeWait b id) := by
  unfold consumeWait
  repeat' split
  · exact h_b
  · exact ⟨h_b.1, h_b.2.1, by have h0 := h_b.2.2; simp only [BitVec.getLsbD_and, h0, Bool.false_and]⟩
  · exact h_b
  · exact h_b

theorem signalAt_kept (t : Nat) (id : BitVec 6) (b : BrickSt) (h_b : BrickWf b) : BrickWf (signalAt t id b) := by
  unfold signalAt
  try dsimp only
  repeat' (with_reducible first | assumption | intro _ | apply brickWf_ite | split | apply raiseSig_kept | apply brickWf_mem | apply brickWf_regs | apply brickWf_foldl | apply brickWf_mk)

theorem landLoad_kept (l : LoadDue) (b : BrickSt) (h_b : BrickWf b) : BrickWf (landLoad l b) := by
  unfold landLoad
  try dsimp only
  repeat' (with_reducible first | assumption | intro _ | apply brickWf_ite | split | apply signalAt_kept | apply setS_kept)

theorem landVec_kept (l : VecDue) (b : BrickSt) (h_b : BrickWf b) : BrickWf (landVec l b) := by
  unfold landVec
  try dsimp only
  repeat' (with_reducible first | assumption | intro _ | apply brickWf_ite | split | apply signalAt_kept | apply brickWf_mem | apply brickWf_regs | apply brickWf_foldl | apply brickWf_mk)

theorem landQuant_kept (l : QuantDue) (b : BrickSt) (h_b : BrickWf b) : BrickWf (landQuant l b) := by
  unfold landQuant
  try dsimp only
  repeat' (with_reducible first | assumption | intro _ | apply brickWf_ite | split | apply stagingWrite_kept | apply signalAt_kept | apply brickWf_mem | apply brickWf_regs | apply brickWf_foldl | apply brickWf_mk)

theorem landPass_kept (p : PassDue) (b : BrickSt) (h_b : BrickWf b) : BrickWf (landPass p b) := by
  unfold landPass
  try dsimp only
  repeat' (with_reducible first | assumption | intro _ | apply brickWf_ite | split | apply signalAt_kept | apply brickWf_mem | apply brickWf_regs | apply brickWf_foldl | apply brickWf_mk)

theorem applySigs_kept (b : BrickSt) (h_b : BrickWf b) : BrickWf (applySigs b) := by
  unfold applySigs
  try dsimp only
  repeat' (with_reducible first | assumption | intro _ | apply brickWf_ite | split | apply raiseSig_kept | apply brickWf_mem | apply brickWf_regs | apply brickWf_foldl | apply brickWf_mk)

theorem streamTrace_kept (d : Nat) (st : Stream) (b : BrickSt) (h_b : BrickWf b) : BrickWf (streamTrace d st b) := by
  unfold streamTrace
  try dsimp only
  repeat' (with_reducible first | assumption | intro _ | apply brickWf_ite | split | apply brickWf_mem | apply brickWf_regs | apply brickWf_foldl | apply brickWf_mk)

theorem landStreams_kept (b : BrickSt) (h_b : BrickWf b) : BrickWf (landStreams b) := by
  unfold landStreams
  try dsimp only
  repeat' (with_reducible first | assumption | intro _ | apply brickWf_ite | split | apply signalAt_kept | apply streamTrace_kept | apply brickWf_mem | apply brickWf_regs | apply brickWf_foldl | apply brickWf_mk)

theorem landDue_kept (b : BrickSt) (h_b : BrickWf b) : BrickWf (landDue b) := by
  unfold landDue
  try dsimp only
  repeat' (with_reducible first | assumption | intro _ | apply brickWf_ite | split | apply landLoad_kept | apply landVec_kept | apply landQuant_kept | apply landPass_kept | apply landStreams_kept | apply signalAt_kept | apply brickWf_mem | apply brickWf_regs | apply brickWf_foldl | apply brickWf_mk)

theorem advanceTo_kept (t : Nat) (b : BrickSt) (h_b : BrickWf b) : BrickWf (advanceTo t b) := by
  unfold advanceTo
  try dsimp only
  repeat' (with_reducible first | assumption | intro _ | apply brickWf_ite | split | apply applySigs_kept | apply landDue_kept | apply brickWf_mem | apply brickWf_regs | apply brickWf_foldl | apply brickWf_mk | apply memWf_mk | apply regsWf_upd)

theorem advance_kept (n : Nat) (b : BrickSt) (h_b : BrickWf b) : BrickWf (advance n b) := by
  unfold advance
  try dsimp only
  repeat' (with_reducible first | assumption | intro _ | apply brickWf_ite | split | apply advanceTo_kept)

theorem haltBrick_kept (reason : Byte) (slot : Fin 8) (pc : BitVec 13) (info : Word) (prior : Byte) (b : BrickSt) (h_b : BrickWf b) : BrickWf (haltBrick reason slot pc info prior b) := by
  unfold haltBrick
  try dsimp only
  repeat' (with_reducible first | assumption | intro _ | apply brickWf_ite | split | apply brickWf_mem | apply brickWf_regs | apply brickWf_foldl | apply brickWf_mk | apply memWf_mk | apply regsWf_upd)

theorem excEntry_kept (cause : Byte) (info : Word) (ret haltPc : BitVec 13) (b : BrickSt) (h_b : BrickWf b) : BrickWf (excEntry cause info ret haltPc b) := by
  unfold excEntry
  try dsimp only
  repeat' (with_reducible first | assumption | intro _ | apply brickWf_ite | split | apply haltBrick_kept | apply setS_kept | apply brickWf_mem | apply brickWf_regs | apply brickWf_foldl | apply brickWf_mk | apply memWf_mk | apply regsWf_upd | apply memWf_dmem | apply memWf_bmem | apply memWf_imem | apply memWf_staging | apply memWf_memPutBytes)

theorem excReturn_kept (b : BrickSt) (h_b : BrickWf b) : BrickWf (excReturn b) := by
  unfold excReturn
  try dsimp only
  repeat' (with_reducible first | assumption | intro _ | apply brickWf_ite | split | apply setS_kept | apply brickWf_mem | apply brickWf_regs | apply brickWf_foldl | apply brickWf_mk | apply memWf_mk | apply regsWf_upd)

theorem takeAsync_kept (b : BrickSt) (h_b : BrickWf b) : BrickWf (takeAsync b) := by
  unfold takeAsync
  try dsimp only
  repeat' (with_reducible first | assumption | intro _ | apply brickWf_ite | split | apply excEntry_kept | apply brickWf_mem | apply brickWf_regs | apply brickWf_foldl | apply brickWf_mk | apply memWf_mk | apply regsWf_upd)

theorem brickReset_kept (b : BrickSt) (h_b : BrickWf b) : BrickWf (brickReset b) :=
  ⟨⟨h_b.1.1, memWf_nil, h_b.1.2.2.1, h_b.1.2.2.2⟩, brickWf_default.2⟩

end Sys2Proof.Machine
end

