-- ==== Sys2Proof/Laws/KeptScalar.lean ====
section
/-!
SUPPORT. What every operation and meaning of Machine/Scalar.lean keeps.
-/

namespace Sys2Proof.Machine

open Sys2Proof

theorem wr_kept (rd : SReg) (v : Word) (b : BrickSt) (h_b : BrickWf b) : BrickWf (wr rd v b) := by
  unfold wr
  try dsimp only
  repeat' (with_reducible first | assumption | intro _ | apply brickWf_ite | split | apply setS_kept)

theorem replayTake_kept (b : BrickSt) (h_b : BrickWf b) : BrickWf (replayTake b) := by
  unfold replayTake
  try dsimp only
  repeat' (with_reducible first | assumption | intro _ | apply brickWf_ite | split | apply brickWf_mem | apply brickWf_regs | apply brickWf_foldl | apply brickWf_mk | apply memWf_mk | apply regsWf_upd)

theorem scalarEffect_kept (b0 : BrickSt) (sig : BitVec 6) (op : SlotOp) (b : BrickSt) (h_b : BrickWf b) : BrickWf (scalarEffect b0 sig op b) := by
  cases op <;> unfold scalarEffect
  all_goals try dsimp only
  repeat' (with_reducible first | assumption | intro _ | apply brickWf_ite | split | apply clearId_kept | apply wr_kept | apply dmemWrite_kept | apply setPc_kept | apply excReturn_kept | apply brickWf_mem | apply brickWf_regs | apply brickWf_foldl | apply brickWf_mk | apply memWf_mk | apply regsWf_upd)

end Sys2Proof.Machine
end

