-- ==== Sys2Proof/Laws/KeptVectorUnit.lean ====
section
/-!
SUPPORT. What every operation and meaning of Machine/VectorUnit.lean keeps.
-/

namespace Sys2Proof.Machine

open Sys2Proof

theorem qntEffect_kept (b0 : BrickSt) (sig : BitVec 6) (va : VReg) (qd : Fin 32) (unit : BitVec 11) (row : Fin 128) (nanMode : Bool) (w : Fin 4) (b : BrickSt) (h_b : BrickWf b) : BrickWf (qntEffect b0 sig va qd unit row nanMode w b) := by
  unfold qntEffect
  try dsimp only
  repeat' (with_reducible first | assumption | intro _ | apply brickWf_ite | split | apply stick_kept | apply brickWf_mem | apply brickWf_regs | apply brickWf_foldl | apply brickWf_mk)

theorem qscanEffect_kept (b0 : BrickSt) (sig : BitVec 6) (va : VReg) (qd : Fin 32) (unit : BitVec 11) (row : Fin 128) (final : Bool) (w : Fin 4) (b : BrickSt) (h_b : BrickWf b) : BrickWf (qscanEffect b0 sig va qd unit row final w b) := by
  unfold qscanEffect
  try dsimp only
  repeat' (with_reducible first | assumption | intro _ | apply brickWf_ite | split | apply stick_kept | apply brickWf_mem | apply brickWf_regs | apply brickWf_foldl | apply brickWf_mk)

theorem vecDue_kept (b0 : BrickSt) (sig : BitVec 6) (vd : VReg) (x : VecVal) (b : BrickSt) (h_b : BrickWf b) : BrickWf (vecDue b0 sig vd x b) := by
  unfold vecDue
  try dsimp only
  repeat' (with_reducible first | assumption | intro _ | apply brickWf_ite | split | apply brickWf_mem | apply brickWf_regs | apply brickWf_foldl | apply brickWf_mk)

theorem vectorEffect_kept (b0 : BrickSt) (sig : BitVec 6) (op : SlotOp) (b : BrickSt) (h_b : BrickWf b) : BrickWf (vectorEffect b0 sig op b) := by
  cases op <;> unfold vectorEffect
  all_goals try dsimp only
  repeat' (with_reducible first | assumption | intro _ | apply brickWf_ite | split | apply vecDue_kept | apply stick_kept | apply qntEffect_kept | apply qscanEffect_kept | apply brickWf_mem | apply brickWf_regs | apply brickWf_foldl | apply brickWf_mk)

end Sys2Proof.Machine
end

