-- ==== Sys2Proof/Laws/KeptMatrix.lean ====
section
/-!
SUPPORT. What every operation and meaning of Machine/Matrix.lean keeps.
-/

namespace Sys2Proof.Machine

open Sys2Proof

theorem consume_kept (d : Fin 16) (last : Nat) (b : BrickSt) (h_b : BrickWf b) : BrickWf (consume d last b) := by
  unfold consume
  try dsimp only
  repeat' (with_reducible first | assumption | intro _ | apply brickWf_ite | split | apply brickWf_mem | apply brickWf_regs | apply brickWf_foldl | apply brickWf_mk)

theorem matrixEffect_kept (b0 : BrickSt) (sig : BitVec 6) (op : SlotOp) (b : BrickSt) (h_b : BrickWf b) : BrickWf (matrixEffect b0 sig op b) := by
  cases op <;> unfold matrixEffect
  all_goals try dsimp only
  repeat' (with_reducible first | assumption | intro _ | apply brickWf_ite | split | apply consume_kept | apply stick_kept | apply brickWf_mem | apply brickWf_regs | apply brickWf_foldl | apply brickWf_mk)

end Sys2Proof.Machine
end

