-- ==== Sys2Proof/Laws/KeptBrickIssue.lean ====
section
/-!
SUPPORT. What every operation and meaning of Machine/BrickIssue.lean keeps.
-/

namespace Sys2Proof.Machine

open Sys2Proof

theorem startEffect_kept (b0 : BrickSt) (sig : BitVec 6) (store : Bool) (d : Fin 16) (rsSrc rsDst : SReg) (b : BrickSt) (h_b : BrickWf b) : BrickWf (startEffect b0 sig store d rsSrc rsDst b) := by
  unfold startEffect
  try dsimp only
  repeat' (with_reducible first | assumption | intro _ | apply brickWf_ite | split | apply brickWf_mem | apply brickWf_regs | apply brickWf_foldl | apply brickWf_mk)

theorem slotEffect_kept (b0 : BrickSt) (b : BrickSt) (s : Slot) (h_b : BrickWf b) : BrickWf (slotEffect b0 b s) := by
  unfold slotEffect
  try dsimp only
  repeat' (with_reducible first | assumption | intro _ | apply brickWf_ite | split | apply signalAt_kept | apply vectorEffect_kept | apply matrixEffect_kept | apply startEffect_kept | apply scalarEffect_kept)

theorem issueNow_kept (b0 : BrickSt) (bundle : List Slot) (h_b0 : BrickWf b0) : BrickWf (issueNow b0 bundle) := by
  unfold issueNow
  try dsimp only
  repeat' (with_reducible first | assumption | intro _ | apply brickWf_ite | split | apply consumeWait_kept | apply setPc_kept | apply slotEffect_kept | apply replayTake_kept | apply advance_kept | apply excEntry_kept | apply brickWf_mem | apply brickWf_regs | apply brickWf_foldl | apply brickWf_mk | apply memWf_mk | apply regsWf_upd)

end Sys2Proof.Machine
end

