-- ==== Sys2Proof/Laws/KeptOps.lean ====
section
/-!
SUPPORT. What every operation and meaning of Machine/Ops.lean keeps.
-/

namespace Sys2Proof.Machine

open Sys2Proof

theorem putPdie_kept {s₀ : State} (p : Nat) (x : PDie) (s : State) (h_s : Kept s₀ s) : Kept s₀ (putPdie p x s) := by
  unfold putPdie
  try dsimp only
  repeat' (with_reducible first | assumption | intro _ | apply kept_ite | apply keptOut_ite | split | apply kept_next | refine kept_of_eq (by assumption) ?_ | refine kept_of_eq_fst (by assumption) ?_ | apply kept_foldl | apply kept_foldl_snd | apply kept_foldl_fst | apply kept_upd | rfl)

theorem modPdie_kept {s₀ : State} (p : Nat) (f : PDie → PDie) (s : State) (h_s : Kept s₀ s) : Kept s₀ (modPdie p f s) := by
  unfold modPdie
  try dsimp only
  repeat' (with_reducible first | assumption | intro _ | apply kept_ite | apply keptOut_ite | split | apply putPdie_kept)

theorem putLdie_kept {s₀ : State} (l : Nat) (x : LDieQ) (s : State) (h_s : Kept s₀ s) : Kept s₀ (putLdie l x s) := by
  unfold putLdie
  try dsimp only
  repeat' (with_reducible first | assumption | intro _ | apply kept_ite | apply keptOut_ite | split | apply kept_next | refine kept_of_eq (by assumption) ?_ | refine kept_of_eq_fst (by assumption) ?_ | apply kept_foldl | apply kept_foldl_snd | apply kept_foldl_fst | apply kept_upd | rfl)

theorem modLdie_kept {s₀ : State} (l : Nat) (f : LDieQ → LDieQ) (s : State) (h_s : Kept s₀ s) : Kept s₀ (modLdie l f s) := by
  unfold modLdie
  try dsimp only
  repeat' (with_reducible first | assumption | intro _ | apply kept_ite | apply keptOut_ite | split | apply putLdie_kept)

theorem putPart_kept {s₀ : State} (p : Nat) (x : PartSt) (s : State) (h_s : Kept s₀ s) : Kept s₀ (putPart p x s) := by
  unfold putPart
  try dsimp only
  repeat' (with_reducible first | assumption | intro _ | apply kept_ite | apply keptOut_ite | split | apply kept_next | refine kept_of_eq (by assumption) ?_ | refine kept_of_eq_fst (by assumption) ?_ | apply kept_foldl | apply kept_foldl_snd | apply kept_foldl_fst | apply kept_upd | rfl)

theorem modPart_kept {s₀ : State} (p : Nat) (f : PartSt → PartSt) (s : State) (h_s : Kept s₀ s) : Kept s₀ (modPart p f s) := by
  unfold modPart
  try dsimp only
  repeat' (with_reducible first | assumption | intro _ | apply kept_ite | apply keptOut_ite | split | apply putPart_kept)

theorem putModel_kept {s₀ : State} (p : Nat) (x : ModelSt) (s : State) (h_s : Kept s₀ s) : Kept s₀ (putModel p x s) := by
  unfold putModel
  try dsimp only
  repeat' (with_reducible first | assumption | intro _ | apply kept_ite | apply keptOut_ite | split | apply kept_next | refine kept_of_eq (by assumption) ?_ | refine kept_of_eq_fst (by assumption) ?_ | apply kept_foldl | apply kept_foldl_snd | apply kept_foldl_fst | apply kept_upd | rfl)

theorem modModel_kept {s₀ : State} (p : Nat) (f : ModelSt → ModelSt) (s : State) (h_s : Kept s₀ s) : Kept s₀ (modModel p f s) := by
  unfold modModel
  try dsimp only
  repeat' (with_reducible first | assumption | intro _ | apply kept_ite | apply keptOut_ite | split | apply putModel_kept)

theorem cntPdie_kept {s₀ : State} (p k n : Nat) (s : State) (h_s : Kept s₀ s) : Kept s₀ (cntPdie p k n s) := by
  unfold cntPdie
  try dsimp only
  repeat' (with_reducible first | assumption | intro _ | apply kept_ite | apply keptOut_ite | split | apply modPdie_kept)

theorem cntLdie_kept {s₀ : State} (l k n : Nat) (s : State) (h_s : Kept s₀ s) : Kept s₀ (cntLdie l k n s) := by
  unfold cntLdie
  try dsimp only
  repeat' (with_reducible first | assumption | intro _ | apply kept_ite | apply keptOut_ite | split | apply modLdie_kept)

theorem cntSdie_kept {s₀ : State} (i k n : Nat) (s : State) (h_s : Kept s₀ s) : Kept s₀ (cntSdie i k n s) := by
  unfold cntSdie
  try dsimp only
  repeat' (with_reducible first | assumption | intro _ | apply kept_ite | apply keptOut_ite | split | apply modSdie_kept | apply kept_next | refine kept_of_eq (by assumption) ?_ | refine kept_of_eq_fst (by assumption) ?_ | apply kept_foldl | apply kept_foldl_snd | apply kept_foldl_fst | apply kept_upd | rfl | exact fused_upd | exact Nat.le_refl _ | exact Nat.le_add_right _ _ | exact Kept.sdie (by assumption) (by assumption) _ | apply sdieWf_dram | apply sdieWf_sram | apply sdieWf_mk)

theorem cntPart_kept {s₀ : State} (p k n : Nat) (s : State) (h_s : Kept s₀ s) : Kept s₀ (cntPart p k n s) := by
  unfold cntPart
  try dsimp only
  repeat' (with_reducible first | assumption | intro _ | apply kept_ite | apply keptOut_ite | split | apply modPart_kept)

theorem cntWdn_kept {s₀ : State} (k n : Nat) (s : State) (h_s : Kept s₀ s) : Kept s₀ (cntWdn k n s) := by
  unfold cntWdn
  try dsimp only
  repeat' (with_reducible first | assumption | intro _ | apply kept_ite | apply keptOut_ite | split | apply kept_next | refine kept_of_eq (by assumption) ?_ | refine kept_of_eq_fst (by assumption) ?_ | apply kept_foldl | apply kept_foldl_snd | apply kept_foldl_fst | apply kept_upd | rfl)

theorem takeFree_kept {s₀ : State} (s : State) (h_s : Kept s₀ s) : Kept s₀ (takeFree s).2 := by
  unfold takeFree
  try dsimp only
  repeat' (with_reducible first | assumption | intro _ | apply kept_ite | apply keptOut_ite | split | apply kept_next | refine kept_of_eq (by assumption) ?_ | refine kept_of_eq_fst (by assumption) ?_ | apply kept_foldl | apply kept_foldl_snd | apply kept_foldl_fst | apply kept_upd | rfl | exact fused_upd | exact Nat.le_refl _ | exact Nat.le_add_right _ _)

theorem raiseInt_kept {s₀ : State} (i : Nat) (s : State) (h_s : Kept s₀ s) : Kept s₀ (raiseInt i s) := by
  unfold raiseInt
  try dsimp only
  repeat' (with_reducible first | assumption | intro _ | apply kept_ite | apply keptOut_ite | split | apply kept_next | refine kept_of_eq (by assumption) ?_ | refine kept_of_eq_fst (by assumption) ?_ | apply kept_foldl | apply kept_foldl_snd | apply kept_foldl_fst | apply kept_upd | rfl | exact fused_upd)

theorem sendVec_kept {s₀ : State} (p v : Nat) (s : State) (h_s : Kept s₀ s) : Kept s₀ (sendVec p v s) := by
  unfold sendVec
  try dsimp only
  repeat' (with_reducible first | assumption | intro _ | apply kept_ite | apply keptOut_ite | split | apply putPart_kept | apply kept_next | refine kept_of_eq (by assumption) ?_ | refine kept_of_eq_fst (by assumption) ?_ | apply kept_foldl | apply kept_foldl_snd | apply kept_foldl_fst | apply kept_upd | rfl)

theorem askVec_kept {s₀ : State} (p v : Nat) (s : State) (h_s : Kept s₀ s) : Kept s₀ (askVec p v s) := by
  unfold askVec
  try dsimp only
  repeat' (with_reducible first | assumption | intro _ | apply kept_ite | apply keptOut_ite | split | apply putPart_kept | apply sendVec_kept)

theorem ringPut_kept {s₀ : State} (p r : Nat) (rec : List Byte) (s : State) (h_s : Kept s₀ s) : Kept s₀ (ringPut p r rec s) := by
  unfold ringPut
  try dsimp only
  repeat' (with_reducible first | assumption | intro _ | apply kept_ite | apply keptOut_ite | split | apply putPart_kept | apply askVec_kept | apply kept_next | refine kept_of_eq (by assumption) ?_ | refine kept_of_eq_fst (by assumption) ?_ | apply kept_foldl | apply kept_foldl_snd | apply kept_foldl_fst | apply kept_upd | rfl)

theorem loseEvent_kept {s₀ : State} (p : Nat) (s : State) (h_s : Kept s₀ s) : Kept s₀ (loseEvent p s) := by
  unfold loseEvent
  try dsimp only
  repeat' (with_reducible first | assumption | intro _ | apply kept_ite | apply keptOut_ite | split | apply cntPart_kept | apply modPart_kept | apply askVec_kept)

theorem ringRecord_kept {s₀ : State} (p r : Nat) (rec : List Byte) (s : State) (h_s : Kept s₀ s) : Kept s₀ (ringRecord p r rec s) := by
  unfold ringRecord
  try dsimp only
  repeat' (with_reducible first | assumption | intro _ | apply kept_ite | apply keptOut_ite | split | apply cntPart_kept | apply loseEvent_kept | apply ringPut_kept | apply putPart_kept)

theorem ringDrain_kept {s₀ : State} (p r n : Nat) (s : State) (h_s : Kept s₀ s) : Kept s₀ (ringDrain p r n s) := by
  induction n generalizing s with
  | zero => exact h_s
  | succ n ih =>
    unfold ringDrain
    dsimp only
    split
    · exact h_s
    · split
      · exact h_s
      · exact ih _ (ringPut_kept _ _ _ _ (modPart_kept _ _ _ h_s))

theorem event_kept {s₀ : State} (p code detail : Nat) (s : State) (h_s : Kept s₀ s) : Kept s₀ (event p code detail s) := by
  unfold event
  try dsimp only
  repeat' (with_reducible first | assumption | intro _ | apply kept_ite | apply keptOut_ite | split | apply ringRecord_kept)

theorem faultRecord_kept {s₀ : State} (kind cls det action : Nat) (unit : Word) (part halt : Nat) (detail : Word) (s : State) (h_s : Kept s₀ s) : Kept s₀ (faultRecord kind cls det action unit part halt detail s) := by
  unfold faultRecord
  try dsimp only
  repeat' (with_reducible first | assumption | intro _ | apply kept_ite | apply keptOut_ite | split | apply kept_next | refine kept_of_eq (by assumption) ?_ | refine kept_of_eq_fst (by assumption) ?_ | apply kept_foldl | apply kept_foldl_snd | apply kept_foldl_fst | apply kept_upd | rfl)

theorem modUnit_kept {s₀ : State} (k : Nat) (f : UnitSt → UnitSt) (s : State) (h_s : Kept s₀ s) : Kept s₀ (modUnit k f s) := by
  unfold modUnit
  try dsimp only
  repeat' (with_reducible first | assumption | intro _ | apply kept_ite | apply keptOut_ite | split | apply kept_next | refine kept_of_eq (by assumption) ?_ | refine kept_of_eq_fst (by assumption) ?_ | apply kept_foldl | apply kept_foldl_snd | apply kept_foldl_fst | apply kept_upd | rfl)

theorem auditRaw_kept {s₀ : State} (role path action : Nat) (keyId : DWord) (target : Nat) (result : Nat) (detail : List Byte) (s : State) (h_s : Kept s₀ s) : Kept s₀ (auditRaw role path action keyId target result detail s) := by
  unfold auditRaw
  try dsimp only
  repeat' (with_reducible first | assumption | intro _ | apply kept_ite | apply keptOut_ite | split | apply kept_next | refine kept_of_eq (by assumption) ?_ | refine kept_of_eq_fst (by assumption) ?_ | apply kept_foldl | apply kept_foldl_snd | apply kept_foldl_fst | apply kept_upd | rfl)

theorem audit_kept {s₀ : State} (p : Path) (action target result : Nat) (detail : List Byte) (s : State) (h_s : Kept s₀ s) : Kept s₀ (audit p action target result detail s) := by
  unfold audit
  try dsimp only
  repeat' (with_reducible first | assumption | intro _ | apply kept_ite | apply keptOut_ite | split | apply auditRaw_kept)

theorem auditDevice_kept {s₀ : State} (action target result : Nat) (detail : List Byte) (s : State) (h_s : Kept s₀ s) : Kept s₀ (auditDevice action target result detail s) := by
  unfold auditDevice
  try dsimp only
  repeat' (with_reducible first | assumption | intro _ | apply kept_ite | apply keptOut_ite | split | apply auditRaw_kept)

theorem auditRefused_kept {s₀ : State} (p : Path) (action target : Nat) (s : State) (h_s : Kept s₀ s) : Kept s₀ (auditRefused p action target s) := by
  have hrec : ∀ t, Kept s₀ t → Kept s₀ (auditRefused.rec_ p action target t) := by
    intro t ht
    have h1 := audit_kept p action target 2 [] t ht
    exact ⟨h1.wf, h1.pending, h1.free, h1.time, h1.fused⟩
  unfold auditRefused
  split
  · split
    · exact ⟨h_s.wf, h_s.pending, h_s.free, h_s.time, h_s.fused⟩
    · exact hrec s h_s
  · exact hrec s h_s

theorem touchSession_kept {s₀ : State} (p : Path) (s : State) (h_s : Kept s₀ s) : Kept s₀ (touchSession p s) := by
  unfold touchSession
  try dsimp only
  repeat' (with_reducible first | assumption | intro _ | apply kept_ite | apply keptOut_ite | split | apply kept_next | refine kept_of_eq (by assumption) ?_ | refine kept_of_eq_fst (by assumption) ?_ | apply kept_foldl | apply kept_foldl_snd | apply kept_foldl_fst | apply kept_upd | rfl)

theorem commandWith_kept {s₀ : State} (p : Path) (rights action target : Nat) (ok : State → Bool) (detail : List Byte) (refused : State → State) (effect : State → State) (s : State) (h_refused : ∀ s, Kept s₀ s → Kept s₀ (refused s)) (h_effect : ∀ s, Kept s₀ s → Kept s₀ (effect s)) (h_s : Kept s₀ s) : Kept s₀ (commandWith p rights action target ok detail refused effect s) := by
  unfold commandWith
  try dsimp only
  repeat' (with_reducible first | assumption | intro _ | apply kept_ite | apply keptOut_ite | split | apply audit_kept | apply touchSession_kept | apply auditRefused_kept | apply h_refused | apply h_effect)

theorem command_kept {s₀ : State} (p : Path) (rights action target : Nat) (refused : State → State) (effect : State → State) (s : State) (h_refused : ∀ s, Kept s₀ s → Kept s₀ (refused s)) (h_effect : ∀ s, Kept s₀ s → Kept s₀ (effect s)) (h_s : Kept s₀ s) : Kept s₀ (command p rights action target refused effect s) := by
  unfold command
  try dsimp only
  repeat' (with_reducible first | assumption | intro _ | apply kept_ite | apply keptOut_ite | split | apply commandWith_kept)

theorem scheduleTc_kept {s₀ : State} (t : DWord) (kind : Fin 3) (p : Part) (s : State) (h_s : Kept s₀ s) : Kept s₀ (scheduleTc t kind p s) := by
  unfold scheduleTc
  try dsimp only
  repeat' (with_reducible first | assumption | intro _ | apply kept_ite | apply keptOut_ite | split | apply kept_next | refine kept_of_eq (by assumption) ?_ | refine kept_of_eq_fst (by assumption) ?_ | apply kept_foldl | apply kept_foldl_snd | apply kept_foldl_fst | apply kept_upd | rfl | exact fused_upd)

theorem passTc_kept {s₀ : State} (t : DWord) (kind : Fin 3) (p : Part) (s : State) (h_s : Kept s₀ s) : Kept s₀ (passTc t kind p s) := by
  unfold passTc
  try dsimp only
  repeat' (with_reducible first | assumption | intro _ | apply kept_ite | apply keptOut_ite | split | apply kept_next | refine kept_of_eq (by assumption) ?_ | refine kept_of_eq_fst (by assumption) ?_ | apply kept_foldl | apply kept_foldl_snd | apply kept_foldl_fst | apply kept_upd | rfl | exact fused_upd)

theorem modEpoch_kept {s₀ : State} (p : Nat) (e : BitVec 16) (f : ModelEpoch → ModelEpoch) (s : State) (h_s : Kept s₀ s) : Kept s₀ (modEpoch p e f s) := by
  unfold modEpoch
  try dsimp only
  repeat' (with_reducible first | assumption | intro _ | apply kept_ite | apply keptOut_ite | split | apply modModel_kept)

theorem raiseInflight_kept {s₀ : State} (p : Nat) (e : BitVec 16) (se : Word) (s : State) (h_s : Kept s₀ s) : Kept s₀ (raiseInflight p e se s) := by
  unfold raiseInflight
  try dsimp only
  repeat' (with_reducible first | assumption | intro _ | apply kept_ite | apply keptOut_ite | split | apply modEpoch_kept | apply kept_next | refine kept_of_eq (by assumption) ?_ | refine kept_of_eq_fst (by assumption) ?_ | apply kept_foldl | apply kept_foldl_snd | apply kept_foldl_fst | apply kept_upd | rfl)

theorem retireStruct_kept {s₀ : State} (s : State) (h_s : Kept s₀ s) : Kept s₀ (retireStruct s) := by
  unfold retireStruct
  try dsimp only
  repeat' (with_reducible first | assumption | intro _ | apply kept_ite | apply keptOut_ite | split | apply kept_next | refine kept_of_eq (by assumption) ?_ | refine kept_of_eq_fst (by assumption) ?_ | apply kept_foldl | apply kept_foldl_snd | apply kept_foldl_fst | apply kept_upd | rfl)

theorem broadcastTc_kept {s₀ : State} (p : Nat) (s : State) (h_s : Kept s₀ s) : Kept s₀ (broadcastTc p s) := by
  unfold broadcastTc
  try dsimp only
  repeat' (with_reducible first | assumption | intro _ | apply kept_ite | apply keptOut_ite | split | apply scheduleTc_kept | apply putModel_kept)

theorem lowerInflight_kept {s₀ : State} (p : Nat) (e : BitVec 16) (se : Word) (s : State) (h_s : Kept s₀ s) : Kept s₀ (lowerInflight p e se s) := by
  unfold lowerInflight
  try dsimp only
  repeat' (with_reducible first | assumption | intro _ | apply kept_ite | apply keptOut_ite | split | apply broadcastTc_kept | apply modEpoch_kept | apply retireStruct_kept | apply kept_next | refine kept_of_eq (by assumption) ?_ | refine kept_of_eq_fst (by assumption) ?_ | apply kept_foldl | apply kept_foldl_snd | apply kept_foldl_fst | apply kept_upd | rfl)

theorem putPort_kept {s₀ : State} (p : Nat) (x : PortSt) (s : State) (h_s : Kept s₀ s) : Kept s₀ (putPort p x s) := by
  unfold putPort
  try dsimp only
  repeat' (with_reducible first | assumption | intro _ | apply kept_ite | apply keptOut_ite | split | apply kept_next | refine kept_of_eq (by assumption) ?_ | refine kept_of_eq_fst (by assumption) ?_ | apply kept_foldl | apply kept_foldl_snd | apply kept_foldl_fst | apply kept_upd | rfl)

theorem modPort_kept {s₀ : State} (p : Nat) (f : PortSt → PortSt) (s : State) (h_s : Kept s₀ s) : Kept s₀ (modPort p f s) := by
  unfold modPort
  try dsimp only
  repeat' (with_reducible first | assumption | intro _ | apply kept_ite | apply keptOut_ite | split | apply putPort_kept)

theorem emit_kept {s₀ : State} (s : State) (st : Stamped) (a : Answer) (final prov : Bool) (h_s : Kept s₀ s) : Kept s₀ (emit s st a final prov) := by
  unfold emit
  try dsimp only
  repeat' (with_reducible first | assumption | intro _ | apply kept_ite | apply keptOut_ite | split | apply modLdie_kept)

theorem finalVerdict_kept {s₀ : State} (st : Stamped) (a : Answer) (s : State) (h_s : Kept s₀ s) : Kept s₀ (finalVerdict st a s) := by
  unfold finalVerdict
  try dsimp only
  repeat' (with_reducible first | assumption | intro _ | apply kept_ite | apply keptOut_ite | split | apply emit_kept | apply cntPart_kept | apply modPart_kept | apply lowerInflight_kept)

theorem provisionalVerdict_kept {s₀ : State} (st : Stamped) (a : Answer) (s : State) (h_s : Kept s₀ s) : Kept s₀ (provisionalVerdict st a s) := by
  unfold provisionalVerdict
  try dsimp only
  repeat' (with_reducible first | assumption | intro _ | apply kept_ite | apply keptOut_ite | split | apply emit_kept)

theorem noteClamp_kept {s₀ : State} (k : Nat) (clamped : Bool) (s : State) (h_s : Kept s₀ s) : Kept s₀ (noteClamp k clamped s) := by
  unfold noteClamp
  try dsimp only
  repeat' (with_reducible first | assumption | intro _ | apply kept_ite | apply keptOut_ite | split | apply kept_next | refine kept_of_eq (by assumption) ?_ | refine kept_of_eq_fst (by assumption) ?_ | apply kept_foldl | apply kept_foldl_snd | apply kept_foldl_fst | apply kept_upd | rfl)

theorem loopOutput_kept {s₀ : State} (i p wish : Nat) (s : State) (h_s : Kept s₀ s) : Kept s₀ (loopOutput i p wish s) := by
  unfold loopOutput
  try dsimp only
  repeat' (with_reducible first | assumption | intro _ | apply kept_ite | apply keptOut_ite | split | apply noteClamp_kept | apply kept_next | refine kept_of_eq (by assumption) ?_ | refine kept_of_eq_fst (by assumption) ?_ | apply kept_foldl | apply kept_foldl_snd | apply kept_foldl_fst | apply kept_upd | rfl)

end Sys2Proof.Machine
end

