-- ==== Sys2Proof/Laws/KeptBrickDev.lean ====
section
/-!
SUPPORT. What every operation and meaning of Machine/BrickDev.lean keeps.
-/

namespace Sys2Proof.Machine

open Sys2Proof

theorem freezeBrick_kept (b : BrickSt) (h_b : BrickWf b) : BrickWf (freezeBrick b) := by
  unfold freezeBrick
  try dsimp only
  repeat' (with_reducible first | assumption | intro _ | apply brickWf_ite | split | apply brickWf_mem | apply brickWf_regs | apply brickWf_foldl | apply brickWf_mk)

theorem freezeCourse_kept {s₀ : State} (c : Nat) (s : State) (h_s : Kept s₀ s) : Kept s₀ (freezeCourse c s) := by
  unfold freezeCourse
  try dsimp only
  repeat' (with_reducible first | assumption | intro _ | apply kept_ite | apply keptOut_ite | split | apply modBrick_kept | apply freezeBrick_kept | apply kept_next | refine kept_of_eq (by assumption) ?_ | refine kept_of_eq_fst (by assumption) ?_ | apply kept_foldl)

theorem thawBrick_kept (b : BrickSt) (h_b : BrickWf b) : BrickWf (thawBrick b) := by
  unfold thawBrick
  try dsimp only
  repeat' (with_reducible first | assumption | intro _ | apply brickWf_ite | split | apply brickWf_mem | apply brickWf_regs | apply brickWf_foldl | apply brickWf_mk)

theorem thawCourse_kept {s₀ : State} (c : Nat) (s : State) (h_s : Kept s₀ s) : Kept s₀ (thawCourse c s) := by
  unfold thawCourse
  try dsimp only
  repeat' (with_reducible first | assumption | intro _ | apply kept_ite | apply keptOut_ite | split | apply modBrick_kept | apply thawBrick_kept | apply kept_next | refine kept_of_eq (by assumption) ?_ | refine kept_of_eq_fst (by assumption) ?_ | apply kept_foldl)

theorem failPalletsOn_kept {s₀ : State} (b : Nat) (s : State) (h_s : Kept s₀ s) : Kept s₀ (failPalletsOn b s) := by
  refine ⟨fun w => ⟨(h_s.wf w).1, fun d hd => ?_⟩, h_s.pending, h_s.free, h_s.time, h_s.fused⟩
  obtain ⟨x, hx, rfl⟩ := List.mem_map.1 hd
  exact (h_s.wf w).2 x hx

theorem afterHalt_kept {s₀ : State} (b : Nat) (x : BrickSt) (s : State) (h_x : Wf s₀ → BrickWf x) (h_s : Kept s₀ s) : Kept s₀ (afterHalt b x s) := by
  unfold afterHalt
  try dsimp only
  repeat' (with_reducible first | assumption | intro _ | apply kept_ite | apply keptOut_ite | split | apply failPalletsOn_kept | apply putBrick_kept | apply freezeCourse_kept)

theorem haltDev_kept {s₀ : State} (b : Nat) (reason : Byte) (slot : Fin 8) (pc : BitVec 13) (info : Word) (s : State) (h_s : Kept s₀ s) : Kept s₀ (haltDev b reason slot pc info s) := by
  unfold haltDev
  try dsimp only
  repeat' (with_reducible first | assumption | intro _ | apply kept_ite | apply keptOut_ite | split | apply afterHalt_kept | apply haltBrick_kept | apply kept_next | refine kept_of_eq (by assumption) ?_ | refine kept_of_eq_fst (by assumption) ?_ | apply kept_foldl | apply kept_foldl_snd | apply kept_foldl_fst | apply kept_upd | rfl | exact fused_upd | exact Nat.le_refl _ | exact Nat.le_add_right _ _ | exact Kept.brick (by assumption) (by assumption) _)

theorem haltStream_kept {s₀ : State} (b : Nat) (reason : Byte) (slot : Fin 8) (st : Stream) (info : Word) (poison : Bool) (s : State) (h_s : Kept s₀ s) : Kept s₀ (haltStream b reason slot st info poison s) := by
  unfold haltStream
  try dsimp only
  repeat' (with_reducible first | assumption | intro _ | apply kept_ite | apply keptOut_ite | split | apply modBrick_kept | apply haltDev_kept | apply kept_next | refine kept_of_eq (by assumption) ?_ | refine kept_of_eq_fst (by assumption) ?_ | apply kept_foldl | apply kept_foldl_snd | apply kept_foldl_fst | apply kept_upd | rfl | exact fused_upd | exact Nat.le_refl _ | exact Nat.le_add_right _ _ | exact Kept.brick (by assumption) (by assumption) _ | apply brickWf_mem | apply brickWf_regs | apply brickWf_foldl | apply brickWf_mk)

theorem haltedBy_kept (bundle : List Slot) (x : BrickSt) (h_x : BrickWf x) : BrickWf (haltedBy bundle x) := by
  unfold haltedBy
  try dsimp only
  repeat' (with_reducible first | assumption | intro _ | apply brickWf_ite | split | apply brickWf_mem | apply brickWf_regs | apply brickWf_foldl | apply brickWf_mk)

theorem countEngines_kept (n : Nat) (issuing stalled : List Nat) (b : BrickSt) (h_b : BrickWf b) : BrickWf (countEngines n issuing stalled b) := by
  unfold countEngines
  try dsimp only
  repeat' (with_reducible first | assumption | intro _ | apply brickWf_ite | split | apply brickWf_mem | apply brickWf_regs | apply brickWf_foldl | apply brickWf_mk)

theorem countStall_kept (n reason : Nat) (b : BrickSt) (h_b : BrickWf b) : BrickWf (countStall n reason b) := by
  unfold countStall
  try dsimp only
  repeat' (with_reducible first | assumption | intro _ | apply brickWf_ite | split | apply brickWf_mem | apply brickWf_regs | apply brickWf_foldl | apply brickWf_mk)

theorem ringSend_kept {s₀ : State} (b d : Nat) (s : State) (h_s : Kept s₀ s) : Kept s₀ (ringSend b d s) := by
  unfold ringSend
  try dsimp only
  repeat' (with_reducible first | assumption | intro _ | apply kept_ite | apply keptOut_ite | split | apply modBrick_kept | apply kept_next | refine kept_of_eq (by assumption) ?_ | refine kept_of_eq_fst (by assumption) ?_ | apply kept_foldl | apply kept_foldl_snd | apply kept_foldl_fst | apply kept_upd | rfl | exact fused_upd | exact Nat.le_refl _ | exact Nat.le_add_right _ _ | exact Kept.brick (by assumption) (by assumption) _ | apply brickWf_mem | apply brickWf_regs | apply brickWf_foldl | apply brickWf_mk)

theorem wakeBrick_kept {s₀ : State} (b : Nat) (s : State) (h_s : Kept s₀ s) : Kept s₀ (wakeBrick b s) := by
  unfold wakeBrick
  try dsimp only
  repeat' (with_reducible first | assumption | intro _ | apply kept_ite | apply keptOut_ite | split | apply afterHalt_kept | apply haltBrick_kept | apply putBrick_kept | apply replayTake_kept | apply kept_next | refine kept_of_eq (by assumption) ?_ | refine kept_of_eq_fst (by assumption) ?_ | apply kept_foldl | apply kept_foldl_snd | apply kept_foldl_fst | apply kept_upd | rfl | exact fused_upd | exact Nat.le_refl _ | exact Nat.le_add_right _ _ | exact Kept.brick (by assumption) (by assumption) _ | apply brickWf_mem | apply brickWf_regs | apply brickWf_foldl | apply brickWf_mk)

theorem wakeGroup_kept {s₀ : State} (bs : List Nat) (s : State) (h_s : Kept s₀ s) : Kept s₀ (wakeGroup bs s) := by
  unfold wakeGroup
  try dsimp only
  repeat' (with_reducible first | assumption | intro _ | apply kept_ite | apply keptOut_ite | split | apply modBrick_kept | apply wakeBrick_kept | apply kept_next | refine kept_of_eq (by assumption) ?_ | refine kept_of_eq_fst (by assumption) ?_ | apply kept_foldl | apply kept_foldl_snd | apply kept_foldl_fst | apply kept_upd | rfl | exact fused_upd | exact Nat.le_refl _ | exact Nat.le_add_right _ _ | exact Kept.brick (by assumption) (by assumption) _ | apply brickWf_mem | apply brickWf_regs | apply brickWf_foldl | apply brickWf_mk)

theorem stallBrick_kept {s₀ : State} (b : Nat) (x : BrickSt) (bundle : List Slot) (waits : List (BitVec 6)) (replay : Bool) (s : State) (h_x : Wf s₀ → BrickWf x) (h_s : Kept s₀ s) : Kept s₀ (stallBrick b x bundle waits replay s) := by
  unfold stallBrick
  try dsimp only
  repeat' (with_reducible first | assumption | intro _ | apply kept_ite | apply keptOut_ite | split | apply countStall_kept | apply freezeCourse_kept | apply putBrick_kept | apply h_x | apply kept_next | refine kept_of_eq (by assumption) ?_ | refine kept_of_eq_fst (by assumption) ?_ | apply kept_foldl | apply kept_foldl_snd | apply kept_foldl_fst | apply kept_upd | rfl | exact fused_upd | exact Nat.le_refl _ | exact Nat.le_add_right _ _ | exact Kept.brick (by assumption) (by assumption) _ | apply brickWf_mem | apply brickWf_regs | apply brickWf_foldl | apply brickWf_mk)

/-- The brick of an issue's outcome. -/
def Issued.brick : Issued → BrickSt
  | .halted b => b
  | .stalled b _ _ => b
  | .done b => b

theorem issueBundle_kept (hb : Bool) (b : BrickSt) (bundle : List Slot) (h : BrickWf b) : BrickWf (issueBundle hb b bundle).brick := by
  have hh : ∀ x, BrickWf x → BrickWf (Issued.halted x).brick := fun _ h => h
  have hs : ∀ x w r, BrickWf x → BrickWf (Issued.stalled x w r).brick := fun _ _ _ h => h
  have hd : ∀ x, BrickWf x → BrickWf (Issued.done x).brick := fun _ h => h
  unfold issueBundle
  dsimp only
  repeat' (with_reducible first | assumption | split | apply hh | apply hs | apply hd | apply haltBrick_kept | apply issueNow_kept | apply advanceTo_kept)

theorem presentBundle_kept {s₀ : State} (b : Nat) (bundle : List Slot) (s : State) (h_s : Kept s₀ s) : Kept s₀ (presentBundle b bundle s) := by
  have hy : Wf s₀ → BrickWf (if !(brickAt s b).c.lockstep || isReplay bundle then takeAsync (brickAt s b) else brickAt s b) := by
    intro w
    split
    · exact takeAsync_kept _ (h_s.brick w b)
    · exact h_s.brick w b
  have hz : ∀ hbt, Wf s₀ → BrickWf (issueBundle hbt (if !(brickAt s b).c.lockstep || isReplay bundle then takeAsync (brickAt s b) else brickAt s b) bundle).brick :=
    fun hbt w => issueBundle_kept hbt _ bundle (hy w)
  unfold presentBundle
  dsimp only
  revert hy hz
  generalize (if !(brickAt s b).c.lockstep || isReplay bundle then takeAsync (brickAt s b) else brickAt s b) = y
  intro hy hz
  split
  · exact h_s
  · split
    · exact afterHalt_kept b y s hy h_s
    · split
      · exact freezeCourse_kept _ _ (putBrick_kept hy h_s)
      · specialize hz (hasButtress s)
        split
        · rename_i z hi
          rw [hi] at hz
          exact afterHalt_kept b _ s hz h_s
        · rename_i z waits rp hi
          rw [hi] at hz
          exact stallBrick_kept b z bundle waits rp s hz h_s
        · rename_i z hi
          rw [hi] at hz
          have hp : ∀ z', BrickWf z' → BrickWf (countEngines (z.r.cycle - y.r.cycle) ((bundle.filter slotBusy).map (fun t => engineOf t.pos)) [] z') :=
            fun z' hz' => countEngines_kept _ _ _ _ hz'
          have hs : ∀ x : BrickSt, (Wf s₀ → BrickWf x) → Kept s₀ (bundle.foldl (fun s t => match t.op with
              | .start true d _ _ => ringSend b d.val s
              | _ => s) (putBrick b x s)) := by
            intro x hx
            refine kept_foldl (fun s t hk => ?_) (putBrick_kept hx h_s)
            split
            · exact ringSend_kept b _ s hk
            · exact hk
          split
          · exact afterHalt_kept b _ _ (fun w => (hp z (hz w) :)) (hs _ (fun w => hp z (hz w)))
          · exact hs _ (fun w => hp z (hz w))

theorem issueSlot_kept {s₀ : State} (c : BCtl) (pos : SlotPos) (op : SlotOp) (s : State) (h_s : Kept s₀ s) : Kept s₀ (issueSlot c pos op s) := by
  unfold issueSlot
  try dsimp only
  repeat' (with_reducible first | assumption | intro _ | apply kept_ite | apply keptOut_ite | split | apply modBrick_kept | apply presentBundle_kept | apply kept_next | refine kept_of_eq (by assumption) ?_ | refine kept_of_eq_fst (by assumption) ?_ | apply kept_foldl | apply kept_foldl_snd | apply kept_foldl_fst | apply kept_upd | rfl | exact fused_upd | exact Nat.le_refl _ | exact Nat.le_add_right _ _ | exact Kept.brick (by assumption) (by assumption) _ | apply brickWf_mem | apply brickWf_regs | apply brickWf_foldl | apply brickWf_mk)

theorem runTo_kept {s₀ : State} (b : Nat) (t : Option Nat) (s : State) (h_s : Kept s₀ s) : Kept s₀ (runTo b t s) := by
  unfold runTo
  try dsimp only
  repeat' (with_reducible first | assumption | intro _ | apply kept_ite | apply keptOut_ite | split | apply putBrick_kept | apply advanceTo_kept | apply kept_next | refine kept_of_eq (by assumption) ?_ | refine kept_of_eq_fst (by assumption) ?_ | apply kept_foldl | apply kept_foldl_snd | apply kept_foldl_fst | apply kept_upd | rfl | exact fused_upd | exact Nat.le_refl _ | exact Nat.le_add_right _ _ | exact Kept.brick (by assumption) (by assumption) _)

theorem streamSignal_kept (id : BitVec 6) (b : BrickSt) (h_b : BrickWf b) : BrickWf (streamSignal id b) := by
  unfold streamSignal
  try dsimp only
  repeat' (with_reducible first | assumption | intro _ | apply brickWf_ite | split | apply signalAt_kept | apply raiseSig_kept)

theorem streamMoved_kept (d n : Nat) (st : Stream) (b : BrickSt) (h_b : BrickWf b) : BrickWf (streamMoved d n st b) := by
  unfold streamMoved
  try dsimp only
  repeat' (with_reducible first | assumption | intro _ | apply brickWf_ite | split | apply streamTrace_kept | apply streamSignal_kept | apply brickWf_mem | apply brickWf_regs | apply brickWf_foldl | apply brickWf_mk)

theorem chunkDone_kept {s₀ : State} (b d : Nat) (s : State) (h_s : Kept s₀ s) : Kept s₀ (chunkDone b d s) := by
  unfold chunkDone
  try dsimp only
  repeat' (with_reducible first | assumption | intro _ | apply kept_ite | apply keptOut_ite | split | apply haltStream_kept | apply bmemWrite_kept | apply thawCourse_kept | apply putBrick_kept | apply streamMoved_kept | apply kept_next | refine kept_of_eq (by assumption) ?_ | refine kept_of_eq_fst (by assumption) ?_ | apply kept_foldl | apply kept_foldl_snd | apply kept_foldl_fst | apply kept_upd | rfl | exact fused_upd | exact Nat.le_refl _ | exact Nat.le_add_right _ _ | exact Kept.brick (by assumption) (by assumption) _)

theorem ringArrive_kept {s₀ : State} (b : Nat) (s : State) (h_s : Kept s₀ s) : Kept s₀ (ringArrive b s) := by
  unfold ringArrive
  try dsimp only
  repeat' (with_reducible first | assumption | intro _ | apply kept_ite | apply keptOut_ite | split | apply haltStream_kept | apply putBrick_kept | apply streamMoved_kept | apply bmemWrite_kept | apply modBrick_kept | apply kept_next | refine kept_of_eq (by assumption) ?_ | refine kept_of_eq_fst (by assumption) ?_ | apply kept_foldl | apply kept_foldl_snd | apply kept_foldl_fst | apply kept_upd | rfl | exact fused_upd | exact Nat.le_refl _ | exact Nat.le_add_right _ _ | exact Kept.brick (by assumption) (by assumption) _ | apply brickWf_mem | apply brickWf_regs | apply brickWf_foldl | apply brickWf_mk)

theorem answerSlowOn_kept {s₀ : State} (b : Nat) (s : State) (h_s : Kept s₀ s) : Kept s₀ (answerSlowOn b s) := by
  unfold answerSlowOn
  try dsimp only
  repeat' (with_reducible first | assumption | intro _ | apply finalVerdict_kept | apply cntPdie_kept | apply kept_foldl | refine kept_of_eq (by assumption) ?_ | apply kept_upd | rfl)

theorem fenceBrick_kept {s₀ : State} (b : Nat) (s : State) (h_s : Kept s₀ s) : Kept s₀ (fenceBrick b s) := by
  unfold fenceBrick
  try dsimp only
  repeat' (with_reducible first | assumption | intro _ | apply kept_ite | apply keptOut_ite | split | apply answerSlowOn_kept | apply failPalletsOn_kept | apply putBrick_kept | apply cntWdn_kept | apply thawCourse_kept | apply kept_next | refine kept_of_eq (by assumption) ?_ | refine kept_of_eq_fst (by assumption) ?_ | apply kept_foldl | apply kept_foldl_snd | apply kept_foldl_fst | apply kept_upd | rfl | exact fused_upd | exact Nat.le_refl _ | exact Nat.le_add_right _ _ | exact Kept.brick (by assumption) (by assumption) _ | apply brickWf_mem | apply brickWf_regs | apply brickWf_foldl | apply brickWf_mk)

theorem retireBrick_kept {s₀ : State} (b : Nat) (s : State) (h_s : Kept s₀ s) : Kept s₀ (retireBrick b s) := by
  unfold retireBrick
  try dsimp only
  repeat' (with_reducible first | assumption | intro _ | apply kept_ite | apply keptOut_ite | split | apply modBrick_kept | apply kept_next | refine kept_of_eq (by assumption) ?_ | refine kept_of_eq_fst (by assumption) ?_ | apply kept_foldl | apply kept_foldl_snd | apply kept_foldl_fst | apply kept_upd | rfl | exact fused_upd | exact Nat.le_refl _ | exact Nat.le_add_right _ _ | exact Kept.brick (by assumption) (by assumption) _ | apply brickWf_mem | apply brickWf_regs | apply brickWf_foldl | apply brickWf_mk)

theorem retireGroups_kept {s₀ : State} (b : Nat) (gs : List (Fin 16)) (s : State) (h_s : Kept s₀ s) : Kept s₀ (retireGroups b gs s) := by
  unfold retireGroups
  try dsimp only
  repeat' (with_reducible first | assumption | intro _ | apply kept_ite | apply keptOut_ite | split | apply fenceBrick_kept | apply cntWdn_kept | apply raiseInt_kept | apply modBrick_kept | apply faultRecord_kept | apply retireBrick_kept | apply kept_next | refine kept_of_eq (by assumption) ?_ | refine kept_of_eq_fst (by assumption) ?_ | apply kept_foldl | apply kept_foldl_snd | apply kept_foldl_fst | apply kept_upd | rfl | exact fused_upd | exact Nat.le_refl _ | exact Nat.le_add_right _ _ | exact Kept.brick (by assumption) (by assumption) _ | apply brickWf_mem | apply brickWf_regs | apply brickWf_foldl | apply brickWf_mk)

theorem noteTransient_kept {s₀ : State} (k : Nat) (s : State) (h_s : Kept s₀ s) : Kept s₀ (noteTransient k s).1 := by
  unfold noteTransient
  try dsimp only
  repeat' (with_reducible first | assumption | intro _ | apply kept_ite | apply keptOut_ite | split | apply cntWdn_kept | apply modUnit_kept)

theorem clearSuspect_kept {s₀ : State} (b : Nat) (gs : List (Fin 16)) (s : State) (h_s : Kept s₀ s) : Kept s₀ (clearSuspect b gs s) := by
  unfold clearSuspect
  try dsimp only
  repeat' (with_reducible first | assumption | intro _ | apply kept_ite | apply keptOut_ite | split | apply modBrick_kept | apply noteTransient_kept | apply retireGroups_kept | apply faultRecord_kept | apply kept_next | refine kept_of_eq (by assumption) ?_ | refine kept_of_eq_fst (by assumption) ?_ | apply kept_foldl | apply kept_foldl_snd | apply kept_foldl_fst | apply kept_upd | rfl | exact fused_upd | exact Nat.le_refl _ | exact Nat.le_add_right _ _ | exact Kept.brick (by assumption) (by assumption) _ | apply brickWf_mem | apply brickWf_regs | apply brickWf_foldl | apply brickWf_mk)

theorem arrayError_kept {s₀ : State} (b : Nat) (gs : List (Fin 16)) (kind : Fin 8) (s : State) (h_s : Kept s₀ s) : Kept s₀ (arrayError b gs kind s) := by
  unfold arrayError
  try dsimp only
  repeat' (with_reducible first | assumption | intro _ | apply kept_ite | apply keptOut_ite | split | apply failPalletsOn_kept | apply putBrick_kept | apply retireGroups_kept | apply faultRecord_kept | apply cntWdn_kept | apply raiseInt_kept | apply fenceBrick_kept | apply clearSuspect_kept | apply kept_next | refine kept_of_eq (by assumption) ?_ | refine kept_of_eq_fst (by assumption) ?_ | apply kept_foldl | apply kept_foldl_snd | apply kept_foldl_fst | apply kept_upd | rfl | exact fused_upd | exact Nat.le_refl _ | exact Nat.le_add_right _ _ | exact Kept.brick (by assumption) (by assumption) _ | apply brickWf_mem | apply brickWf_regs | apply brickWf_foldl | apply brickWf_mk)

end Sys2Proof.Machine
end

