-- ==== Sys2Proof/Laws/KeptIngress.lean ====
section
/-!
SUPPORT. What every operation and meaning of Machine/Ingress.lean keeps.
-/

namespace Sys2Proof.Machine

open Sys2Proof

theorem trace_kept {s₀ : State} (kind dieKind die lane part : Nat) (data : List Byte) (s : State) (h_s : Kept s₀ s) : Kept s₀ (trace kind dieKind die lane part data s) := by
  unfold trace
  try dsimp only
  repeat' (with_reducible first | assumption | intro _ | apply kept_ite | apply keptOut_ite | split | apply kept_next | refine kept_of_eq (by assumption) ?_ | refine kept_of_eq_fst (by assumption) ?_ | apply kept_foldl | apply kept_foldl_snd | apply kept_foldl_fst | apply kept_upd | rfl)

theorem returnCredits_kept {s₀ : State} (c : FeedCfg) (s : State) (h_s : Kept s₀ s) : Kept s₀ (returnCredits c s) := by
  unfold returnCredits
  try dsimp only
  repeat' (with_reducible first | assumption | intro _ | apply kept_ite | apply keptOut_ite | split | apply putPort_kept)

theorem acceptSlice_kept {s₀ : State} (l : Nat) (x : Slice) (s : State) (h_s : Kept s₀ s) : Kept s₀ (acceptSlice l x s) := by
  unfold acceptSlice
  try dsimp only
  repeat' (with_reducible first | assumption | intro _ | apply kept_ite | apply keptOut_ite | split | apply modLdie_kept | apply trace_kept)

theorem execSliceIn_kept {s₀ : State} (port : LPort) (feed : Local) (s : State) (h_s : Kept s₀ s) : KeptOut s₀ (execSliceIn port feed s) := by
  unfold execSliceIn
  try dsimp only
  repeat' (with_reducible first | assumption | intro _ | apply kept_ite | apply keptOut_ite | split | apply modPort_kept | apply acceptSlice_kept | apply kept_next)

theorem stampSlice_kept {s₀ : State} (l : Nat) (x : Slice) (s : State) (h_s : Kept s₀ s) : Kept s₀ (stampSlice l x s).2 := by
  unfold stampSlice
  try dsimp only
  repeat' (with_reducible first | assumption | intro _ | apply kept_ite | apply keptOut_ite | split | apply putLdie_kept | apply cntLdie_kept | apply raiseInflight_kept)

theorem ledgerTo_kept {s₀ : State} (l lid : Nat) (p : Die) (s : State) (h_s : Kept s₀ s) : Kept s₀ (ledgerTo l lid p s) := by
  unfold ledgerTo
  try dsimp only
  repeat' (with_reducible first | assumption | intro _ | apply kept_ite | apply keptOut_ite | split | apply modLdie_kept)

theorem execSliceRelease_kept {s₀ : State} (l : Die) (s : State) (h_s : Kept s₀ s) : KeptOut s₀ (execSliceRelease l s) := by
  unfold execSliceRelease
  try dsimp only
  repeat' (with_reducible first | assumption | intro _ | apply kept_ite | apply keptOut_ite | split | apply putLdie_kept | apply returnCredits_kept | apply stampSlice_kept | apply cntLdie_kept | apply finalVerdict_kept | apply ledgerTo_kept | apply modPdie_kept | apply kept_next)

end Sys2Proof.Machine
end

