-- ==== Sys2Proof/Laws/KeptBrickRegs.lean ====
section
/-!
SUPPORT. What every operation and meaning of Machine/BrickRegs.lean keeps.
-/

namespace Sys2Proof.Machine

open Sys2Proof

theorem brkClear_kept (o : Nat) (x : BrickSt) (h_x : BrickWf x) : BrickWf (brkClear o x) := by
  unfold brkClear
  try dsimp only
  repeat' (with_reducible first | assumption | intro _ | apply brickWf_ite | split | apply brickWf_mem | apply brickWf_regs | apply brickWf_foldl | apply brickWf_mk)

theorem qstatSnap_kept (x : BrickSt) (h_x : BrickWf x) : BrickWf (qstatSnap x) := by
  unfold qstatSnap
  try dsimp only
  repeat' (with_reducible first | assumption | intro _ | apply brickWf_ite | split | apply brickWf_mem | apply brickWf_regs | apply brickWf_foldl | apply brickWf_mk)

theorem perfSnap_kept (x : BrickSt) (h_x : BrickWf x) : BrickWf (perfSnap x) := by
  unfold perfSnap
  try dsimp only
  repeat' (with_reducible first | assumption | intro _ | apply brickWf_ite | split | apply brickWf_mem | apply brickWf_regs | apply brickWf_foldl | apply brickWf_mk)

theorem brkWrite_kept (o v : Nat) (x : BrickSt) (h_x : BrickWf x) : BrickWf (brkWrite o v x) := by
  unfold brkWrite
  try dsimp only
  repeat' (with_reducible first | assumption | intro _ | apply brickWf_ite | split | apply qstatSnap_kept | apply perfSnap_kept | apply brickWf_mem | apply brickWf_regs | apply brickWf_foldl | apply brickWf_mk)

end Sys2Proof.Machine
end

