-- ==== Sys2Proof/Laws/KeptRubble.lean ====
section
/-!
SUPPORT. What every operation and meaning of Machine/Rubble.lean keeps.
-/

namespace Sys2Proof.Machine

open Sys2Proof

theorem rubbleMap_kept {s₀ : State} (s : State) (x : BrickSt) (h_s : Kept s₀ s) (_ : Wf s₀ → BrickWf x) : Kept s₀ (rubbleMap s x).2 := by
  unfold rubbleMap
  try dsimp only
  repeat' (with_reducible first | assumption | intro _ | apply kept_ite | apply keptOut_ite | split | apply takeFree_kept | apply h_x | apply kept_next | refine kept_of_eq (by assumption) ?_ | refine kept_of_eq_fst (by assumption) ?_ | apply kept_foldl | apply kept_foldl_snd)

theorem rubbleDump_kept {s₀ : State} (b : Nat) (missing : Bool) (s : State) (h_s : Kept s₀ s) : Kept s₀ (rubbleDump b missing s).2 := by
  unfold rubbleDump
  try dsimp only
  repeat' (with_reducible first | assumption | intro _ | apply kept_ite | apply keptOut_ite | split | apply rubbleMap_kept | apply kept_next | refine kept_of_eq (by assumption) ?_ | refine kept_of_eq_fst (by assumption) ?_ | apply kept_foldl | apply kept_foldl_snd | apply kept_foldl_fst | apply kept_upd | rfl | exact fused_upd | exact Nat.le_refl _ | exact Nat.le_add_right _ _ | exact Kept.brick (by assumption) (by assumption) _)

theorem latchRubble_kept {s₀ : State} (b : Nat) (s : State) (h_s : Kept s₀ s) : Kept s₀ (latchRubble b s) := by
  unfold latchRubble
  try dsimp only
  repeat' (with_reducible first | assumption | intro _ | apply kept_ite | apply keptOut_ite | split | apply rubbleDump_kept | apply kept_next | refine kept_of_eq (by assumption) ?_ | refine kept_of_eq_fst (by assumption) ?_ | apply kept_foldl | apply kept_foldl_snd | apply kept_foldl_fst | apply kept_upd | rfl)

end Sys2Proof.Machine
end

