-- ==== Sys2Proof/Laws/KeptBrickEvents.lean ====
section
/-!
SUPPORT. What every operation and meaning of Machine/BrickEvents.lean keeps.
-/

namespace Sys2Proof.Machine

open Sys2Proof

theorem execScalarLoadResult_kept {s₀ : State} (brick : Brick) (s : State) (h_s : Kept s₀ s) : KeptOut s₀ (execScalarLoadResult brick s) := by
  unfold execScalarLoadResult
  try dsimp only
  repeat' (with_reducible first | assumption | intro _ | apply kept_ite | apply keptOut_ite | split | apply runTo_kept | apply kept_next)

theorem execVectorResultWrite_kept {s₀ : State} (brick : Brick) (s : State) (h_s : Kept s₀ s) : KeptOut s₀ (execVectorResultWrite brick s) := by
  unfold execVectorResultWrite
  try dsimp only
  repeat' (with_reducible first | assumption | intro _ | apply kept_ite | apply keptOut_ite | split | apply runTo_kept | apply kept_next)

theorem execQuantiseDone_kept {s₀ : State} (brick : Brick) (s : State) (h_s : Kept s₀ s) : KeptOut s₀ (execQuantiseDone brick s) := by
  unfold execQuantiseDone
  try dsimp only
  repeat' (with_reducible first | assumption | intro _ | apply kept_ite | apply keptOut_ite | split | apply runTo_kept | apply kept_next)

theorem execPassComplete_kept {s₀ : State} (brick : Brick) (check : PassCheck) (s : State) (h_s : Kept s₀ s) : KeptOut s₀ (execPassComplete brick check s) := by
  unfold execPassComplete
  try dsimp only
  repeat' (with_reducible first | assumption | intro _ | apply kept_ite | apply keptOut_ite | split | apply runTo_kept | apply arrayError_kept | apply kept_next)

theorem execWfillComplete_kept {s₀ : State} (brick : Brick) (s : State) (h_s : Kept s₀ s) : KeptOut s₀ (execWfillComplete brick s) := by
  unfold execWfillComplete
  try dsimp only
  repeat' (with_reducible first | assumption | intro _ | apply kept_ite | apply keptOut_ite | split | apply runTo_kept | apply kept_next)

theorem betweenBundles_kept {s₀ : State} (b : Nat) (s : State) (h_s : Kept s₀ s) : Kept s₀ (betweenBundles b s) := by
  unfold betweenBundles
  try dsimp only
  repeat' (with_reducible first | assumption | intro _ | apply kept_ite | apply keptOut_ite | split | apply takeAsync_kept | apply afterHalt_kept | apply putBrick_kept | apply kept_next | refine kept_of_eq (by assumption) ?_ | refine kept_of_eq_fst (by assumption) ?_ | apply kept_foldl | apply kept_foldl_snd | apply kept_foldl_fst | apply kept_upd | rfl | exact fused_upd | exact Nat.le_refl _ | exact Nat.le_add_right _ _ | exact Kept.brick (by assumption) (by assumption) _)

theorem execTimerExpire_kept {s₀ : State} (brick : Brick) (s : State) (h_s : Kept s₀ s) : KeptOut s₀ (execTimerExpire brick s) := by
  unfold execTimerExpire
  try dsimp only
  repeat' (with_reducible first | assumption | intro _ | apply kept_ite | apply keptOut_ite | split | apply betweenBundles_kept | apply runTo_kept | apply kept_next)

theorem execDoorbell_kept {s₀ : State} (brick : Brick) (message : BitVec 32) (s : State) (h_s : Kept s₀ s) : KeptOut s₀ (execDoorbell brick message s) := by
  unfold execDoorbell
  try dsimp only
  repeat' (with_reducible first | assumption | intro _ | apply kept_ite | apply keptOut_ite | split | apply betweenBundles_kept | apply putBrick_kept | apply kept_next | refine kept_of_eq (by assumption) ?_ | refine kept_of_eq_fst (by assumption) ?_ | apply kept_foldl | apply kept_foldl_snd | apply kept_foldl_fst | apply kept_upd | rfl | exact fused_upd | exact Nat.le_refl _ | exact Nat.le_add_right _ _ | exact Kept.brick (by assumption) (by assumption) _ | apply brickWf_mem | apply brickWf_regs | apply brickWf_foldl | apply brickWf_mk | apply memWf_mk | apply regsWf_upd)

theorem releaseIn_kept (b : Fin 4) (x : BrickSt) (h_x : BrickWf x) : BrickWf (releaseIn b x) := by
  unfold releaseIn
  try dsimp only
  repeat' (with_reducible first | assumption | intro _ | apply brickWf_ite | split | apply streamSignal_kept | apply brickWf_mem | apply brickWf_regs | apply brickWf_foldl | apply brickWf_mk)

theorem execBarrierRelease_kept {s₀ : State} (course : Course) (b : Fin 4) (s : State) (h_s : Kept s₀ s) : KeptOut s₀ (execBarrierRelease course b s) := by
  unfold execBarrierRelease
  try dsimp only
  repeat' (with_reducible first | assumption | intro _ | apply kept_ite | apply keptOut_ite | split | apply modBrick_kept | apply releaseIn_kept | apply kept_next | refine kept_of_eq (by assumption) ?_ | refine kept_of_eq_fst (by assumption) ?_ | apply kept_foldl)

theorem execStreamChunkDone_kept {s₀ : State} (brick : Brick) (d : Fin 16) (s : State) (h_s : Kept s₀ s) : KeptOut s₀ (execStreamChunkDone brick d s) := by
  unfold execStreamChunkDone
  try dsimp only
  repeat' (with_reducible first | assumption | intro _ | apply kept_ite | apply keptOut_ite | split | apply chunkDone_kept | apply kept_next)

theorem execRingChunkArrive_kept {s₀ : State} (brick : Brick) (s : State) (h_s : Kept s₀ s) : KeptOut s₀ (execRingChunkArrive brick s) := by
  unfold execRingChunkArrive
  try dsimp only
  repeat' (with_reducible first | assumption | intro _ | apply kept_ite | apply keptOut_ite | split | apply ringArrive_kept | apply kept_next)

theorem execWatchdog_kept {s₀ : State} (brick : Brick) (s : State) (h_s : Kept s₀ s) : KeptOut s₀ (execWatchdog brick s) := by
  unfold execWatchdog
  try dsimp only
  repeat' (with_reducible first | assumption | intro _ | apply kept_ite | apply keptOut_ite | split | apply latchRubble_kept | apply haltDev_kept | apply kept_next | refine kept_of_eq (by assumption) ?_ | refine kept_of_eq_fst (by assumption) ?_ | apply kept_foldl)

theorem execDumpWritten_kept {s₀ : State} (slot : Fin 4) (s : State) (h_s : Kept s₀ s) : KeptOut s₀ (execDumpWritten slot s) := by
  unfold execDumpWritten
  try dsimp only
  repeat' (with_reducible first | assumption | intro _ | apply kept_ite | apply keptOut_ite | split | apply kept_next | refine kept_of_eq (by assumption) ?_ | refine kept_of_eq_fst (by assumption) ?_ | apply kept_foldl | apply kept_foldl_snd | apply kept_foldl_fst | apply kept_upd | rfl)

theorem execBrickReset_kept {s₀ : State} (brick : Brick) (s : State) (h_s : Kept s₀ s) : KeptOut s₀ (execBrickReset brick s) := by
  unfold execBrickReset
  try dsimp only
  repeat' (with_reducible first | assumption | intro _ | apply kept_ite | apply keptOut_ite | split | apply brickReset_kept | apply modUnit_kept | apply putBrick_kept | apply kept_next | refine kept_of_eq (by assumption) ?_ | refine kept_of_eq_fst (by assumption) ?_ | apply kept_foldl | apply kept_foldl_snd | apply kept_foldl_fst | apply kept_upd | rfl | exact fused_upd | exact Nat.le_refl _ | exact Nat.le_add_right _ _ | exact Kept.brick (by assumption) (by assumption) _ | apply brickWf_mem | apply brickWf_regs | apply brickWf_foldl | apply brickWf_mk)

theorem execHaltRequest_kept {s₀ : State} (brick : Brick) (code : BitVec 32) (s : State) (h_s : Kept s₀ s) : KeptOut s₀ (execHaltRequest brick code s) := by
  unfold execHaltRequest
  try dsimp only
  repeat' (with_reducible first | assumption | intro _ | apply kept_ite | apply keptOut_ite | split | apply haltDev_kept | apply kept_next)

theorem execQstatSnap_kept {s₀ : State} (brick : Brick) (s : State) (h_s : Kept s₀ s) : KeptOut s₀ (execQstatSnap brick s) := by
  unfold execQstatSnap
  try dsimp only
  repeat' (with_reducible first | assumption | intro _ | apply kept_ite | apply keptOut_ite | split | apply modBrick_kept | apply qstatSnap_kept | apply kept_next)

theorem execQstatSnapshotTaken_kept {s₀ : State} (brick : Brick) (s : State) (h_s : Kept s₀ s) : KeptOut s₀ (execQstatSnapshotTaken brick s) := by
  unfold execQstatSnapshotTaken
  try dsimp only
  repeat' (with_reducible first | assumption | intro _ | apply kept_ite | apply keptOut_ite | split | apply modBrick_kept | apply kept_next | refine kept_of_eq (by assumption) ?_ | refine kept_of_eq_fst (by assumption) ?_ | apply kept_foldl | apply kept_foldl_snd | apply kept_foldl_fst | apply kept_upd | rfl | exact fused_upd | exact Nat.le_refl _ | exact Nat.le_add_right _ _ | exact Kept.brick (by assumption) (by assumption) _ | apply brickWf_mem | apply brickWf_regs | apply brickWf_foldl | apply brickWf_mk)

theorem execPerfSnap_kept {s₀ : State} (brick : Brick) (s : State) (h_s : Kept s₀ s) : KeptOut s₀ (execPerfSnap brick s) := by
  unfold execPerfSnap
  try dsimp only
  repeat' (with_reducible first | assumption | intro _ | apply kept_ite | apply keptOut_ite | split | apply modBrick_kept | apply perfSnap_kept | apply kept_next)

end Sys2Proof.Machine
end

