-- ==== Sys2Proof/Laws/KeptTier1.lean ====
section
/-!
SUPPORT. What every operation and meaning of Machine/Tier1.lean keeps.
-/

namespace Sys2Proof.Machine

open Sys2Proof

theorem admitSlow_kept {s₀ : State} (p : Nat) (st : Stamped) (r : Fin 5) (s : State) (h_s : Kept s₀ s) : Kept s₀ (admitSlow p st r s) := by
  unfold admitSlow
  try dsimp only
  repeat' (with_reducible first | assumption | intro _ | apply kept_ite | apply keptOut_ite | split | apply cntPdie_kept | apply putPdie_kept | apply takeFree_kept | apply finalVerdict_kept)

theorem enrol_kept {s₀ : State} (p : Nat) (st : Stamped) (r : FlowRef) (s : State) (h_s : Kept s₀ s) : Kept s₀ (enrol p st r s) := by
  unfold enrol
  try dsimp only
  repeat' (with_reducible first | assumption | intro _ | apply kept_ite | apply keptOut_ite | split | apply takeFree_kept | apply cntPdie_kept | apply modSdie_kept | apply modPdie_kept | apply kept_id | apply kept_next | refine kept_of_eq (by assumption) ?_ | refine kept_of_eq_fst (by assumption) ?_ | apply kept_foldl | apply kept_foldl_snd | apply kept_foldl_fst | apply kept_upd | rfl | exact fused_upd | exact Nat.le_refl _ | exact Nat.le_add_right _ _ | exact Kept.sdie (by assumption) (by assumption) _ | apply sdieWf_dram | apply sdieWf_sram | apply sdieWf_mk)

theorem answerSlot_kept {s₀ : State} (p k : Nat) (a : RetSlot → Answer) (s : State) (h_s : Kept s₀ s) : Kept s₀ (answerSlot p k a s) := by
  unfold answerSlot
  try dsimp only
  repeat' (with_reducible first | assumption | intro _ | apply kept_ite | apply keptOut_ite | split | apply putPdie_kept | apply finalVerdict_kept)

theorem closePallet_kept {s₀ : State} (p : Nat) (pal : Pallet) (s : State) (h_s : Kept s₀ s) : Kept s₀ (closePallet p pal s) := by
  unfold closePallet
  try dsimp only
  repeat' (with_reducible first | assumption | intro _ | apply kept_ite | apply keptOut_ite | split | apply takeFree_kept | apply loopOutput_kept | apply putPdie_kept)

theorem joinPallet_kept {s₀ : State} (p : Nat) (st : Stamped) (row : PalletRow) (s : State) (h_s : Kept s₀ s) : Kept s₀ (joinPallet p st row s) := by
  unfold joinPallet
  try dsimp only
  repeat' (with_reducible first | assumption | intro _ | apply kept_ite | apply keptOut_ite | split | apply putPdie_kept | apply closePallet_kept)

theorem escToken_kept {s₀ : State} (p : Nat) (part : Part) (limit : Nat) (s : State) (h_s : Kept s₀ s) : Kept s₀ (escToken p part limit s).1 := by
  unfold escToken
  try dsimp only
  repeat' (with_reducible first | assumption | intro _ | apply kept_ite | apply keptOut_ite | split | apply putPdie_kept)

theorem retainPallet_kept {s₀ : State} (m : MapIn) (prov : Bool) (s : State) (h_s : Kept s₀ s) : Kept s₀ (retainPallet m prov s) := by
  unfold retainPallet
  try dsimp only
  repeat' (with_reducible first | assumption | intro _ | apply kept_ite | apply keptOut_ite | split | apply putPdie_kept | apply joinPallet_kept | apply cntPdie_kept | apply finalVerdict_kept)

theorem outcome_kept {s₀ : State} (m : MapIn) (tok : Bool) (s : State) (h_s : Kept s₀ s) : Kept s₀ (outcome m tok s).1 := by
  unfold outcome
  try dsimp only
  repeat' (with_reducible first | assumption | intro _ | apply kept_ite | apply keptOut_ite | split | apply provisionalVerdict_kept | apply cntPdie_kept | apply escToken_kept | apply finalVerdict_kept | apply retainPallet_kept | apply modPdie_kept)

theorem sendToken_kept {s₀ : State} (m : MapIn) (tok : BitVec 16) (ctx : BitVec 26) (req : Option Nat) (s : State) (h_s : Kept s₀ s) : Kept s₀ (sendToken m tok ctx req s) := by
  unfold sendToken
  try dsimp only
  repeat' (with_reducible first | assumption | intro _ | apply kept_ite | apply keptOut_ite | split | apply modSdie_kept | apply kept_next | refine kept_of_eq (by assumption) ?_ | refine kept_of_eq_fst (by assumption) ?_ | apply kept_foldl | apply kept_foldl_snd | apply kept_foldl_fst | apply kept_upd | rfl | exact fused_upd | exact Nat.le_refl _ | exact Nat.le_add_right _ _ | exact Kept.sdie (by assumption) (by assumption) _ | apply sdieWf_dram | apply sdieWf_sram | apply sdieWf_mk)

theorem treeStage_kept {s₀ : State} (p : Nat) (ecc : EccOutcome) (st : Stamped) (ep : ModelEpoch) (ps : ParseSec) (buf : ExtBuf) (flags : Option Byte) (gap : Nat) (ref : FlowRef) (snap : FlowEntry) (s : State) (h_s : Kept s₀ s) : Kept s₀ (treeStage p ecc st ep ps buf flags gap ref snap s) := by
  unfold treeStage
  try dsimp only
  repeat' (with_reducible first | assumption | intro _ | apply kept_ite | apply keptOut_ite | split | apply finalVerdict_kept | apply modPdie_kept | apply cntPdie_kept | apply enrol_kept | apply outcome_kept | apply sendToken_kept)

theorem flowStage_kept {s₀ : State} (p : Nat) (ecc : EccOutcome) (st : Stamped) (ep : ModelEpoch) (ps : ParseSec) (geo : FlowGeom) (state : Nat) (buf : ExtBuf) (s : State) (h_s : Kept s₀ s) : Kept s₀ (flowStage p ecc st ep ps geo state buf s) := by
  unfold flowStage
  try dsimp only
  repeat' (with_reducible first | assumption | intro _ | apply kept_ite | apply keptOut_ite | split | apply treeStage_kept | apply cntPdie_kept | apply putPdie_kept | apply modSdie_kept | apply kept_next | refine kept_of_eq (by assumption) ?_ | refine kept_of_eq_fst (by assumption) ?_ | apply kept_foldl | apply kept_foldl_snd | apply kept_foldl_fst | apply kept_upd | rfl | exact fused_upd | exact Nat.le_refl _ | exact Nat.le_add_right _ _ | exact Kept.sdie (by assumption) (by assumption) _ | apply sdieWf_dram | apply sdieWf_sram | apply sdieWf_mk)

theorem execSliceAtPDie_kept {s₀ : State} (p : Die) (ecc : EccOutcome) (s : State) (h_s : Kept s₀ s) : KeptOut s₀ (execSliceAtPDie p ecc s) := by
  unfold execSliceAtPDie
  try dsimp only
  repeat' (with_reducible first | assumption | intro _ | apply kept_ite | apply keptOut_ite | split | apply putPdie_kept | apply finalVerdict_kept | apply admitSlow_kept | apply cntPdie_kept | apply flowStage_kept | apply kept_next)

theorem execDeadlineExpiry_kept {s₀ : State} (p : Die) (slot : Fin 65536) (s : State) (h_s : Kept s₀ s) : KeptOut s₀ (execDeadlineExpiry p slot s) := by
  unfold execDeadlineExpiry
  try dsimp only
  repeat' (with_reducible first | assumption | intro _ | apply kept_ite | apply keptOut_ite | split | apply answerSlot_kept | apply kept_next)

theorem fragInsert_kept {s₀ : State} (p : Nat) (key : List Byte) (e : FragEntry) (s : State) (h_s : Kept s₀ s) : Kept s₀ (fragInsert p key e s) := by
  unfold fragInsert
  try dsimp only
  repeat' (with_reducible first | assumption | intro _ | apply kept_ite | apply keptOut_ite | split | apply modSdie_kept | apply cntPdie_kept | apply kept_next | refine kept_of_eq (by assumption) ?_ | refine kept_of_eq_fst (by assumption) ?_ | apply kept_foldl | apply kept_foldl_snd | apply kept_foldl_fst | apply kept_upd | rfl | exact fused_upd | exact Nat.le_refl _ | exact Nat.le_add_right _ _ | exact Kept.sdie (by assumption) (by assumption) _ | apply sdieWf_dram | apply sdieWf_sram | apply sdieWf_mk)

theorem slowCommit_kept {s₀ : State} (owner : Nat) (r : FlowRef) (w : Nat) (flags : Option Byte) (sp : BitVec 128) (s : State) (h_s : Kept s₀ s) : Kept s₀ (slowCommit owner r w flags sp s) := by
  unfold slowCommit
  try dsimp only
  repeat' (with_reducible first | assumption | intro _ | apply kept_ite | apply keptOut_ite | split | apply modPdie_kept)

theorem execSlowPathVerdict_kept {s₀ : State} (p : Die) (answer : SlowAnswer) (s : State) (h_s : Kept s₀ s) : KeptOut s₀ (execSlowPathVerdict p answer s) := by
  unfold execSlowPathVerdict
  try dsimp only
  repeat' (with_reducible first | assumption | intro _ | apply kept_ite | apply keptOut_ite | split | apply putPdie_kept | apply fragInsert_kept | apply slowCommit_kept | apply modSdie_kept | apply cntPdie_kept | apply finalVerdict_kept | apply kept_next | refine kept_of_eq (by assumption) ?_ | refine kept_of_eq_fst (by assumption) ?_ | apply kept_foldl | apply kept_foldl_snd | apply kept_foldl_fst | apply kept_upd | rfl | exact fused_upd | exact Nat.le_refl _ | exact Nat.le_add_right _ _ | exact Kept.sdie (by assumption) (by assumption) _ | apply sdieWf_dram | apply sdieWf_sram | apply sdieWf_mk)

theorem execFragEntryExpire_kept {s₀ : State} (sdie : Die) (set : Fin 16384) (way : Fin 16) (s : State) (h_s : Kept s₀ s) : KeptOut s₀ (execFragEntryExpire sdie set way s) := by
  unfold execFragEntryExpire
  try dsimp only
  repeat' (with_reducible first | assumption | intro _ | apply kept_ite | apply keptOut_ite | split | apply putSdie_kept | apply kept_next | refine kept_of_eq (by assumption) ?_ | refine kept_of_eq_fst (by assumption) ?_ | apply kept_foldl | apply kept_foldl_snd | apply kept_foldl_fst | apply kept_upd | rfl | exact fused_upd | exact Nat.le_refl _ | exact Nat.le_add_right _ _ | exact Kept.sdie (by assumption) (by assumption) _ | apply sdieWf_dram | apply sdieWf_sram | apply sdieWf_mk)

theorem execTreeWordRewrite_kept {s₀ : State} (p : Die) (s : State) (h_s : Kept s₀ s) : KeptOut s₀ (execTreeWordRewrite p s) := by
  unfold execTreeWordRewrite
  try dsimp only
  repeat' (with_reducible first | assumption | intro _ | apply kept_ite | apply keptOut_ite | split | apply modPdie_kept | apply kept_next)

end Sys2Proof.Machine
end

