-- ==== Sys2Proof/Laws/KeptTier2.lean ====
section
/-!
SUPPORT. What every operation and meaning of Machine/Tier2.lean keeps.
-/

namespace Sys2Proof.Machine

open Sys2Proof

theorem takeLease_kept {s₀ : State} (kind : Fin 7) (holder : Nat) (p : Die) (pallet life : Nat) (s : State) (h_s : Kept s₀ s) : Kept s₀ (takeLease kind holder p pallet life s) := by
  unfold takeLease
  try dsimp only
  repeat' (with_reducible first | assumption | intro _ | apply kept_ite | apply keptOut_ite | split | apply kept_id | apply kept_next | refine kept_of_eq (by assumption) ?_ | refine kept_of_eq_fst (by assumption) ?_ | apply kept_foldl | apply kept_foldl_snd | apply kept_foldl_fst | apply kept_upd | rfl)

theorem dropPalletLeases_kept {s₀ : State} (p pallet : Nat) (s : State) (h_s : Kept s₀ s) : Kept s₀ (dropPalletLeases p pallet s) := by
  unfold dropPalletLeases
  try dsimp only
  repeat' (with_reducible first | assumption | intro _ | apply kept_ite | apply keptOut_ite | split | apply kept_next | refine kept_of_eq (by assumption) ?_ | refine kept_of_eq_fst (by assumption) ?_ | apply kept_foldl | apply kept_foldl_snd | apply kept_foldl_fst | apply kept_upd | rfl)

theorem execPalletFillTimeout_kept {s₀ : State} (p : Die) (part : Part) (target : Target) (s : State) (h_s : Kept s₀ s) : KeptOut s₀ (execPalletFillTimeout p part target s) := by
  unfold execPalletFillTimeout
  try dsimp only
  repeat' (with_reducible first | assumption | intro _ | apply kept_ite | apply keptOut_ite | split | apply closePallet_kept | apply kept_next)

theorem answerPallet_kept {s₀ : State} (p n : Nat) (src : Nat) (s : State) (h_s : Kept s₀ s) : Kept s₀ (answerPallet p n src s) := by
  unfold answerPallet
  try dsimp only
  repeat' (with_reducible first | assumption | intro _ | apply kept_ite | apply keptOut_ite | split | apply answerSlot_kept | apply dropPalletLeases_kept | apply modPdie_kept | apply kept_next | refine kept_of_eq (by assumption) ?_ | refine kept_of_eq_fst (by assumption) ?_ | apply kept_foldl)

theorem takeFrees_kept {s₀ : State} (n : Nat) (s : State) (h_s : Kept s₀ s) : Kept s₀ (takeFrees n s).2 := by
  induction n generalizing s with
  | zero => exact h_s
  | succ n ih => exact ih _ (takeFree_kept s h_s)

theorem freeBytes_kept {s₀ : State} (n : Nat) (s : State) (h_s : Kept s₀ s) : Kept s₀ (freeBytes n s).2 := by
  unfold freeBytes
  try dsimp only
  repeat' (with_reducible first | assumption | intro _ | apply kept_ite | apply keptOut_ite | split | apply takeFrees_kept)

theorem dispatchTo_kept {s₀ : State} (p : Nat) (w : Fin 4) (pal : Pallet) (b : Nat) (s : State) (h_s : Kept s₀ s) : Kept s₀ (dispatchTo p w pal b s) := by
  have h := takeFrees_kept 4 s h_s
  unfold dispatchTo
  generalize takeFrees 4 s = r at h
  obtain ⟨free, t⟩ := r
  exact putBrick_kept (fun w => bmemWrite_kept _ _ _ (h.brick w b)) h

theorem wakeAfter_kept {s₀ : State} (lockstep : Bool) (bs : List Nat) (s : State) (h_s : Kept s₀ s) : Kept s₀ (wakeAfter lockstep bs s) := by
  unfold wakeAfter
  try dsimp only
  repeat' (with_reducible first | assumption | intro _ | apply kept_ite | apply keptOut_ite | split | apply thawCourse_kept | apply wakeGroup_kept | apply wakeBrick_kept | apply kept_next | refine kept_of_eq (by assumption) ?_ | refine kept_of_eq_fst (by assumption) ?_ | apply kept_foldl)

theorem execPalletDispatch_kept {s₀ : State} (p : Die) (pallet : Nat) (s : State) (h_s : Kept s₀ s) : KeptOut s₀ (execPalletDispatch p pallet s) := by
  unfold execPalletDispatch
  try dsimp only
  repeat' (with_reducible first | assumption | intro _ | apply kept_ite | apply keptOut_ite | split | apply answerPallet_kept | apply modPdie_kept | apply dispatchTo_kept | apply wakeAfter_kept | apply takeLease_kept | apply trace_kept | apply kept_next | refine kept_of_eq (by assumption) ?_ | refine kept_of_eq_fst (by assumption) ?_ | apply kept_foldl)

theorem programParams_kept {s₀ : State} (c : HykaiCode) (set : Map DWord) (s : State) (h_s : Kept s₀ s) : Kept s₀ (programParams c set s).2 := by
  unfold programParams
  try dsimp only
  repeat' (with_reducible first | assumption | intro _ | apply kept_ite | apply keptOut_ite | split | apply takeFree_kept | apply kept_next | refine kept_of_eq (by assumption) ?_ | refine kept_of_eq_fst (by assumption) ?_ | apply kept_foldl | apply kept_foldl_snd)

theorem addStats_kept (p : Part) (e : BitVec 16) (es : List StatElem) (x : BrickSt) (h_x : BrickWf x) : BrickWf (addStats p e es x) := by
  unfold addStats
  try dsimp only
  repeat' (with_reducible first | assumption | intro _ | apply brickWf_ite | split | apply brickWf_mem | apply brickWf_regs | apply brickWf_foldl | apply brickWf_mk)

theorem endCapture_kept {s₀ : State} (p : Nat) (a : Attempt) (s : State) (h_s : Kept s₀ s) : Kept s₀ (endCapture p a s) := by
  unfold endCapture
  try dsimp only
  repeat' (with_reducible first | assumption | intro _ | apply kept_ite | apply keptOut_ite | split | apply modPart_kept | apply outcome_kept | apply modSdie_kept | apply kept_next | refine kept_of_eq (by assumption) ?_ | refine kept_of_eq_fst (by assumption) ?_ | apply kept_foldl | apply kept_foldl_snd | apply kept_foldl_fst | apply kept_upd | rfl | exact fused_upd | exact Nat.le_refl _ | exact Nat.le_add_right _ _ | exact Kept.sdie (by assumption) (by assumption) _ | apply sdieWf_dram | apply sdieWf_sram | apply sdieWf_mk)

theorem captureRows_kept {s₀ : State} (part : Part) (e : BitVec 16) (env : HEnv) (rows : List Nat) (s : State) (h_s : Kept s₀ s) : Kept s₀ (captureRows part e env rows s) := by
  unfold captureRows
  try dsimp only
  repeat' (with_reducible first | assumption | intro _ | apply kept_ite | apply keptOut_ite | split | apply putPart_kept | apply endCapture_kept)

theorem closeReplay_kept {s₀ : State} (seqNo : Nat) (w : Fin 4) (b : Nat) (s : State) (h_s : Kept s₀ s) : Kept s₀ (closeReplay seqNo w b s) := by
  unfold closeReplay
  try dsimp only
  repeat' (with_reducible first | assumption | intro _ | apply kept_ite | apply keptOut_ite | split | apply wakeBrick_kept | apply putBrick_kept | apply kept_next | refine kept_of_eq (by assumption) ?_ | refine kept_of_eq_fst (by assumption) ?_ | apply kept_foldl | apply kept_foldl_snd | apply kept_foldl_fst | apply kept_upd | rfl | exact fused_upd | exact Nat.le_refl _ | exact Nat.le_add_right _ _ | exact Kept.brick (by assumption) (by assumption) _ | apply brickWf_mem | apply brickWf_regs | apply brickWf_foldl | apply brickWf_mk)

theorem retireRow_kept {s₀ : State} (p : Nat) (ep : ModelEpoch) (env : HEnv) (r : PalletRow × Nat) (s : State) (h_s : Kept s₀ s) : Kept s₀ (retireRow p ep env r s) := by
  unfold retireRow
  try dsimp only
  repeat' (with_reducible first | assumption | intro _ | apply kept_ite | apply keptOut_ite | split | apply emit_kept | apply answerSlot_kept | apply modPdie_kept)

theorem retirePallet_kept {s₀ : State} (p n : Nat) (pal : Pallet) (ep : ModelEpoch) (env : HEnv) (s : State) (h_s : Kept s₀ s) : Kept s₀ (retirePallet p n pal ep env s) := by
  unfold retirePallet
  try dsimp only
  repeat' (with_reducible first | assumption | intro _ | apply kept_ite | apply keptOut_ite | split | apply captureRows_kept | apply retireRow_kept | apply modBrick_kept | apply stick_kept | apply addStats_kept | apply clearSuspect_kept | apply modPdie_kept | apply dropPalletLeases_kept | apply closeReplay_kept | apply trace_kept | apply kept_next | refine kept_of_eq (by assumption) ?_ | refine kept_of_eq_fst (by assumption) ?_ | apply kept_foldl | apply kept_foldl_snd | apply kept_foldl_fst | apply kept_upd | rfl | exact fused_upd | exact Nat.le_refl _ | exact Nat.le_add_right _ _ | exact Kept.brick (by assumption) (by assumption) _ | apply brickWf_mem | apply brickWf_regs | apply brickWf_foldl | apply brickWf_mk)

theorem runPallet_kept {s₀ : State} (pal : Pallet) (ep : ModelEpoch) (c : HykaiCode) (s : State) (h_s : Kept s₀ s) : Kept s₀ (runPallet pal ep c s).2 := by
  unfold runPallet
  try dsimp only
  repeat' (with_reducible first | assumption | intro _ | apply kept_ite | apply keptOut_ite | split | apply programParams_kept)

theorem execPalletFail_kept {s₀ : State} (p : Die) (pallet : Nat) (how : PalletFailure) (s : State) (h_s : Kept s₀ s) : KeptOut s₀ (execPalletFail p pallet how s) := by
  unfold execPalletFail
  try dsimp only
  repeat' (with_reducible first | assumption | intro _ | apply kept_ite | apply keptOut_ite | split | apply cntWdn_kept | apply modPdie_kept | apply answerPallet_kept | apply kept_next)

end Sys2Proof.Machine
end

