-- ==== Sys2Proof/Laws/KeptEgress.lean ====
section
/-!
SUPPORT. What every operation and meaning of Machine/Egress.lean keeps.
-/

namespace Sys2Proof.Machine

open Sys2Proof

theorem toFeed_kept {s₀ : State} (ty f : Nat) (r : List Byte) (s : State) (h_s : Kept s₀ s) : Kept s₀ (toFeed ty f r s) := by
  unfold toFeed
  try dsimp only
  repeat' (with_reducible first | assumption | intro _ | apply kept_ite | apply keptOut_ite | split | apply cntLdie_kept | apply modPort_kept)

theorem sendAdvisory_kept {s₀ : State} (p : Nat) (r : List Byte) (s : State) (h_s : Kept s₀ s) : Kept s₀ (sendAdvisory p r s) := by
  unfold sendAdvisory
  try dsimp only
  repeat' (with_reducible first | assumption | intro _ | apply kept_ite | apply keptOut_ite | split | apply toFeed_kept | apply ringRecord_kept)

theorem execVerdictEgress_kept {s₀ : State} (l : Die) (s : State) (h_s : Kept s₀ s) : KeptOut s₀ (execVerdictEgress l s) := by
  unfold execVerdictEgress
  try dsimp only
  repeat' (with_reducible first | assumption | intro _ | apply kept_ite | apply keptOut_ite | split | apply putLdie_kept | apply trace_kept | apply cntLdie_kept | apply ringRecord_kept | apply modPort_kept | apply toFeed_kept | apply kept_next | refine kept_of_eq (by assumption) ?_ | refine kept_of_eq_fst (by assumption) ?_ | apply kept_foldl | apply kept_foldl_snd | apply kept_foldl_fst | apply kept_upd | rfl)

theorem execVerdictFlitTimeout_kept {s₀ : State} (port : LPort) (feed : Local) (s : State) (h_s : Kept s₀ s) : KeptOut s₀ (execVerdictFlitTimeout port feed s) := by
  unfold execVerdictFlitTimeout
  try dsimp only
  repeat' (with_reducible first | assumption | intro _ | apply kept_ite | apply keptOut_ite | split | apply putPort_kept | apply kept_next)

theorem execSpillTimeout_kept {s₀ : State} (feed : Feed) (s : State) (h_s : Kept s₀ s) : KeptOut s₀ (execSpillTimeout feed s) := by
  unfold execSpillTimeout
  try dsimp only
  repeat' (with_reducible first | assumption | intro _ | apply kept_ite | apply keptOut_ite | split | apply putPort_kept | apply cntLdie_kept | apply kept_next | refine kept_of_eq (by assumption) ?_ | refine kept_of_eq_fst (by assumption) ?_ | apply kept_foldl | apply kept_foldl_snd | apply kept_foldl_fst | apply kept_upd | rfl)

theorem execMirrorBatchTimeout_kept {s₀ : State} (port : LPort) (s : State) (h_s : Kept s₀ s) : KeptOut s₀ (execMirrorBatchTimeout port s) := by
  unfold execMirrorBatchTimeout
  try dsimp only
  repeat' (with_reducible first | assumption | intro _ | apply kept_ite | apply keptOut_ite | split | apply putPort_kept | apply kept_next)

end Sys2Proof.Machine
end

