-- ==== Sys2Proof/Laws/KeptWall.lean ====
section
/-!
SUPPORT. What every operation and meaning of Machine/Wall.lean keeps.
-/

namespace Sys2Proof.Machine

open Sys2Proof

theorem modWall_kept {s₀ : State} (f : WallSt → WallSt) (s : State) (h_s : Kept s₀ s) : Kept s₀ (modWall f s) := by
  unfold modWall
  try dsimp only
  repeat' (with_reducible first | assumption | intro _ | apply kept_ite | apply keptOut_ite | split | apply kept_next | refine kept_of_eq (by assumption) ?_ | refine kept_of_eq_fst (by assumption) ?_ | apply kept_foldl | apply kept_foldl_snd | apply kept_foldl_fst | apply kept_upd | rfl)

theorem wallSend_kept {s₀ : State} (ty peer : Nat) (bs : List Byte) (s : State) (h_s : Kept s₀ s) : Kept s₀ (wallSend ty peer bs s) := by
  unfold wallSend
  try dsimp only
  repeat' (with_reducible first | assumption | intro _ | apply kept_ite | apply keptOut_ite | split | apply modWall_kept | apply modPort_kept)

theorem rollBack_kept {s₀ : State} (c : WallCarry) (s : State) (h_s : Kept s₀ s) : Kept s₀ (rollBack c s) := by
  unfold rollBack
  try dsimp only
  repeat' (with_reducible first | assumption | intro _ | apply kept_ite | apply keptOut_ite | split | apply modWall_kept | apply wallSend_kept | apply cntLdie_kept | apply answerPallet_kept)

theorem rollBackAll_kept {s₀ : State} (p : WallCarry → Bool) (s : State) (h_s : Kept s₀ s) : Kept s₀ (rollBackAll p s) := by
  unfold rollBackAll
  try dsimp only
  repeat' (with_reducible first | assumption | intro _ | apply kept_ite | apply keptOut_ite | split | apply rollBack_kept | apply kept_next | refine kept_of_eq (by assumption) ?_ | refine kept_of_eq_fst (by assumption) ?_ | apply kept_foldl)

theorem sendCarry_kept {s₀ : State} (hdr : WallHdr) (peer : Nat) (cx : HCtx) (tensor : Nat) (env : HEnv) (s : State) (h_s : Kept s₀ s) : Kept s₀ (sendCarry hdr peer cx tensor env s) := by
  unfold sendCarry
  try dsimp only
  repeat' (with_reducible first | assumption | intro _ | apply kept_ite | apply keptOut_ite | split | apply wallSend_kept)

theorem carryIn_kept {s₀ : State} (h : WallHdr) (bs : List Byte) (s : State) (h_s : Kept s₀ s) : Kept s₀ (carryIn h bs s) := by
  unfold carryIn
  try dsimp only
  repeat' (with_reducible first | assumption | intro _ | apply kept_ite | apply keptOut_ite | split | apply rollBackAll_kept | apply wallSend_kept | apply programParams_kept | apply modBrick_kept | apply stick_kept | apply addStats_kept | apply sendCarry_kept | apply modWall_kept | apply retirePallet_kept | apply kept_next | refine kept_of_eq (by assumption) ?_ | refine kept_of_eq_fst (by assumption) ?_ | apply kept_foldl)

theorem startSpan_kept {s₀ : State} (p n : Nat) (pal : Pallet) (e : ModelEpoch) (c : HykaiCode) (s : State) (h_s : Kept s₀ s) : Kept s₀ (startSpan p n pal e c s) := by
  unfold startSpan
  try dsimp only
  repeat' (with_reducible first | assumption | intro _ | apply kept_ite | apply keptOut_ite | split | apply rollBack_kept | apply programParams_kept | apply modBrick_kept | apply stick_kept | apply addStats_kept | apply modWall_kept | apply sendCarry_kept | apply kept_next | refine kept_of_eq (by assumption) ?_ | refine kept_of_eq_fst (by assumption) ?_ | apply kept_foldl)

theorem resultIn_kept {s₀ : State} (l : Nat) (h : WallHdr) (bs : List Byte) (s : State) (h_s : Kept s₀ s) : Kept s₀ (resultIn l h bs s) := by
  unfold resultIn
  try dsimp only
  repeat' (with_reducible first | assumption | intro _ | apply kept_ite | apply keptOut_ite | split | apply cntLdie_kept | apply modWall_kept | apply retirePallet_kept | apply rollBack_kept)

theorem execPalletRetire_kept {s₀ : State} (p : Die) (pallet : Nat) (s : State) (h_s : Kept s₀ s) : KeptOut s₀ (execPalletRetire p pallet s) := by
  unfold execPalletRetire
  try dsimp only
  repeat' (with_reducible first | assumption | intro _ | apply kept_ite | apply keptOut_ite | split | apply answerPallet_kept | apply startSpan_kept | apply runPallet_kept | apply retirePallet_kept | apply kept_next)

theorem execWallCtlSend_kept {s₀ : State} (peer : Fin 16) (s : State) (h_s : Kept s₀ s) : KeptOut s₀ (execWallCtlSend peer s) := by
  unfold execWallCtlSend
  try dsimp only
  repeat' (with_reducible first | assumption | intro _ | apply kept_ite | apply keptOut_ite | split | apply modWall_kept | apply modPort_kept | apply kept_next)

theorem execWallPeerUnreachable_kept {s₀ : State} (peer : Fin 16) (s : State) (h_s : Kept s₀ s) : KeptOut s₀ (execWallPeerUnreachable peer s) := by
  unfold execWallPeerUnreachable
  try dsimp only
  repeat' (with_reducible first | assumption | intro _ | apply kept_ite | apply keptOut_ite | split | apply rollBackAll_kept | apply modWall_kept | apply kept_next)

theorem execWallTimeout_kept {s₀ : State} (pallet : Nat) (s : State) (h_s : Kept s₀ s) : KeptOut s₀ (execWallTimeout pallet s) := by
  unfold execWallTimeout
  try dsimp only
  repeat' (with_reducible first | assumption | intro _ | apply kept_ite | apply keptOut_ite | split | apply rollBackAll_kept | apply kept_next)

end Sys2Proof.Machine
end

