-- ==== Sys2Proof/Laws/KeptLinks.lean ====
section
/-!
SUPPORT. What every operation and meaning of Machine/Links.lean keeps.
-/

namespace Sys2Proof.Machine

open Sys2Proof

theorem modLane_kept {s₀ : State} (l lane : Nat) (f : LaneSt → LaneSt) (s : State) (h_s : Kept s₀ s) : Kept s₀ (modLane l lane f s) := by
  unfold modLane
  try dsimp only
  repeat' (with_reducible first | assumption | intro _ | apply kept_ite | apply keptOut_ite | split | apply kept_next | refine kept_of_eq (by assumption) ?_ | refine kept_of_eq_fst (by assumption) ?_ | apply kept_foldl | apply kept_foldl_snd | apply kept_foldl_fst | apply kept_upd | rfl)

theorem drainStream_kept {s₀ : State} (port loc n : Nat) (s : State) (h_s : Kept s₀ s) : Kept s₀ (drainStream port loc n s) := by
  induction n generalizing s with
  | zero => exact h_s
  | succ n ih =>
    unfold drainStream
    split
    · exact h_s
    · dsimp only
      split
      · exact h_s
      · exact ih _ (acceptSlice_kept _ _ _ (modPort_kept _ _ _ h_s))

theorem portDown_kept {s₀ : State} (p : Nat) (s : State) (h_s : Kept s₀ s) : Kept s₀ (portDown p s) := by
  unfold portDown
  refine rollBackAll_kept _ _ ?_
  have h1 := kept_foldl (l := List.range 16) (fun s k h =>
    drainStream_kept p k ((mapGet [] (portAt s p).rx (pkey 2 k)).length) s h) h_s
  generalize (List.range 16).foldl (fun s k => drainStream p k ((mapGet [] (portAt s p).rx (pkey 2 k)).length) s) s = t at h1
  have h2 := cntLdie_kept (ldieOfPort p) 12 (orphansOf (portAt t p)) t h1
  exact ⟨h2.wf, h2.pending, h2.free, h2.time, h2.fused⟩

theorem startTraining_kept {s₀ : State} (p : Nat) (c : PortCfg) (s : State) (h_s : Kept s₀ s) : Kept s₀ (startTraining p c s) := by
  unfold startTraining
  try dsimp only
  repeat' (with_reducible first | assumption | intro _ | apply kept_ite | apply keptOut_ite | split | apply modPort_kept)

theorem execPortTrainingStart_kept {s₀ : State} (port : LPort) (s : State) (h_s : Kept s₀ s) : KeptOut s₀ (execPortTrainingStart port s) := by
  unfold execPortTrainingStart
  try dsimp only
  repeat' (with_reducible first | assumption | intro _ | apply kept_ite | apply keptOut_ite | split | apply startTraining_kept | apply putPort_kept | apply kept_next)

theorem execPortTrainingRestart_kept {s₀ : State} (port : LPort) (s : State) (h_s : Kept s₀ s) : KeptOut s₀ (execPortTrainingRestart port s) := by
  unfold execPortTrainingRestart
  try dsimp only
  repeat' (with_reducible first | assumption | intro _ | apply kept_ite | apply keptOut_ite | split | apply startTraining_kept | apply kept_next)

theorem execPortTrainingTimeout_kept {s₀ : State} (port : LPort) (s : State) (h_s : Kept s₀ s) : KeptOut s₀ (execPortTrainingTimeout port s) := by
  unfold execPortTrainingTimeout
  try dsimp only
  repeat' (with_reducible first | assumption | intro _ | apply kept_ite | apply keptOut_ite | split | apply modPort_kept | apply portDown_kept | apply kept_next)

theorem execPortUp_kept {s₀ : State} (port : LPort) (lanes : Fin 17) (s : State) (h_s : Kept s₀ s) : KeptOut s₀ (execPortUp port lanes s) := by
  unfold execPortUp
  try dsimp only
  repeat' (with_reducible first | assumption | intro _ | apply kept_ite | apply keptOut_ite | split | apply modLane_kept | apply modPort_kept | apply kept_next | refine kept_of_eq (by assumption) ?_ | refine kept_of_eq_fst (by assumption) ?_ | apply kept_foldl)

theorem execPartnerSignalLoss_kept {s₀ : State} (port : LPort) (s : State) (h_s : Kept s₀ s) : KeptOut s₀ (execPartnerSignalLoss port s) := by
  unfold execPartnerSignalLoss
  try dsimp only
  repeat' (with_reducible first | assumption | intro _ | apply kept_ite | apply keptOut_ite | split | apply modPort_kept | apply portDown_kept | apply kept_next)

theorem removeLane_kept {s₀ : State} (l lane : Nat) (s : State) (h_s : Kept s₀ s) : Kept s₀ (removeLane l lane s) := by
  unfold removeLane
  try dsimp only
  repeat' (with_reducible first | assumption | intro _ | apply kept_ite | apply keptOut_ite | split | apply modLane_kept | apply faultRecord_kept | apply cntWdn_kept | apply raiseInt_kept | apply modPort_kept | apply portDown_kept)

theorem execLaneErrorWindow_kept {s₀ : State} (l : Die) (lane : Fin 104) (errors : Nat) (s : State) (h_s : Kept s₀ s) : KeptOut s₀ (execLaneErrorWindow l lane errors s) := by
  unfold execLaneErrorWindow
  try dsimp only
  repeat' (with_reducible first | assumption | intro _ | apply kept_ite | apply keptOut_ite | split | apply modLane_kept | apply removeLane_kept | apply faultRecord_kept | apply cntWdn_kept | apply kept_next)

theorem execLaneLockLoss_kept {s₀ : State} (l : Die) (lane : Fin 104) (s : State) (h_s : Kept s₀ s) : KeptOut s₀ (execLaneLockLoss l lane s) := by
  unfold execLaneLockLoss
  try dsimp only
  repeat' (with_reducible first | assumption | intro _ | apply kept_ite | apply keptOut_ite | split | apply removeLane_kept | apply kept_next)

theorem execSpareLaneReady_kept {s₀ : State} (l : Die) (lane : Fin 104) (s : State) (h_s : Kept s₀ s) : KeptOut s₀ (execSpareLaneReady l lane s) := by
  unfold execSpareLaneReady
  try dsimp only
  repeat' (with_reducible first | assumption | intro _ | apply kept_ite | apply keptOut_ite | split | apply modLane_kept | apply modPort_kept | apply faultRecord_kept | apply returnCredits_kept | apply kept_next | refine kept_of_eq (by assumption) ?_ | refine kept_of_eq_fst (by assumption) ?_ | apply kept_foldl | apply kept_foldl_snd | apply kept_foldl_fst | apply kept_upd | rfl)

theorem nakFlit_kept {s₀ : State} (p : Nat) (s : State) (h_s : Kept s₀ s) : Kept s₀ (nakFlit p s) := by
  unfold nakFlit
  try dsimp only
  repeat' (with_reducible first | assumption | intro _ | apply kept_ite | apply keptOut_ite | split | apply modPort_kept)

theorem takeNak_kept {s₀ : State} (p : Nat) (s : State) (h_s : Kept s₀ s) : Kept s₀ (takeNak p s) := by
  unfold takeNak
  try dsimp only
  repeat' (with_reducible first | assumption | intro _ | apply kept_ite | apply keptOut_ite | split | apply portDown_kept | apply cntLdie_kept | apply putPort_kept)

theorem takeCredits_kept {s₀ : State} (p cls loc n : Nat) (s : State) (h_s : Kept s₀ s) : Kept s₀ (takeCredits p cls loc n s) := by
  unfold takeCredits
  try dsimp only
  repeat' (with_reducible first | assumption | intro _ | apply kept_ite | apply keptOut_ite | split | apply modPort_kept | apply kept_next | refine kept_of_eq (by assumption) ?_ | refine kept_of_eq_fst (by assumption) ?_ | apply kept_foldl | apply kept_foldl_snd | apply kept_foldl_fst | apply kept_upd | rfl)

theorem takeHeader_kept {s₀ : State} (p : Nat) (f : List Byte) (s : State) (h_s : Kept s₀ s) : Kept s₀ (takeHeader p f s) := by
  unfold takeHeader
  try dsimp only
  repeat' (with_reducible first | assumption | intro _ | apply kept_ite | apply keptOut_ite | split | apply modPort_kept | apply takeNak_kept | apply takeCredits_kept)

theorem flitIn_kept {s₀ : State} (ty p : Nat) (f : List Byte) (sequenced : Bool) (body : State → State) (s : State) (h_body : ∀ s, Kept s₀ s → Kept s₀ (body s)) (h_s : Kept s₀ s) : Kept s₀ (flitIn ty p f sequenced body s) := by
  unfold flitIn
  try dsimp only
  repeat' (with_reducible first | assumption | intro _ | apply kept_ite | apply keptOut_ite | split | apply nakFlit_kept | apply cntLdie_kept | apply takeHeader_kept | apply modPort_kept | apply h_body)

theorem execIdleFlit_kept {s₀ : State} (port : LPort) (flit : List Byte) (s : State) (h_s : Kept s₀ s) : KeptOut s₀ (execIdleFlit port flit s) := by
  unfold execIdleFlit
  try dsimp only
  repeat' (with_reducible first | assumption | intro _ | apply kept_ite | apply keptOut_ite | split | apply flitIn_kept | apply kept_next)

theorem execInitFlit_kept {s₀ : State} (port : LPort) (flit : List Byte) (s : State) (h_s : Kept s₀ s) : KeptOut s₀ (execInitFlit port flit s) := by
  unfold execInitFlit
  try dsimp only
  repeat' (with_reducible first | assumption | intro _ | apply kept_ite | apply keptOut_ite | split | apply portDown_kept | apply flitIn_kept | apply modPort_kept | apply kept_next)

theorem execSliceFlit_kept {s₀ : State} (port : LPort) (flit : List Byte) (s : State) (h_s : Kept s₀ s) : KeptOut s₀ (execSliceFlit port flit s) := by
  unfold execSliceFlit
  try dsimp only
  repeat' (with_reducible first | assumption | intro _ | apply kept_ite | apply keptOut_ite | split | apply flitIn_kept | apply cntLdie_kept | apply returnCredits_kept | apply putPort_kept | apply kept_next)

theorem wallFlit_kept {s₀ : State} (ty port : Nat) (flit : List Byte) (whole : Nat → WallHdr → List Byte → State → State) (s : State)
    (hw : ∀ p h bs s, Kept s₀ s → Kept s₀ (whole p h bs s)) (h_s : Kept s₀ s) : Kept s₀ (wallFlit ty port flit whole s) := by
  have ht : ∀ k peer n s, Kept s₀ s → Kept s₀ (wallFlit.transfers port k peer whole n s) := by
    intro k peer n
    induction n with
    | zero => exact fun s h => h
    | succ n ih =>
      intro s h
      unfold wallFlit.transfers
      dsimp only
      split
      · exact h
      · exact ih _ (hw _ _ _ _ (modPort_kept _ _ _ h))
  unfold wallFlit
  refine flitIn_kept _ _ _ _ _ _ (fun t h => ?_) h_s
  dsimp only
  split
  · exact cntLdie_kept _ _ _ _ h
  · exact ht _ _ _ _ (putPort_kept _ _ _ h)

theorem execWallData_kept {s₀ : State} (port : LPort) (flit : List Byte) (s : State) (h_s : Kept s₀ s) : KeptOut s₀ (execWallData port flit s) := by
  unfold execWallData
  try dsimp only
  repeat' (with_reducible first | assumption | intro _ | apply kept_ite | apply keptOut_ite | split | apply wallFlit_kept | apply carryIn_kept | apply kept_next)

theorem execWallResult_kept {s₀ : State} (port : LPort) (flit : List Byte) (s : State) (h_s : Kept s₀ s) : KeptOut s₀ (execWallResult port flit s) := by
  unfold execWallResult
  try dsimp only
  repeat' (with_reducible first | assumption | intro _ | apply kept_ite | apply keptOut_ite | split | apply wallFlit_kept | apply resultIn_kept | apply kept_next)

theorem execWallCtl_kept {s₀ : State} (port : LPort) (flit : List Byte) (s : State) (h_s : Kept s₀ s) : KeptOut s₀ (execWallCtl port flit s) := by
  unfold execWallCtl
  try dsimp only
  repeat' (with_reducible first | assumption | intro _ | apply kept_ite | apply keptOut_ite | split | apply flitIn_kept | apply cntLdie_kept | apply modWall_kept | apply kept_next)

theorem execMirrorFrame_kept {s₀ : State} (port : LPort) (frame : List Byte) (damaged : Bool) (s : State) (h_s : Kept s₀ s) : KeptOut s₀ (execMirrorFrame port frame damaged s) := by
  unfold execMirrorFrame
  try dsimp only
  repeat' (with_reducible first | assumption | intro _ | apply kept_ite | apply keptOut_ite | split | apply cntLdie_kept | apply putPort_kept | apply acceptSlice_kept | apply kept_next)

end Sys2Proof.Machine
end

