-- ==== Sys2Proof/Laws/KeptSequence.lean ====
section
/-!
SUPPORT. What every operation and meaning of Machine/Sequence.lean keeps.
-/

namespace Sys2Proof.Machine

open Sys2Proof

theorem putCtx_kept {s₀ : State} (i k : Nat) (c : SeqContext) (s : State) (h_s : Kept s₀ s) : Kept s₀ (putCtx i k c s) := by
  unfold putCtx
  try dsimp only
  repeat' (with_reducible first | assumption | intro _ | apply kept_ite | apply keptOut_ite | split | apply modSdie_kept | apply kept_next | refine kept_of_eq (by assumption) ?_ | refine kept_of_eq_fst (by assumption) ?_ | apply kept_foldl | apply kept_foldl_snd | apply kept_foldl_fst | apply kept_upd | rfl | exact fused_upd | exact Nat.le_refl _ | exact Nat.le_add_right _ _ | exact Kept.sdie (by assumption) (by assumption) _ | apply sdieWf_dram | apply sdieWf_sram | apply sdieWf_mk)

theorem modCtx_kept {s₀ : State} (i k : Nat) (f : SeqContext → SeqContext) (s : State) (h_s : Kept s₀ s) : Kept s₀ (modCtx i k f s) := by
  unfold modCtx
  try dsimp only
  repeat' (with_reducible first | assumption | intro _ | apply kept_ite | apply keptOut_ite | split | apply putCtx_kept)

theorem emitAdvisory_kept {s₀ : State} (i k kind epoch tok value detail : Nat) (s : State) (h_s : Kept s₀ s) : Kept s₀ (emitAdvisory i k kind epoch tok value detail s) := by
  unfold emitAdvisory
  try dsimp only
  repeat' (with_reducible first | assumption | intro _ | apply kept_ite | apply keptOut_ite | split | apply putCtx_kept | apply sendAdvisory_kept | apply cntSdie_kept)

theorem clearSeq_kept {s₀ : State} (p : Die) (r : FlowRef) (s : State) (h_s : Kept s₀ s) : Kept s₀ (clearSeq p r s) := by
  unfold clearSeq
  try dsimp only
  repeat' (with_reducible first | assumption | intro _ | apply kept_ite | apply keptOut_ite | split | apply modPdie_kept)

theorem answerRequest_kept {s₀ : State} (t : TokenMsg) (src : Nat) (s : State) (h_s : Kept s₀ s) : Kept s₀ (answerRequest t src s) := by
  unfold answerRequest
  try dsimp only
  repeat' (with_reducible first | assumption | intro _ | apply kept_ite | apply keptOut_ite | split | apply answerSlot_kept)

theorem freeContext_kept {s₀ : State} (i k : Nat) (s : State) (h_s : Kept s₀ s) : Kept s₀ (freeContext i k s) := by
  unfold freeContext
  try dsimp only
  repeat' (with_reducible first | assumption | intro _ | apply kept_ite | apply keptOut_ite | split | apply modSdie_kept | apply kept_next | refine kept_of_eq (by assumption) ?_ | refine kept_of_eq_fst (by assumption) ?_ | apply kept_foldl | apply kept_foldl_snd | apply kept_foldl_fst | apply kept_upd | rfl | exact fused_upd | exact Nat.le_refl _ | exact Nat.le_add_right _ _ | exact Kept.sdie (by assumption) (by assumption) _ | apply sdieWf_dram | apply sdieWf_sram | apply sdieWf_mk)

theorem loseContext_kept {s₀ : State} (i k : Nat) (s : State) (h_s : Kept s₀ s) : Kept s₀ (loseContext i k s) := by
  unfold loseContext
  try dsimp only
  repeat' (with_reducible first | assumption | intro _ | apply kept_ite | apply keptOut_ite | split | apply emitAdvisory_kept | apply cntSdie_kept | apply answerRequest_kept | apply clearSeq_kept | apply modCtx_kept | apply freeContext_kept | apply kept_next | refine kept_of_eq (by assumption) ?_ | refine kept_of_eq_fst (by assumption) ?_ | apply kept_foldl)

theorem staleToken_kept {s₀ : State} (i : Nat) (t : TokenMsg) (s : State) (h_s : Kept s₀ s) : Kept s₀ (staleToken i t s) := by
  unfold staleToken
  try dsimp only
  repeat' (with_reducible first | assumption | intro _ | apply kept_ite | apply keptOut_ite | split | apply answerRequest_kept | apply clearSeq_kept | apply cntSdie_kept)

theorem silentCheck_kept {s₀ : State} (i k : Nat) (s : State) (h_s : Kept s₀ s) : Kept s₀ (silentCheck i k s) := by
  unfold silentCheck
  try dsimp only
  repeat' (with_reducible first | assumption | intro _ | apply kept_ite | apply keptOut_ite | split | apply emitAdvisory_kept | apply putCtx_kept)

theorem envelopeCheck_kept {s₀ : State} (i k : Nat) (t : TokenMsg) (s : State) (h_s : Kept s₀ s) : Kept s₀ (envelopeCheck i k t s) := by
  unfold envelopeCheck
  try dsimp only
  repeat' (with_reducible first | assumption | intro _ | apply kept_ite | apply keptOut_ite | split | apply putCtx_kept | apply cntSdie_kept | apply emitAdvisory_kept)

theorem modSeq_kept {s₀ : State} (i n : Nat) (f : SeqPallet → SeqPallet) (s : State) (h_s : Kept s₀ s) : Kept s₀ (modSeq i n f s) := by
  unfold modSeq
  try dsimp only
  repeat' (with_reducible first | assumption | intro _ | apply kept_ite | apply keptOut_ite | split | apply modSdie_kept | apply kept_id | apply kept_next | refine kept_of_eq (by assumption) ?_ | refine kept_of_eq_fst (by assumption) ?_ | apply kept_foldl | apply kept_foldl_snd | apply kept_foldl_fst | apply kept_upd | rfl | exact fused_upd | exact Nat.le_refl _ | exact Nat.le_add_right _ _ | exact Kept.sdie (by assumption) (by assumption) _ | apply sdieWf_dram | apply sdieWf_sram | apply sdieWf_mk)

theorem dropSeqRows_kept {s₀ : State} (i : Nat) (p : SeqPallet) (s : State) (h_s : Kept s₀ s) : Kept s₀ (dropSeqRows i p s) := by
  unfold dropSeqRows
  try dsimp only
  repeat' (with_reducible first | assumption | intro _ | apply kept_ite | apply keptOut_ite | split | apply answerRequest_kept | apply modCtx_kept | apply modSdie_kept | apply kept_id | apply kept_next | refine kept_of_eq (by assumption) ?_ | refine kept_of_eq_fst (by assumption) ?_ | apply kept_foldl | apply kept_foldl_snd | apply kept_foldl_fst | apply kept_upd | rfl | exact fused_upd | exact Nat.le_refl _ | exact Nat.le_add_right _ _ | exact Kept.sdie (by assumption) (by assumption) _ | apply sdieWf_dram | apply sdieWf_sram | apply sdieWf_mk)

theorem trySend_kept {s₀ : State} (i n : Nat) (s : State) (h_s : Kept s₀ s) : Kept s₀ (trySend i n s) := by
  unfold trySend
  try dsimp only
  repeat' (with_reducible first | assumption | intro _ | apply kept_ite | apply keptOut_ite | split | apply dropSeqRows_kept | refine modSdie_kept (fun _ h => sdieWf_mk (sdieWf_dram h) (sdieWf_sram h)) ?_ | apply takeFree_kept | apply loopOutput_kept | apply modSeq_kept | apply dispatchTo_kept | apply wakeAfter_kept | apply kept_id | apply kept_next | refine kept_of_eq (by assumption) ?_ | refine kept_of_eq_fst (by assumption) ?_ | apply kept_foldl)

theorem joinSeq_kept {s₀ : State} (i : Nat) (part : Part) (epoch : BitVec 16) (se : Word) (r : SeqRow) (s : State) (h_s : Kept s₀ s) : Kept s₀ (joinSeq i part epoch se r s) := by
  unfold joinSeq
  try dsimp only
  repeat' (with_reducible first | assumption | intro _ | apply kept_ite | apply keptOut_ite | split | apply modSeq_kept | apply trySend_kept | apply putSdie_kept | apply kept_id | apply kept_next | refine kept_of_eq (by assumption) ?_ | refine kept_of_eq_fst (by assumption) ?_ | apply kept_foldl | apply kept_foldl_snd | apply kept_foldl_fst | apply kept_upd | rfl | exact fused_upd | exact Nat.le_refl _ | exact Nat.le_add_right _ _ | exact Kept.sdie (by assumption) (by assumption) _ | apply sdieWf_dram | apply sdieWf_sram | apply sdieWf_mk)

theorem advanceToken_kept {s₀ : State} (i k : Nat) (t : TokenMsg) (s : State) (h_s : Kept s₀ s) : Kept s₀ (advanceToken i k t s) := by
  unfold advanceToken
  try dsimp only
  repeat' (with_reducible first | assumption | intro _ | apply kept_ite | apply keptOut_ite | split | apply envelopeCheck_kept | apply silentCheck_kept | apply cntSdie_kept | apply putCtx_kept | apply joinSeq_kept)

theorem nextToken_kept {s₀ : State} (i k : Nat) (s : State) (h_s : Kept s₀ s) : Kept s₀ (nextToken i k s) := by
  unfold nextToken
  try dsimp only
  repeat' (with_reducible first | assumption | intro _ | apply kept_ite | apply keptOut_ite | split | apply advanceToken_kept | apply putCtx_kept)

theorem dropToken_kept {s₀ : State} (i k : Nat) (t : TokenMsg) (s : State) (h_s : Kept s₀ s) : Kept s₀ (dropToken i k t s) := by
  unfold dropToken
  try dsimp only
  repeat' (with_reducible first | assumption | intro _ | apply kept_ite | apply keptOut_ite | split | apply answerRequest_kept | apply modCtx_kept)

theorem takeToken'_kept {s₀ : State} (i k : Nat) (t : TokenMsg) (c : SeqContext) (s : State) (h_s : Kept s₀ s) : Kept s₀ (takeToken' i k t c s) := by
  unfold takeToken'
  try dsimp only
  repeat' (with_reducible first | assumption | intro _ | apply kept_ite | apply keptOut_ite | split | apply dropToken_kept | apply cntSdie_kept | apply putCtx_kept | apply modSdie_kept | apply advanceToken_kept | apply kept_next | refine kept_of_eq (by assumption) ?_ | refine kept_of_eq_fst (by assumption) ?_ | apply kept_foldl | apply kept_foldl_snd | apply kept_foldl_fst | apply kept_upd | rfl | exact fused_upd | exact Nat.le_refl _ | exact Nat.le_add_right _ _ | exact Kept.sdie (by assumption) (by assumption) _ | apply sdieWf_dram | apply sdieWf_sram | apply sdieWf_mk)

theorem execTokenArrive_kept {s₀ : State} (sdie : Die) (damaged : Bool) (s : State) (h_s : Kept s₀ s) : KeptOut s₀ (execTokenArrive sdie damaged s) := by
  unfold execTokenArrive
  try dsimp only
  repeat' (with_reducible first | assumption | intro _ | apply kept_ite | apply keptOut_ite | split | apply putSdie_kept | apply staleToken_kept | apply answerRequest_kept | apply loseContext_kept | apply dropToken_kept | apply takeToken'_kept | apply kept_next | refine kept_of_eq (by assumption) ?_ | refine kept_of_eq_fst (by assumption) ?_ | apply kept_foldl | apply kept_foldl_snd | apply kept_foldl_fst | apply kept_upd | rfl | exact fused_upd | exact Nat.le_refl _ | exact Nat.le_add_right _ _ | exact Kept.sdie (by assumption) (by assumption) _ | apply sdieWf_dram | apply sdieWf_sram | apply sdieWf_mk)

theorem execContextFetched_kept {s₀ : State} (sdie : Die) (ctx : Nat) (ecc : EccOutcome) (s : State) (h_s : Kept s₀ s) : KeptOut s₀ (execContextFetched sdie ctx ecc s) := by
  unfold execContextFetched
  try dsimp only
  repeat' (with_reducible first | assumption | intro _ | apply kept_ite | apply keptOut_ite | split | apply modSdie_kept | apply loseContext_kept | apply cntSdie_kept | apply nextToken_kept | apply modCtx_kept | apply kept_next | refine kept_of_eq (by assumption) ?_ | refine kept_of_eq_fst (by assumption) ?_ | apply kept_foldl | apply kept_foldl_snd | apply kept_foldl_fst | apply kept_upd | rfl | exact fused_upd | exact Nat.le_refl _ | exact Nat.le_add_right _ _ | exact Kept.sdie (by assumption) (by assumption) _ | apply sdieWf_dram | apply sdieWf_sram | apply sdieWf_mk)

theorem execContextWriteback_kept {s₀ : State} (sdie : Die) (ctx : Nat) (s : State) (h_s : Kept s₀ s) : KeptOut s₀ (execContextWriteback sdie ctx s) := by
  unfold execContextWriteback
  try dsimp only
  repeat' (with_reducible first | assumption | intro _ | apply kept_ite | apply keptOut_ite | split | apply freeContext_kept | apply modSdie_kept | apply nextToken_kept | apply putCtx_kept | apply kept_next | refine kept_of_eq (by assumption) ?_ | refine kept_of_eq_fst (by assumption) ?_ | apply kept_foldl | apply kept_foldl_snd | apply kept_foldl_fst | apply kept_upd | rfl | exact fused_upd | exact Nat.le_refl _ | exact Nat.le_add_right _ _ | exact Kept.sdie (by assumption) (by assumption) _ | apply sdieWf_dram | apply sdieWf_sram | apply sdieWf_mk)

theorem execSeqFillTimeout_kept {s₀ : State} (sdie : Die) (part : Part) (s : State) (h_s : Kept s₀ s) : KeptOut s₀ (execSeqFillTimeout sdie part s) := by
  unfold execSeqFillTimeout
  try dsimp only
  repeat' (with_reducible first | assumption | intro _ | apply kept_ite | apply keptOut_ite | split | apply trySend_kept | apply kept_id | apply kept_next)

theorem surpriseRow_kept {s₀ : State} (i : Nat) (p : SeqPallet) (env : HEnv) (r : Nat) (k : Nat) (t : TokenMsg) (s : State) (h_s : Kept s₀ s) : Kept s₀ (surpriseRow i p env r k t s) := by
  unfold surpriseRow
  try dsimp only
  repeat' (with_reducible first | assumption | intro _ | apply kept_ite | apply keptOut_ite | split | apply cntSdie_kept | apply emitAdvisory_kept)

theorem startRollout_kept {s₀ : State} (i k : Nat) (p : SeqPallet) (t : TokenMsg) (state : List Nat) (s : State) (h_s : Kept s₀ s) : Kept s₀ (startRollout i k p t state s) := by
  unfold startRollout
  try dsimp only
  repeat' (with_reducible first | assumption | intro _ | apply kept_ite | apply keptOut_ite | split | apply modSdie_kept | apply modCtx_kept | apply joinSeq_kept | apply kept_next | refine kept_of_eq (by assumption) ?_ | refine kept_of_eq_fst (by assumption) ?_ | apply kept_foldl | apply kept_foldl_snd | apply kept_foldl_fst | apply kept_upd | rfl | exact fused_upd | exact Nat.le_refl _ | exact Nat.le_add_right _ _ | exact Kept.sdie (by assumption) (by assumption) _ | apply sdieWf_dram | apply sdieWf_sram | apply sdieWf_mk)

theorem scoringRow_kept {s₀ : State} (i : Nat) (p : SeqPallet) (ep : ModelEpoch) (env : HEnv) (row : SeqRow) (r : Nat) (s : State) (h_s : Kept s₀ s) : Kept s₀ (scoringRow i p ep env row r s) := by
  unfold scoringRow
  try dsimp only
  repeat' (with_reducible first | assumption | intro _ | apply kept_ite | apply keptOut_ite | split | apply emit_kept | apply answerSlot_kept | apply answerRequest_kept | apply freeContext_kept | apply surpriseRow_kept | apply modSdie_kept | apply startRollout_kept | apply kept_next | refine kept_of_eq (by assumption) ?_ | refine kept_of_eq_fst (by assumption) ?_ | apply kept_foldl | apply kept_foldl_snd | apply kept_foldl_fst | apply kept_upd | rfl | exact fused_upd | exact Nat.le_refl _ | exact Nat.le_add_right _ _ | exact Kept.sdie (by assumption) (by assumption) _ | apply sdieWf_dram | apply sdieWf_sram | apply sdieWf_mk)

theorem rolloutRow_kept {s₀ : State} (i : Nat) (p : SeqPallet) (env : HEnv) (row : SeqRow) (r : Nat) (s : State) (h_s : Kept s₀ s) : Kept s₀ (rolloutRow i p env row r s) := by
  unfold rolloutRow
  try dsimp only
  repeat' (with_reducible first | assumption | intro _ | apply kept_ite | apply keptOut_ite | split | apply modCtx_kept | apply modSdie_kept | apply cntSdie_kept | apply joinSeq_kept | apply kept_next | refine kept_of_eq (by assumption) ?_ | refine kept_of_eq_fst (by assumption) ?_ | apply kept_foldl | apply kept_foldl_snd | apply kept_foldl_fst | apply kept_upd | rfl | exact fused_upd | exact Nat.le_refl _ | exact Nat.le_add_right _ _ | exact Kept.sdie (by assumption) (by assumption) _ | apply sdieWf_dram | apply sdieWf_sram | apply sdieWf_mk)

theorem rerunSeq_kept {s₀ : State} (i : Nat) (p : SeqPallet) (s : State) (h_s : Kept s₀ s) : Kept s₀ (rerunSeq i p s) := by
  unfold rerunSeq
  try dsimp only
  repeat' (with_reducible first | assumption | intro _ | apply kept_ite | apply keptOut_ite | split | apply freeContext_kept | apply answerRequest_kept | apply modSdie_kept | apply trySend_kept | apply modSeq_kept | apply kept_id | apply kept_next | refine kept_of_eq (by assumption) ?_ | refine kept_of_eq_fst (by assumption) ?_ | apply kept_foldl | apply kept_foldl_snd | apply kept_foldl_fst | apply kept_upd | rfl | exact fused_upd | exact Nat.le_refl _ | exact Nat.le_add_right _ _ | exact Kept.brick (by assumption) (by assumption) _ | apply brickWf_mem | apply brickWf_regs | apply brickWf_foldl | apply brickWf_mk | apply memWf_mk | apply regsWf_upd | apply memWf_dmem | apply memWf_bmem | apply memWf_imem | apply memWf_staging | apply memWf_memPutBytes | apply memWf_memZero | apply memWf_filter | exact memWf_nil | exact brickWf_default | exact regsWf_default | exact memWf_default | apply kept_updB | apply mapAll_prop (P := BrickWf) | exact Kept.sdie (by assumption) (by assumption) _ | apply sdieWf_dram | apply sdieWf_sram | apply sdieWf_mk)

theorem execSeqPalletResult_kept {s₀ : State} (sdie : Die) (pallet : Nat) (s : State) (h_s : Kept s₀ s) : KeptOut s₀ (execSeqPalletResult sdie pallet s) := by
  unfold execSeqPalletResult
  try dsimp only
  repeat' (with_reducible first | assumption | intro _ | apply kept_ite | apply keptOut_ite | split | apply rerunSeq_kept | apply programParams_kept | apply modSdie_kept | apply modBrick_kept | apply stick_kept | apply addStats_kept | apply rolloutRow_kept | apply scoringRow_kept | apply closeReplay_kept | apply dropSeqRows_kept | apply kept_id | apply kept_next | refine kept_of_eq (by assumption) ?_ | refine kept_of_eq_fst (by assumption) ?_ | apply kept_foldl | apply kept_foldl_snd | apply kept_foldl_fst | apply kept_upd | rfl | exact fused_upd | exact Nat.le_refl _ | exact Nat.le_add_right _ _ | exact Kept.brick (by assumption) (by assumption) _ | apply brickWf_mem | apply brickWf_regs | apply brickWf_foldl | apply brickWf_mk | apply memWf_mk | apply regsWf_upd | apply memWf_dmem | apply memWf_bmem | apply memWf_imem | apply memWf_staging | apply memWf_memPutBytes | apply memWf_memZero | apply memWf_filter | exact memWf_nil | exact brickWf_default | exact regsWf_default | exact memWf_default | apply kept_updB | apply mapAll_prop (P := BrickWf) | exact Kept.sdie (by assumption) (by assumption) _ | apply sdieWf_dram | apply sdieWf_sram | apply sdieWf_mk)

theorem execContextSweep_kept {s₀ : State} (sdie : Die) (s : State) (h_s : Kept s₀ s) : KeptOut s₀ (execContextSweep sdie s) := by
  unfold execContextSweep
  try dsimp only
  repeat' (with_reducible first | assumption | intro _ | apply kept_ite | apply keptOut_ite | split | apply putSdie_kept | apply silentCheck_kept | apply cntSdie_kept | apply modCtx_kept | apply freeContext_kept | apply answerRequest_kept | apply kept_next | refine kept_of_eq (by assumption) ?_ | refine kept_of_eq_fst (by assumption) ?_ | apply kept_foldl | apply kept_foldl_snd | apply kept_foldl_fst | apply kept_upd | rfl | exact fused_upd | exact Nat.le_refl _ | exact Nat.le_add_right _ _ | exact Kept.sdie (by assumption) (by assumption) _ | apply sdieWf_dram | apply sdieWf_sram | apply sdieWf_mk)

end Sys2Proof.Machine
end

