-- ==== Sys2Proof/Laws/KeptLoad.lean ====
section
/-!
SUPPORT. What every operation and meaning of Machine/Load.lean keeps.
-/

namespace Sys2Proof.Machine

open Sys2Proof

theorem setLoad_kept {s₀ : State} (p : Nat) (f : LoadSt → LoadSt) (s : State) (h_s : Kept s₀ s) : Kept s₀ (setLoad p f s) := by
  unfold setLoad
  try dsimp only
  repeat' (with_reducible first | assumption | intro _ | apply kept_ite | apply keptOut_ite | split | apply modModel_kept | apply event_kept)

theorem loadCode_kept {s₀ : State} (p : Nat) (code : Byte) (s : State) (h_s : Kept s₀ s) : Kept s₀ (loadCode p code s) := by
  unfold loadCode
  try dsimp only
  repeat' (with_reducible first | assumption | intro _ | apply kept_ite | apply keptOut_ite | split | apply setLoad_kept)

theorem auditLoad_kept {s₀ : State} (p : Nat) (result : Nat) (code : Byte) (epoch : BitVec 16) (s : State) (h_s : Kept s₀ s) : Kept s₀ (auditLoad p result code epoch s) := by
  unfold auditLoad
  try dsimp only
  repeat' (with_reducible first | assumption | intro _ | apply kept_ite | apply keptOut_ite | split | apply auditDevice_kept)

theorem refuseLoad_kept {s₀ : State} (p : Nat) (code : Byte) (sec : Nat) (off : BitVec 26) (s : State) (h_s : Kept s₀ s) : Kept s₀ (refuseLoad p code sec off s) := by
  unfold refuseLoad
  try dsimp only
  repeat' (with_reducible first | assumption | intro _ | apply kept_ite | apply keptOut_ite | split | apply setLoad_kept | apply auditLoad_kept)

theorem abandonLoad_kept {s₀ : State} (p : Nat) (code : Byte) (s : State) (h_s : Kept s₀ s) : Kept s₀ (abandonLoad p code s) := by
  unfold abandonLoad
  try dsimp only
  repeat' (with_reducible first | assumption | intro _ | apply kept_ite | apply keptOut_ite | split | apply refuseLoad_kept)

theorem execLoadPrepare_kept {s₀ : State} (path : Path) (part : Part) (s : State) (h_s : Kept s₀ s) : KeptOut s₀ (execLoadPrepare path part s) := by
  unfold execLoadPrepare
  try dsimp only
  repeat' (with_reducible first | assumption | intro _ | apply kept_ite | apply keptOut_ite | split | apply commandWith_kept | apply loadCode_kept | apply setLoad_kept | apply kept_next)

theorem execImageFetched_kept {s₀ : State} (part : Part) (image : ModelImage) (s : State) (h_s : Kept s₀ s) : KeptOut s₀ (execImageFetched part image s) := by
  unfold execImageFetched
  try dsimp only
  repeat' (with_reducible first | assumption | intro _ | apply kept_ite | apply keptOut_ite | split | apply setLoad_kept | apply kept_next)

theorem execVerifyComplete_kept {s₀ : State} (part : Part) (s : State) (h_s : Kept s₀ s) : KeptOut s₀ (execVerifyComplete part s) := by
  unfold execVerifyComplete
  try dsimp only
  repeat' (with_reducible first | assumption | intro _ | apply kept_ite | apply keptOut_ite | split | apply refuseLoad_kept | apply setLoad_kept | apply kept_next)

theorem setXlate_kept {s₀ : State} (p : Nat) (code stage word predicted bundles : Nat) (s : State) (h_s : Kept s₀ s) : Kept s₀ (setXlate p code stage word predicted bundles s) := by
  unfold setXlate
  try dsimp only
  repeat' (with_reducible first | assumption | intro _ | apply kept_ite | apply keptOut_ite | split | apply modModel_kept)

theorem acceptCommit_kept {s₀ : State} (p : Nat) (kind : CommitKind) (s : State) (h_s : Kept s₀ s) : Kept s₀ (acceptCommit p kind s) := by
  unfold acceptCommit
  try dsimp only
  repeat' (with_reducible first | assumption | intro _ | apply kept_ite | apply keptOut_ite | split | apply broadcastTc_kept | apply modModel_kept)

theorem commitLoad_kept {s₀ : State} (p : Nat) (s : State) (h_s : Kept s₀ s) : Kept s₀ (commitLoad p s) := by
  unfold commitLoad
  try dsimp only
  repeat' (with_reducible first | assumption | intro _ | apply kept_ite | apply keptOut_ite | split | apply acceptCommit_kept | apply setLoad_kept)

theorem execTranslationComplete_kept {s₀ : State} (part : Part) (plan : TranslationPlan) (s : State) (h_s : Kept s₀ s) : KeptOut s₀ (execTranslationComplete part plan s) := by
  unfold execTranslationComplete
  try dsimp only
  repeat' (with_reducible first | assumption | intro _ | apply kept_ite | apply keptOut_ite | split | apply refuseLoad_kept | apply setXlate_kept | apply setLoad_kept | apply auditLoad_kept | apply commitLoad_kept | apply kept_next)

theorem execLoadCommit_kept {s₀ : State} (path : Path) (part : Part) (s : State) (h_s : Kept s₀ s) : KeptOut s₀ (execLoadCommit path part s) := by
  unfold execLoadCommit
  try dsimp only
  repeat' (with_reducible first | assumption | intro _ | apply kept_ite | apply keptOut_ite | split | apply commandWith_kept | apply loadCode_kept | apply commitLoad_kept | apply kept_next)

theorem execLoadAbort_kept {s₀ : State} (path : Path) (part : Part) (s : State) (h_s : Kept s₀ s) : KeptOut s₀ (execLoadAbort path part s) := by
  unfold execLoadAbort
  try dsimp only
  repeat' (with_reducible first | assumption | intro _ | apply kept_ite | apply keptOut_ite | split | apply commandWith_kept | apply loadCode_kept | apply refuseLoad_kept | apply kept_next)

theorem execLoadUnload_kept {s₀ : State} (path : Path) (part : Part) (s : State) (h_s : Kept s₀ s) : KeptOut s₀ (execLoadUnload path part s) := by
  unfold execLoadUnload
  try dsimp only
  repeat' (with_reducible first | assumption | intro _ | apply kept_ite | apply keptOut_ite | split | apply commandWith_kept | apply loadCode_kept | apply acceptCommit_kept | apply kept_next)

theorem bindWindow_kept (w : Fin 4) (part : Part) (f : List DWord) (x : BrickSt) (h_x : BrickWf x) : BrickWf (bindWindow w part f x) := by
  unfold bindWindow
  try dsimp only
  repeat' (with_reducible first | assumption | intro _ | apply brickWf_ite | split | apply brickWf_mem | apply brickWf_regs | apply brickWf_foldl | apply brickWf_mk | apply memWf_mk | apply regsWf_upd | apply memWf_dmem | apply memWf_bmem | apply memWf_imem | apply memWf_staging | apply memWf_memPutBytes | apply memWf_memZero)

theorem freeRun_kept {s₀ : State} (n a : Nat) (acc : List Host.Cell × State) (h_acc : Kept s₀ acc.2) : Kept s₀ (freeRun n a acc).2 :=
  freeBytes_kept n _ h_acc

theorem freeRun_memWf (n a : Nat) (acc : List Host.Cell × State) (h : memWf acc.1) : memWf (freeRun n a acc).1 := memWf_memPutBytes _ _ h

theorem freePage_kept {s₀ : State} (pg : Nat) (acc : List Host.Cell × State) (h_acc : Kept s₀ acc.2) : Kept s₀ (freePage pg acc).2 := by
  unfold freePage
  exact freeRun_kept _ _ _ h_acc

theorem freePage_memWf (pg : Nat) (acc : List Host.Cell × State) (h : memWf acc.1) : memWf (freePage pg acc).1 := by
  unfold freePage
  exact freeRun_memWf _ _ _ h

theorem freePages_cons (x : Nat) (l : List Nat) (acc : List Host.Cell × State) : freePages (x :: l) acc = freePages l (freePage x acc) := by
  unfold freePages
  exact List.foldl_cons ..

theorem freePages_kept {s₀ : State} (l : List Nat) (acc : List Host.Cell × State) (h_acc : Kept s₀ acc.2) : Kept s₀ (freePages l acc).2 := by
  induction l generalizing acc with
  | nil => unfold freePages; exact h_acc
  | cons x t ih =>
    rw [freePages_cons]
    exact ih _ (freePage_kept x acc h_acc)

theorem freePages_memWf (l : List Nat) (acc : List Host.Cell × State) (h : memWf acc.1) : memWf (freePages l acc).1 := by
  induction l generalizing acc with
  | nil => unfold freePages; exact h
  | cons x t ih =>
    rw [freePages_cons]
    exact ih _ (freePage_memWf x acc h)

theorem writeMask_kept {s₀ : State} (l : List Nat) (pages : BitVec 2048) (b : Nat) (acc : Placement × State) (h_acc : Kept s₀ acc.2) :
    Kept s₀ (writeMask l pages b acc).2 := by
  have hq := freePages_kept l ((brickAt acc.2 b).m.bmem, acc.2) h_acc
  have hm := fun wf => freePages_memWf l ((brickAt acc.2 b).m.bmem, acc.2) (h_acc.brick wf b).1.2.2.1
  unfold writeMask
  refine putBrick_kept (fun wf => ?_) hq
  have hb := hq.brick wf b
  exact ⟨⟨hb.1.1, hb.1.2.1, hm wf, hb.1.2.2.2⟩, hb.2⟩

theorem writePages_kept {s₀ : State} (w : Fin 4) (b : Nat) (acc : Placement × State) (h_acc : Kept s₀ acc.2) :
    Kept s₀ (writePages w b acc).2 := by
  have h := takeFrees_kept 32 _ h_acc
  unfold writePages
  exact writeMask_kept _ _ _ _ h

theorem writeStack_kept (lo hi vec_ : DWord) (x : BrickSt) (h_x : BrickWf x) : BrickWf (writeStack lo hi vec_ x) := by
  unfold writeStack
  try dsimp only
  repeat' (with_reducible first | assumption | intro _ | apply brickWf_ite | split | apply brickWf_mem | apply brickWf_regs | apply brickWf_foldl | apply brickWf_mk)

theorem writeTables_kept (w : Fin 4) (e : BitVec 16) (ts : List (List Word)) (f : List DWord) (x : BrickSt) (h_x : BrickWf x) : BrickWf (writeTables w e ts f x) := by
  unfold writeTables
  try dsimp only
  repeat' (with_reducible first | assumption | intro _ | apply brickWf_ite | split | apply brickWf_mem | apply brickWf_regs | apply brickWf_foldl | apply brickWf_mk | apply memWf_mk | apply regsWf_upd | apply memWf_dmem | apply memWf_bmem | apply memWf_imem | apply memWf_staging)

theorem shareTables_kept (w : Fin 4) (old new : BitVec 16) (x : BrickSt) (h_x : BrickWf x) : BrickWf (shareTables w old new x) := by
  unfold shareTables
  try dsimp only
  repeat' (with_reducible first | assumption | intro _ | apply brickWf_ite | split | apply brickWf_mem | apply brickWf_regs | apply brickWf_foldl | apply brickWf_mk | apply memWf_mk | apply regsWf_upd | apply memWf_dmem | apply memWf_bmem | apply memWf_imem | apply memWf_staging)

theorem assignSlots_kept (part : Part) (e : BitVec 16) (sets : List Nat) (x : BrickSt) (h_x : BrickWf x) : BrickWf (assignSlots part e sets x) := by
  unfold assignSlots
  try dsimp only
  repeat' (with_reducible first | assumption | intro _ | apply brickWf_ite | split | apply brickWf_mem | apply brickWf_regs | apply brickWf_foldl | apply brickWf_mk)

theorem writeRegion_kept {s₀ : State} (rg : Fin 8) (b : Nat) (len base : DWord) (s : State) (h_s : Kept s₀ s) : Kept s₀ (writeRegion rg b len base s) := by
  unfold writeRegion
  try dsimp only
  repeat' (with_reducible first | assumption | intro _ | apply kept_ite | apply keptOut_ite | split | apply freeBytes_kept | apply modBrick_kept | apply kept_next | refine kept_of_eq (by assumption) ?_ | refine kept_of_eq_fst (by assumption) ?_ | apply kept_foldl | apply kept_foldl_snd | apply kept_foldl_fst | apply kept_upd | rfl | exact fused_upd | exact Nat.le_refl _ | exact Nat.le_add_right _ _ | exact Kept.brick (by assumption) (by assumption) _ | apply brickWf_mem | apply brickWf_regs | apply brickWf_foldl | apply brickWf_mk | apply memWf_mk | apply regsWf_upd | apply memWf_dmem | apply memWf_bmem | apply memWf_imem | apply memWf_staging | apply memWf_memPutBytes)

theorem placeBrick_kept {s₀ : State} (part : Part) (e : BitVec 16) (g : Group) (sets : List Nat) (tables : List (List Word)) (whole : Bool) (b : Nat) (acc : Placement × State) (h_acc : Kept s₀ acc.2) : Kept s₀ (placeBrick part e g sets tables whole b acc).2 := by
  unfold placeBrick
  try dsimp only
  repeat' (with_reducible first | assumption | intro _ | apply kept_ite | apply keptOut_ite | split | apply takeFrees_kept | apply modBrick_kept | apply writeStack_kept | apply bindWindow_kept | apply writeRegion_kept | apply assignSlots_kept | apply writeTables_kept | apply writePages_kept | apply kept_next | refine kept_of_eq (by assumption) ?_ | refine kept_of_eq_fst (by assumption) ?_ | apply kept_foldl | apply kept_foldl_snd | apply kept_foldl_fst | apply kept_upd | rfl | exact fused_upd | exact Nat.le_refl _ | exact Nat.le_add_right _ _ | exact Kept.brick (by assumption) (by assumption) _ | apply brickWf_mem | apply brickWf_regs | apply brickWf_foldl | apply brickWf_mk)

theorem reserve_kept {s₀ : State} (pl : Placement) (sign : Bool) (s : State) (h_s : Kept s₀ s) : Kept s₀ (reserve pl sign s) := by
  unfold reserve
  try dsimp only
  repeat' (with_reducible first | assumption | intro _ | apply kept_ite | apply keptOut_ite | split | apply modSdie_kept | apply kept_next | refine kept_of_eq (by assumption) ?_ | refine kept_of_eq_fst (by assumption) ?_ | apply kept_foldl | apply kept_foldl_snd | apply kept_foldl_fst | apply kept_upd | rfl | exact fused_upd | exact Nat.le_refl _ | exact Nat.le_add_right _ _ | exact Kept.sdie (by assumption) (by assumption) _ | apply sdieWf_dram | apply sdieWf_sram | apply sdieWf_mk)

theorem placeEpoch_kept {s₀ : State} (p : Part) (e : ModelEpoch) (s : State) (h_s : Kept s₀ s) : Kept s₀ (placeEpoch p e s).2 := by
  unfold placeEpoch
  try dsimp only
  repeat' (with_reducible first | assumption | intro _ | apply kept_ite | apply keptOut_ite | split | apply takeFrees_kept | apply placeBrick_kept | apply reserve_kept | apply kept_id | apply kept_next | refine kept_of_eq (by assumption) ?_ | refine kept_of_eq_fst (by assumption) ?_ | apply kept_foldl | apply kept_foldl_snd | apply kept_foldl_fst | apply kept_upd | rfl)

theorem endAttempt_kept {s₀ : State} (p : Nat) (outcome : Byte) (state : Fin 5) (s : State) (h_s : Kept s₀ s) :
    Kept s₀ (endAttempt p outcome state s) := by
  unfold endAttempt
  dsimp only
  split
  · with_reducible refine kept_updS ?_ (fun hb => mapAll_prop (P := SDieWf) (fun x hx => ?_) hb) (Nat.le_refl _) (Nat.le_refl _) fused_upd
    · exact modModel_kept _ _ _ (modPart_kept _ _ _ h_s)
    split
    · exact hx
    · exact hx
  · exact modPart_kept _ _ _ h_s

theorem startWatch_kept {s₀ : State} (p : Nat) (s : State) (h_s : Kept s₀ s) : Kept s₀ (startWatch p s) := by
  unfold startWatch
  try dsimp only
  repeat' (with_reducible first | assumption | intro _ | apply kept_ite | apply keptOut_ite | split | apply modPart_kept)

theorem driftAtCommit_kept {s₀ : State} (p : Nat) (kind : CommitKind) (s : State) (h_s : Kept s₀ s) : Kept s₀ (driftAtCommit p kind s) := by
  unfold driftAtCommit
  try dsimp only
  repeat' (with_reducible first | assumption | intro _ | apply kept_ite | apply keptOut_ite | split | apply endAttempt_kept | apply modPart_kept | apply startWatch_kept)

theorem drainActive_kept {s₀ : State} (p : Nat) (s : State) (h_s : Kept s₀ s) : Kept s₀ (drainActive p s) := by
  unfold drainActive
  try dsimp only
  repeat' (with_reducible first | assumption | intro _ | apply kept_ite | apply keptOut_ite | split | apply modModel_kept)

theorem activate_kept {s₀ : State} (p : Nat) (e : ModelEpoch) (s : State) (h_s : Kept s₀ s) : Kept s₀ (activate p e s) := by
  unfold activate
  try dsimp only
  repeat' (with_reducible first | assumption | intro _ | apply kept_ite | apply keptOut_ite | split | apply modModel_kept | apply modPart_kept)

theorem takeBlock_kept {s₀ : State} (p : Nat) (b : ParamBlock) (s : State) (h_s : Kept s₀ s) : Kept s₀ (takeBlock p b s) := by
  unfold takeBlock
  try dsimp only
  repeat' (with_reducible first | assumption | intro _ | apply kept_ite | apply keptOut_ite | split | apply loadCode_kept | apply scheduleTc_kept | apply modModel_kept)

theorem wakeBlocks_kept {s₀ : State} (p : Nat) (s : State) (h_s : Kept s₀ s) : Kept s₀ (wakeBlocks p s) := by
  unfold wakeBlocks
  try dsimp only
  repeat' (with_reducible first | assumption | intro _ | apply kept_ite | apply keptOut_ite | split | apply modModel_kept | apply takeBlock_kept | apply kept_next | refine kept_of_eq (by assumption) ?_ | refine kept_of_eq_fst (by assumption) ?_ | apply kept_foldl)

theorem temperCommitted_kept {s₀ : State} (p : Nat) (kind : CommitKind) (parent : Option ModelEpoch) (num : BitVec 16) (s : State) (h_s : Kept s₀ s) : Kept s₀ (temperCommitted p kind parent num s) := by
  unfold temperCommitted
  try dsimp only
  repeat' (with_reducible first | assumption | intro _ | apply kept_ite | apply keptOut_ite | split | apply endAttempt_kept | apply modPart_kept | apply event_kept | apply auditDevice_kept)

theorem takeCommit_kept {s₀ : State} (part : Part) (c : CommitSt) (t : DWord) (s : State) (h_s : Kept s₀ s) : Kept s₀ (takeCommit part c t s) := by
  unfold takeCommit
  try dsimp only
  repeat' (with_reducible first | assumption | intro _ | apply kept_ite | apply keptOut_ite | split | apply modModel_kept | apply passTc_kept | apply drainActive_kept | apply placeEpoch_kept | apply modBrick_kept | apply shareTables_kept | apply assignSlots_kept | apply activate_kept | apply modPart_kept | apply driftAtCommit_kept | apply temperCommitted_kept | apply wakeBlocks_kept | apply setLoad_kept | apply auditLoad_kept | apply kept_next | refine kept_of_eq (by assumption) ?_ | refine kept_of_eq_fst (by assumption) ?_ | apply kept_foldl)

theorem execModelTc_kept {s₀ : State} (part : Part) (s : State) (h_s : Kept s₀ s) : KeptOut s₀ (execModelTc part s) := by
  unfold execModelTc
  try dsimp only
  repeat' (with_reducible first | assumption | intro _ | apply kept_ite | apply keptOut_ite | split | apply broadcastTc_kept | apply takeCommit_kept | apply kept_next)

theorem execParamCommit_kept {s₀ : State} (path : Path) (part : Part) (block : ParamBlock) (s : State) (h_s : Kept s₀ s) : KeptOut s₀ (execParamCommit path part block s) := by
  unfold execParamCommit
  try dsimp only
  repeat' (with_reducible first | assumption | intro _ | apply kept_ite | apply keptOut_ite | split | apply commandWith_kept | apply loadCode_kept | apply modModel_kept | apply takeBlock_kept | apply kept_next)

theorem execParamTp_kept {s₀ : State} (part : Part) (s : State) (h_s : Kept s₀ s) : KeptOut s₀ (execParamTp part s) := by
  unfold execParamTp
  try dsimp only
  repeat' (with_reducible first | assumption | intro _ | apply kept_ite | apply keptOut_ite | split | apply modModel_kept | apply passTc_kept | apply closePallet_kept | apply modEpoch_kept | apply loadCode_kept | apply kept_next | refine kept_of_eq (by assumption) ?_ | refine kept_of_eq_fst (by assumption) ?_ | apply kept_foldl)

theorem answerPinned_kept {s₀ : State} (pin : Stamped → Bool) (hi lo : Nat) (s : State) (x : Nat × PDie) (h_s : Kept s₀ s) : Kept s₀ (answerPinned pin hi lo s x) := by
  unfold answerPinned
  try dsimp only
  repeat' (with_reducible first | assumption | intro _ | apply kept_ite | apply keptOut_ite | split | apply answerSlot_kept | apply modPdie_kept | apply finalVerdict_kept | apply kept_next | refine kept_of_eq (by assumption) ?_ | refine kept_of_eq_fst (by assumption) ?_ | apply kept_foldl)

theorem dropTokens_kept {s₀ : State} (drop : TokenMsg → Bool) (s : State) (h_s : Kept s₀ s) : Kept s₀ (dropTokens drop s) := by
  refine ⟨fun w => ⟨(h_s.wf w).1, fun d hd => ?_⟩, h_s.pending, h_s.free, h_s.time, h_s.fused⟩
  obtain ⟨x, hx, rfl⟩ := List.mem_map.1 hd
  exact (h_s.wf w).2 x hx

theorem answerEpoch_kept {s₀ : State} (part : Part) (e : BitVec 16) (hi lo : Nat) (s : State) (h_s : Kept s₀ s) : Kept s₀ (answerEpoch part e hi lo s) := by
  unfold answerEpoch
  try dsimp only
  repeat' (with_reducible first | assumption | intro _ | apply kept_ite | apply keptOut_ite | split | apply dropTokens_kept | apply answerPinned_kept | apply kept_next | refine kept_of_eq (by assumption) ?_ | refine kept_of_eq_fst (by assumption) ?_ | apply kept_foldl)

theorem execForcedRetirement_kept {s₀ : State} (part : Part) (s : State) (h_s : Kept s₀ s) : KeptOut s₀ (execForcedRetirement part s) := by
  unfold execForcedRetirement
  try dsimp only
  repeat' (with_reducible first | assumption | intro _ | apply kept_ite | apply keptOut_ite | split | apply answerEpoch_kept | apply modEpoch_kept | apply broadcastTc_kept | apply modModel_kept | apply kept_next)

theorem zeroPages_kept (mask : BitVec 2048) (m : List Host.Cell) (h : memWf m) : memWf (zeroPages mask m) := memWf_filter _ h

theorem withdraw_kept {s₀ : State} (part : Part) (groups : List Group) (pl : Placement) (s : State) (h_s : Kept s₀ s) : Kept s₀ (withdraw part groups pl s) := by
  unfold withdraw
  try dsimp only
  repeat' (with_reducible first | assumption | intro _ | apply kept_ite | apply keptOut_ite | split | apply modBrick_kept | apply zeroPages_kept | apply reserve_kept | apply kept_id | apply kept_next | refine kept_of_eq (by assumption) ?_ | refine kept_of_eq_fst (by assumption) ?_ | apply kept_foldl | apply kept_foldl_snd | apply kept_foldl_fst | apply kept_upd | rfl | exact fused_upd | exact Nat.le_refl _ | exact Nat.le_add_right _ _ | exact Kept.brick (by assumption) (by assumption) _ | apply brickWf_mem | apply brickWf_regs | apply brickWf_foldl | apply brickWf_mk | apply memWf_mk | apply regsWf_upd | apply memWf_dmem | apply memWf_bmem | apply memWf_imem | apply memWf_staging)

theorem freeSlots_kept {s₀ : State} (part : Part) (e : BitVec 16) (s : State) (h_s : Kept s₀ s) : Kept s₀ (freeSlots part e s) := by
  refine ⟨fun w => ⟨fun d hd => ?_, (h_s.wf w).2⟩, h_s.pending, h_s.free, h_s.time, h_s.fused⟩
  obtain ⟨x, hx, rfl⟩ := List.mem_map.1 hd
  exact (h_s.wf w).1 x hx

theorem execEpochFreed_kept {s₀ : State} (part : Part) (s : State) (h_s : Kept s₀ s) : KeptOut s₀ (execEpochFreed part s) := by
  unfold execEpochFreed
  try dsimp only
  repeat' (with_reducible first | assumption | intro _ | apply kept_ite | apply keptOut_ite | split | apply modModel_kept | apply freeSlots_kept | apply withdraw_kept | apply kept_id | apply kept_next)

theorem execGapPagesWritten_kept {s₀ : State} (part : Part) (s : State) (h_s : Kept s₀ s) : KeptOut s₀ (execGapPagesWritten part s) := by
  unfold execGapPagesWritten
  try dsimp only
  repeat' (with_reducible first | assumption | intro _ | apply kept_ite | apply keptOut_ite | split | apply writePages_kept | apply modEpoch_kept | apply kept_next | refine kept_of_eq (by assumption) ?_ | refine kept_of_eq_fst (by assumption) ?_ | apply kept_foldl | apply kept_foldl_snd)

end Sys2Proof.Machine
end

