-- ==== Sys2Proof/Laws/KeptDrift.lean ====
section
/-!
SUPPORT. What every operation and meaning of Machine/Drift.lean keeps.
-/

namespace Sys2Proof.Machine

open Sys2Proof

theorem startAttempt_kept {s₀ : State} (part : Part) (s : State) (h_s : Kept s₀ s) : Kept s₀ (startAttempt part s) := by
  unfold startAttempt
  try dsimp only
  repeat' (with_reducible first | assumption | intro _ | apply kept_ite | apply keptOut_ite | split | apply modPart_kept | apply modSdie_kept | apply kept_next | refine kept_of_eq (by assumption) ?_ | refine kept_of_eq_fst (by assumption) ?_ | apply kept_foldl | apply kept_foldl_snd | apply kept_foldl_fst | apply kept_upd | rfl | exact fused_upd | exact Nat.le_refl _ | exact Nat.le_add_right _ _ | exact Kept.sdie (by assumption) (by assumption) _ | apply sdieWf_dram | apply sdieWf_sram | apply sdieWf_mk)

theorem execDriftWindowEnd_kept {s₀ : State} (part : Part) (s : State) (h_s : Kept s₀ s) : KeptOut s₀ (execDriftWindowEnd part s) := by
  unfold execDriftWindowEnd
  try dsimp only
  repeat' (with_reducible first | assumption | intro _ | apply kept_ite | apply keptOut_ite | split | apply modPart_kept | apply event_kept | apply startAttempt_kept | apply kept_next)

theorem setDriftCtl_kept {s₀ : State} (p : Nat) (v : Word) (s : State) (h_s : Kept s₀ s) : Kept s₀ (setDriftCtl p v s) := by
  unfold setDriftCtl
  try dsimp only
  repeat' (with_reducible first | assumption | intro _ | apply kept_ite | apply keptOut_ite | split | apply modPart_kept | apply endAttempt_kept | apply startWatch_kept)

theorem execDriftCtlWrite_kept {s₀ : State} (path : Path) (part : Part) (value : Word) (s : State) (h_s : Kept s₀ s) : KeptOut s₀ (execDriftCtlWrite path part value s) := by
  unfold execDriftCtlWrite
  try dsimp only
  repeat' (with_reducible first | assumption | intro _ | apply kept_ite | apply keptOut_ite | split | apply commandWith_kept | apply setDriftCtl_kept | apply kept_id | apply kept_next)

theorem startReset_kept {s₀ : State} (p : Nat) (s : State) (h_s : Kept s₀ s) : Kept s₀ (startReset p s) := by
  unfold startReset
  try dsimp only
  repeat' (with_reducible first | assumption | intro _ | apply kept_ite | apply keptOut_ite | split | apply cntPart_kept | apply modPart_kept | apply abandonLoad_kept | apply endAttempt_kept)

theorem setOutcome_kept {s₀ : State} (p : Nat) (o : Byte) (s : State) (h_s : Kept s₀ s) : Kept s₀ (setOutcome p o s) := by
  unfold setOutcome
  try dsimp only
  repeat' (with_reducible first | assumption | intro _ | apply kept_ite | apply keptOut_ite | split | apply modPart_kept)

theorem execRetemperStart_kept {s₀ : State} (path : Path) (part : Part) (s : State) (h_s : Kept s₀ s) : KeptOut s₀ (execRetemperStart path part s) := by
  unfold execRetemperStart
  try dsimp only
  repeat' (with_reducible first | assumption | intro _ | apply kept_ite | apply keptOut_ite | split | apply commandWith_kept | apply setOutcome_kept | apply startAttempt_kept | apply kept_id | apply kept_next)

theorem execRetemperRevert_kept {s₀ : State} (path : Path) (part : Part) (s : State) (h_s : Kept s₀ s) : KeptOut s₀ (execRetemperRevert path part s) := by
  unfold execRetemperRevert
  try dsimp only
  repeat' (with_reducible first | assumption | intro _ | apply kept_ite | apply keptOut_ite | split | apply commandWith_kept | apply acceptCommit_kept | apply setOutcome_kept | apply kept_id | apply kept_next)

theorem execRetemperRelease_kept {s₀ : State} (path : Path) (part : Part) (s : State) (h_s : Kept s₀ s) : KeptOut s₀ (execRetemperRelease path part s) := by
  unfold execRetemperRelease
  try dsimp only
  repeat' (with_reducible first | assumption | intro _ | apply kept_ite | apply keptOut_ite | split | apply commandWith_kept | apply modPart_kept | apply kept_id | apply kept_next)

theorem execCaptureTimeout_kept {s₀ : State} (part : Part) (s : State) (h_s : Kept s₀ s) : KeptOut s₀ (execCaptureTimeout part s) := by
  unfold execCaptureTimeout
  try dsimp only
  repeat' (with_reducible first | assumption | intro _ | apply kept_ite | apply keptOut_ite | split | apply endCapture_kept | apply kept_next)

theorem execOptimisationStart_kept {s₀ : State} (part : Part) (brick : Brick) (s : State) (h_s : Kept s₀ s) : KeptOut s₀ (execOptimisationStart part brick s) := by
  unfold execOptimisationStart
  try dsimp only
  repeat' (with_reducible first | assumption | intro _ | apply kept_ite | apply keptOut_ite | split | apply modPart_kept | apply kept_next | refine kept_of_eq (by assumption) ?_ | refine kept_of_eq_fst (by assumption) ?_ | apply kept_foldl | apply kept_foldl_snd | apply kept_foldl_fst | apply kept_upd | rfl)

theorem execOptimisationComplete_kept {s₀ : State} (part : Part) (s : State) (h_s : Kept s₀ s) : KeptOut s₀ (execOptimisationComplete part s) := by
  unfold execOptimisationComplete
  try dsimp only
  repeat' (with_reducible first | assumption | intro _ | apply kept_ite | apply keptOut_ite | split | apply acceptCommit_kept | apply modPart_kept | apply endAttempt_kept | apply kept_next)

theorem execRetemperTimeout_kept {s₀ : State} (part : Part) (s : State) (h_s : Kept s₀ s) : KeptOut s₀ (execRetemperTimeout part s) := by
  unfold execRetemperTimeout
  try dsimp only
  repeat' (with_reducible first | assumption | intro _ | apply kept_ite | apply keptOut_ite | split | apply endAttempt_kept | apply kept_next)

theorem execRetemperLoopPinned_kept {s₀ : State} (part : Part) (s : State) (h_s : Kept s₀ s) : KeptOut s₀ (execRetemperLoopPinned part s) := by
  unfold execRetemperLoopPinned
  try dsimp only
  repeat' (with_reducible first | assumption | intro _ | apply kept_ite | apply keptOut_ite | split | apply modPart_kept | apply event_kept | apply kept_next)

end Sys2Proof.Machine
end

