-- ==== Sys2Proof/Laws/KeptFlowEvents.lean ====
section
/-!
SUPPORT. What every operation and meaning of Machine/FlowEvents.lean keeps.
-/

namespace Sys2Proof.Machine

open Sys2Proof

theorem execWarmProbeReply_kept {s₀ : State} (p : Die) (probe : Nat) (s : State) (h_s : Kept s₀ s) : KeptOut s₀ (execWarmProbeReply p probe s) := by
  unfold execWarmProbeReply
  try dsimp only
  repeat' (with_reducible first | assumption | intro _ | apply kept_ite | apply keptOut_ite | split | apply modSdie_kept | apply modPdie_kept | apply kept_id | apply kept_next | refine kept_of_eq (by assumption) ?_ | refine kept_of_eq_fst (by assumption) ?_ | apply kept_foldl | apply kept_foldl_snd | apply kept_foldl_fst | apply kept_upd | rfl | exact fused_upd | exact Nat.le_refl _ | exact Nat.le_add_right _ _ | exact Kept.sdie (by assumption) (by assumption) _ | apply sdieWf_dram | apply sdieWf_sram | apply sdieWf_mk)

theorem execWarmProbeTimeout_kept {s₀ : State} (p : Die) (probe : Nat) (s : State) (h_s : Kept s₀ s) : KeptOut s₀ (execWarmProbeTimeout p probe s) := by
  unfold execWarmProbeTimeout
  try dsimp only
  repeat' (with_reducible first | assumption | intro _ | apply kept_ite | apply keptOut_ite | split | apply modPdie_kept | apply kept_id | apply kept_next)

theorem execDemotion_kept {s₀ : State} (sdie : Die) (s : State) (h_s : Kept s₀ s) : KeptOut s₀ (execDemotion sdie s) := by
  unfold execDemotion
  try dsimp only
  repeat' (with_reducible first | assumption | intro _ | apply kept_ite | apply keptOut_ite | split | apply putSdie_kept | apply cntPdie_kept | apply modSdie_kept | apply kept_next | refine kept_of_eq (by assumption) ?_ | refine kept_of_eq_fst (by assumption) ?_ | apply kept_foldl | apply kept_foldl_snd | apply kept_foldl_fst | apply kept_upd | rfl | exact fused_upd | exact Nat.le_refl _ | exact Nat.le_add_right _ _ | exact Kept.sdie (by assumption) (by assumption) _ | apply sdieWf_dram | apply sdieWf_sram | apply sdieWf_mk)

theorem execSweeperVisit_kept {s₀ : State} (p : Die) (s : State) (h_s : Kept s₀ s) : KeptOut s₀ (execSweeperVisit p s) := by
  unfold execSweeperVisit
  try dsimp only
  repeat' (with_reducible first | assumption | intro _ | apply kept_ite | apply keptOut_ite | split | apply loopOutput_kept | apply modPdie_kept | apply kept_next)

theorem execWarmSweeperVisit_kept {s₀ : State} (sdie : Die) (s : State) (h_s : Kept s₀ s) : KeptOut s₀ (execWarmSweeperVisit sdie s) := by
  unfold execWarmSweeperVisit
  try dsimp only
  repeat' (with_reducible first | assumption | intro _ | apply kept_ite | apply keptOut_ite | split | apply putSdie_kept | apply cntPdie_kept | apply kept_next | refine kept_of_eq (by assumption) ?_ | refine kept_of_eq_fst (by assumption) ?_ | apply kept_foldl | apply kept_foldl_snd | apply kept_foldl_fst | apply kept_upd | rfl | exact fused_upd | exact Nat.le_refl _ | exact Nat.le_add_right _ _ | exact Kept.sdie (by assumption) (by assumption) _ | apply sdieWf_dram | apply sdieWf_sram | apply sdieWf_mk)

end Sys2Proof.Machine
end

