-- ==== Sys2Proof/Laws/KeptMemSys.lean ====
section
/-!
SUPPORT. What every operation and meaning of Machine/MemSys.lean keeps.
-/

namespace Sys2Proof.Machine

open Sys2Proof

theorem cacheTouch_kept (sets line : Nat) (unread : Bool) (x : SDie) (h_x : SDieWf x) : SDieWf (cacheTouch sets line unread x).1 := by
  unfold cacheTouch
  try dsimp only
  repeat' (with_reducible first | assumption | intro _ | split | apply sdieWf_dram | apply sdieWf_sram | apply sdieWf_mk)

theorem cacheRead_kept {s₀ : State} (sets line i : Nat) (s : State) (h_s : Kept s₀ s) : Kept s₀ (cacheRead sets line i s) := by
  unfold cacheRead
  try dsimp only
  repeat' (with_reducible first | assumption | intro _ | apply kept_ite | apply keptOut_ite | split | apply cacheTouch_kept | apply cntSdie_kept | apply putSdie_kept | apply kept_next | refine kept_of_eq (by assumption) ?_ | refine kept_of_eq_fst (by assumption) ?_ | apply kept_foldl | apply kept_foldl_snd | apply kept_foldl_fst | apply kept_upd | rfl | exact fused_upd | exact Nat.le_refl _ | exact Nat.le_add_right _ _ | exact Kept.sdie (by assumption) (by assumption) _)

theorem prefetch_kept {s₀ : State} (sets i : Nat) (lines : List Nat) (s : State) (h_s : Kept s₀ s) : Kept s₀ (prefetch sets i lines s) := by
  unfold prefetch
  refine kept_foldl (fun s line h => ?_) h_s
  dsimp only
  split
  · exact h
  · have h1 := cntSdie_kept i 2 1 _ (putSdie_kept (b := i) (fun w => cacheTouch_kept sets line true _ (h.sdie w i)) h)
    split
    · exact cntSdie_kept i 3 1 _ h1
    · exact h1

theorem eccCount_kept {s₀ : State} (i : Nat) (ecc : EccOutcome) (addr line : Nat) (s : State) (h_s : Kept s₀ s) : Kept s₀ (eccCount i ecc addr line s) := by
  unfold eccCount
  try dsimp only
  repeat' (with_reducible first | assumption | intro _ | apply kept_ite | apply keptOut_ite | split | apply cntSdie_kept | apply modSdie_kept | apply kept_next | refine kept_of_eq (by assumption) ?_ | refine kept_of_eq_fst (by assumption) ?_ | apply kept_foldl | apply kept_foldl_snd | apply kept_foldl_fst | apply kept_upd | rfl | exact fused_upd | exact Nat.le_refl _ | exact Nat.le_add_right _ _ | exact Kept.sdie (by assumption) (by assumption) _ | apply sdieWf_dram | apply sdieWf_sram | apply sdieWf_mk)

theorem placeWrite_kept {s₀ : State} (p : MemPlace) (bs : List Byte) (s : State) (h_s : Kept s₀ s) : Kept s₀ (placeWrite p bs s) := by
  unfold placeWrite
  try dsimp only
  repeat' (with_reducible first | assumption | intro _ | apply kept_ite | apply keptOut_ite | split | apply modSdie_kept | apply kept_next | refine kept_of_eq (by assumption) ?_ | refine kept_of_eq_fst (by assumption) ?_ | apply kept_foldl | apply kept_foldl_snd | apply kept_foldl_fst | apply kept_upd | rfl | exact fused_upd | exact Nat.le_refl _ | exact Nat.le_add_right _ _ | exact Kept.sdie (by assumption) (by assumption) _ | apply sdieWf_dram | apply sdieWf_sram | apply sdieWf_mk | apply memWf_memPutBytes)

theorem respond_kept {s₀ : State} (i : Nat) (r : MemResponse) (s : State) (h_s : Kept s₀ s) : Kept s₀ (respond i r s) := by
  unfold respond
  try dsimp only
  repeat' (with_reducible first | assumption | intro _ | apply kept_ite | apply keptOut_ite | split | apply modSdie_kept | apply kept_next | refine kept_of_eq (by assumption) ?_ | refine kept_of_eq_fst (by assumption) ?_ | apply kept_foldl | apply kept_foldl_snd | apply kept_foldl_fst | apply kept_upd | rfl | exact fused_upd | exact Nat.le_refl _ | exact Nat.le_add_right _ _ | exact Kept.sdie (by assumption) (by assumption) _ | apply sdieWf_dram | apply sdieWf_sram | apply sdieWf_mk)

theorem streamRequest_kept {s₀ : State} (i b d : Nat) (ecc : EccOutcome) (s : State) (h_s : Kept s₀ s) : Kept s₀ (streamRequest i b d ecc s) := by
  unfold streamRequest
  try dsimp only
  repeat' (with_reducible first | assumption | intro _ | apply kept_ite | apply keptOut_ite | split | apply putBrick_kept | apply cntSdie_kept | apply respond_kept | apply placeWrite_kept | apply eccCount_kept | apply cacheRead_kept | apply prefetch_kept | apply kept_next | refine kept_of_eq (by assumption) ?_ | refine kept_of_eq_fst (by assumption) ?_ | apply kept_foldl | apply kept_foldl_snd | apply kept_foldl_fst | apply kept_upd | rfl | exact fused_upd | exact Nat.le_refl _ | exact Nat.le_add_right _ _ | exact Kept.brick (by assumption) (by assumption) _ | apply brickWf_mem | apply brickWf_regs | apply brickWf_foldl | apply brickWf_mk)

theorem execMemoryRequest_kept {s₀ : State} (sdie : Die) (req : MemRequest) (ecc : EccOutcome) (s : State) (h_s : Kept s₀ s) : KeptOut s₀ (execMemoryRequest sdie req ecc s) := by
  unfold execMemoryRequest
  try dsimp only
  repeat' (with_reducible first | assumption | intro _ | apply kept_ite | apply keptOut_ite | split | apply streamRequest_kept | apply eccCount_kept | apply cntSdie_kept | apply cacheRead_kept | apply placeWrite_kept | apply kept_next)

theorem execMemoryResponse_kept {s₀ : State} (sdie : Die) (s : State) (h_s : Kept s₀ s) : KeptOut s₀ (execMemoryResponse sdie s) := by
  unfold execMemoryResponse
  try dsimp only
  repeat' (with_reducible first | assumption | intro _ | apply kept_ite | apply keptOut_ite | split | apply putSdie_kept | apply modBrick_kept | apply kept_next | refine kept_of_eq (by assumption) ?_ | refine kept_of_eq_fst (by assumption) ?_ | apply kept_foldl | apply kept_foldl_snd | apply kept_foldl_fst | apply kept_upd | rfl | exact fused_upd | exact Nat.le_refl _ | exact Nat.le_add_right _ _ | exact Kept.brick (by assumption) (by assumption) _ | apply brickWf_mem | apply brickWf_regs | apply brickWf_foldl | apply brickWf_mk | apply memWf_mk | apply regsWf_upd | apply memWf_dmem | apply memWf_bmem | apply memWf_imem | apply memWf_staging | apply memWf_memPutBytes | apply memWf_memZero | apply memWf_filter | exact memWf_nil | exact brickWf_default | exact regsWf_default | exact memWf_default | apply kept_updB | apply mapAll_prop (P := BrickWf) | exact Kept.sdie (by assumption) (by assumption) _ | apply sdieWf_dram | apply sdieWf_sram | apply sdieWf_mk)

theorem execLineRewrite_kept {s₀ : State} (sdie : Die) (addr : Nat) (s : State) (h_s : Kept s₀ s) : KeptOut s₀ (execLineRewrite sdie addr s) := by
  unfold execLineRewrite
  try dsimp only
  repeat' (with_reducible first | assumption | intro _ | apply kept_ite | apply keptOut_ite | split | apply modSdie_kept | apply kept_next | refine kept_of_eq (by assumption) ?_ | refine kept_of_eq_fst (by assumption) ?_ | apply kept_foldl | apply kept_foldl_snd | apply kept_foldl_fst | apply kept_upd | rfl | exact fused_upd | exact Nat.le_refl _ | exact Nat.le_add_right _ _ | exact Kept.sdie (by assumption) (by assumption) _ | apply sdieWf_dram | apply sdieWf_sram | apply sdieWf_mk)

end Sys2Proof.Machine
end

