-- ==== Sys2Proof/Laws/KeptStructure.lean ====
section
/-!
SUPPORT. What every operation and meaning of Machine/Structure.lean keeps.
-/

namespace Sys2Proof.Machine

open Sys2Proof

theorem setStruct_kept {s₀ : State} (f : StructSt → StructSt) (s : State) (h_s : Kept s₀ s) : Kept s₀ (setStruct f s) := by
  unfold setStruct
  try dsimp only
  repeat' (with_reducible first | assumption | intro _ | apply kept_ite | apply keptOut_ite | split | apply event_kept | apply kept_next | refine kept_of_eq (by assumption) ?_ | refine kept_of_eq_fst (by assumption) ?_ | apply kept_foldl | apply kept_foldl_snd | apply kept_foldl_fst | apply kept_upd | rfl)

theorem structCode_kept {s₀ : State} (code : Byte) (s : State) (h_s : Kept s₀ s) : Kept s₀ (structCode code s) := by
  unfold structCode
  try dsimp only
  repeat' (with_reducible first | assumption | intro _ | apply kept_ite | apply keptOut_ite | split | apply setStruct_kept)

theorem auditStruct_kept {s₀ : State} (result : Nat) (code : Byte) (s : State) (h_s : Kept s₀ s) : Kept s₀ (auditStruct result code s) := by
  unfold auditStruct
  try dsimp only
  repeat' (with_reducible first | assumption | intro _ | apply kept_ite | apply keptOut_ite | split | apply auditDevice_kept)

theorem adoptImage_kept {s₀ : State} (i : StructImage) (s : State) (h_s : Kept s₀ s) : Kept s₀ (adoptImage i s) := by
  unfold adoptImage
  try dsimp only
  repeat' (with_reducible first | assumption | intro _ | apply kept_ite | apply keptOut_ite | split | apply kept_next | refine kept_of_eq (by assumption) ?_ | refine kept_of_eq_fst (by assumption) ?_ | apply kept_foldl | apply kept_foldl_snd | apply kept_foldl_fst | apply kept_upd | rfl)

theorem failStruct_kept {s₀ : State} (code : Byte) (sec : Nat) (s : State) (h_s : Kept s₀ s) : Kept s₀ (failStruct code sec s) := by
  unfold failStruct
  try dsimp only
  repeat' (with_reducible first | assumption | intro _ | apply kept_ite | apply keptOut_ite | split | apply setStruct_kept | apply auditStruct_kept)

theorem abandonStruct_kept {s₀ : State} (code : Byte) (s : State) (h_s : Kept s₀ s) : Kept s₀ (abandonStruct code s) := by
  unfold abandonStruct
  try dsimp only
  repeat' (with_reducible first | assumption | intro _ | apply kept_ite | apply keptOut_ite | split | apply failStruct_kept)

theorem execStructStage_kept {s₀ : State} (path : Path) (image : StructImage) (s : State) (h_s : Kept s₀ s) : KeptOut s₀ (execStructStage path image s) := by
  unfold execStructStage
  try dsimp only
  repeat' (with_reducible first | assumption | intro _ | apply kept_ite | apply keptOut_ite | split | apply commandWith_kept | apply structCode_kept | apply setStruct_kept | apply kept_next)

theorem execStructCheckComplete_kept {s₀ : State} (s : State) (h_s : Kept s₀ s) : KeptOut s₀ (execStructCheckComplete s) := by
  unfold execStructCheckComplete
  try dsimp only
  repeat' (with_reducible first | assumption | intro _ | apply kept_ite | apply keptOut_ite | split | apply setXlate_kept | apply failStruct_kept | apply setStruct_kept | apply auditStruct_kept | apply kept_next)

theorem execStructAbort_kept {s₀ : State} (path : Path) (s : State) (h_s : Kept s₀ s) : KeptOut s₀ (execStructAbort path s) := by
  unfold execStructAbort
  try dsimp only
  repeat' (with_reducible first | assumption | intro _ | apply kept_ite | apply keptOut_ite | split | apply commandWith_kept | apply structCode_kept | apply failStruct_kept | apply kept_next)

theorem leaveBrick_kept (p : Nat) (mask : BitVec 2048) (x : BrickSt) (h_x : BrickWf x) : BrickWf (leaveBrick p mask x) := by
  unfold leaveBrick
  try dsimp only
  repeat' (with_reducible first | assumption | intro _ | apply brickWf_ite | split | apply zeroPages_kept | apply brickWf_mem | apply brickWf_regs | apply brickWf_foldl | apply brickWf_mk | apply memWf_mk | apply regsWf_upd | apply memWf_dmem | apply memWf_bmem | apply memWf_imem | apply memWf_staging)

theorem rePlace_kept {s₀ : State} (p : Part) (before : List (BitVec 16 × List Nat)) (s : State) (h_s : Kept s₀ s) : Kept s₀ (rePlace p before s) := by
  unfold rePlace
  try dsimp only
  repeat' (with_reducible first | assumption | intro _ | apply kept_ite | apply keptOut_ite | split | apply modBrick_kept | apply leaveBrick_kept | apply placeBrick_kept | apply modEpoch_kept | apply kept_next | refine kept_of_eq (by assumption) ?_ | refine kept_of_eq_fst (by assumption) ?_ | apply kept_foldl | apply kept_foldl_snd)

theorem modRunning_kept {s₀ : State} (f : StructSections → StructSections) (s : State) (h_s : Kept s₀ s) : Kept s₀ (modRunning f s) := by
  unfold modRunning
  try dsimp only
  repeat' (with_reducible first | assumption | intro _ | apply kept_ite | apply keptOut_ite | split | apply kept_next | refine kept_of_eq (by assumption) ?_ | refine kept_of_eq_fst (by assumption) ?_ | apply kept_foldl | apply kept_foldl_snd | apply kept_foldl_fst | apply kept_upd | rfl)

theorem dStep_kept {s₀ : State} (u : Nat) (x : StructSections) (s : State) (h_s : Kept s₀ s) : Kept s₀ (dStep u x s) := by
  unfold dStep
  try dsimp only
  repeat' (with_reducible first | assumption | intro _ | apply kept_ite | apply keptOut_ite | split | apply failPalletsOn_kept | apply modBrick_kept | apply modRunning_kept | apply modPart_kept | apply rePlace_kept | apply portDown_kept | apply modPort_kept | apply kept_next | refine kept_of_eq (by assumption) ?_ | refine kept_of_eq_fst (by assumption) ?_ | apply kept_foldl | apply kept_foldl_snd | apply kept_foldl_fst | apply kept_upd | rfl | exact fused_upd | exact Nat.le_refl _ | exact Nat.le_add_right _ _ | exact Kept.brick (by assumption) (by assumption) _ | apply brickWf_mem | apply brickWf_regs | apply brickWf_foldl | apply brickWf_mk)

theorem chooseTc_kept {s₀ : State} (x : StructSections) (s : State) (h_s : Kept s₀ s) : Kept s₀ (chooseTc x s) := by
  unfold chooseTc
  try dsimp only
  repeat' (with_reducible first | assumption | intro _ | apply kept_ite | apply keptOut_ite | split | apply scheduleTc_kept | apply kept_next | refine kept_of_eq (by assumption) ?_ | refine kept_of_eq_fst (by assumption) ?_ | apply kept_foldl | apply kept_foldl_snd | apply kept_foldl_fst | apply kept_upd | rfl)

theorem afterDSteps_kept {s₀ : State} (s : State) (h_s : Kept s₀ s) : Kept s₀ (afterDSteps s) := by
  unfold afterDSteps
  try dsimp only
  repeat' (with_reducible first | assumption | intro _ | apply kept_ite | apply keptOut_ite | split | apply chooseTc_kept | apply setStruct_kept | apply auditStruct_kept | apply adoptImage_kept)

theorem execStructApply_kept {s₀ : State} (path : Path) (s : State) (h_s : Kept s₀ s) : KeptOut s₀ (execStructApply path s) := by
  unfold execStructApply
  try dsimp only
  repeat' (with_reducible first | assumption | intro _ | apply kept_ite | apply keptOut_ite | split | apply commandWith_kept | apply structCode_kept | apply afterDSteps_kept | apply setStruct_kept | apply kept_next)

theorem execDStepComplete_kept {s₀ : State} (s : State) (h_s : Kept s₀ s) : KeptOut s₀ (execDStepComplete s) := by
  unfold execDStepComplete
  try dsimp only
  repeat' (with_reducible first | assumption | intro _ | apply kept_ite | apply keptOut_ite | split | apply dStep_kept | apply afterDSteps_kept | apply kept_next | refine kept_of_eq (by assumption) ?_ | refine kept_of_eq_fst (by assumption) ?_ | apply kept_foldl | apply kept_foldl_snd | apply kept_foldl_fst | apply kept_upd | rfl)

theorem imageRegs_kept {s₀ : State} (p : Nat) (s : State) (h_s : Kept s₀ s) : Kept s₀ (imageRegs p s) := by
  unfold imageRegs
  try dsimp only
  repeat' (with_reducible first | assumption | intro _ | apply kept_ite | apply keptOut_ite | split | apply modPart_kept)

theorem imageDrift_kept {s₀ : State} (p : Nat) (s : State) (h_s : Kept s₀ s) : Kept s₀ (imageDrift p s) := by
  unfold imageDrift
  try dsimp only
  repeat' (with_reducible first | assumption | intro _ | apply kept_ite | apply keptOut_ite | split | apply setDriftCtl_kept)

theorem clampBounds_kept {s₀ : State} (s : State) (h_s : Kept s₀ s) : Kept s₀ (clampBounds s) := by
  unfold clampBounds
  try dsimp only
  repeat' (with_reducible first | assumption | intro _ | apply kept_ite | apply keptOut_ite | split | apply kept_next | refine kept_of_eq (by assumption) ?_ | refine kept_of_eq_fst (by assumption) ?_ | apply kept_foldl | apply kept_foldl_snd | apply kept_foldl_fst | apply kept_upd | rfl)

theorem writeSteer_kept {s₀ : State} (t : List Byte) (s : State) (h_s : Kept s₀ s) : Kept s₀ (writeSteer t s) := by
  unfold writeSteer
  try dsimp only
  repeat' (with_reducible first | assumption | intro _ | apply kept_ite | apply keptOut_ite | split | apply modLdie_kept | apply kept_next | refine kept_of_eq (by assumption) ?_ | refine kept_of_eq_fst (by assumption) ?_ | apply kept_foldl)

theorem newStruct_kept {s₀ : State} (t : DWord) (s : State) (h_s : Kept s₀ s) : Kept s₀ (newStruct t s) := by
  unfold newStruct
  try dsimp only
  repeat' (with_reducible first | assumption | intro _ | apply kept_ite | apply keptOut_ite | split | apply passTc_kept | apply imageRegs_kept | apply imageDrift_kept | apply clampBounds_kept | apply startReset_kept | apply retireStruct_kept | apply setStruct_kept | apply auditStruct_kept | apply adoptImage_kept | apply kept_next | refine kept_of_eq (by assumption) ?_ | refine kept_of_eq_fst (by assumption) ?_ | apply kept_foldl | apply kept_foldl_snd | apply kept_foldl_fst | apply kept_upd | rfl)

theorem execStructTc_kept {s₀ : State} (s : State) (h_s : Kept s₀ s) : KeptOut s₀ (execStructTc s) := by
  unfold execStructTc
  try dsimp only
  repeat' (with_reducible first | assumption | intro _ | apply kept_ite | apply keptOut_ite | split | apply newStruct_kept | apply afterDSteps_kept | apply kept_next)

theorem execPauseStart_kept {s₀ : State} (s : State) (h_s : Kept s₀ s) : KeptOut s₀ (execPauseStart s) := by
  unfold execPauseStart
  try dsimp only
  repeat' (with_reducible first | assumption | intro _ | apply kept_ite | apply keptOut_ite | split | apply afterDSteps_kept | apply kept_next | refine kept_of_eq (by assumption) ?_ | refine kept_of_eq_fst (by assumption) ?_ | apply kept_foldl | apply kept_foldl_snd | apply kept_foldl_fst | apply kept_upd | rfl)

theorem flipFlow_kept {s₀ : State} (i : StructImage) (s : State) (h_s : Kept s₀ s) : Kept s₀ (flipFlow i s) := by
  have h := kept_foldl (l := List.range 4) (fun s p hs => modPdie_kept p (fun x : PDie => { x with flushLeft := hotBuckets }) s hs)
    (s := { s with st := { s.st with geomEpoch := s.st.geomEpoch + 1 } }) ⟨h_s.wf, h_s.pending, h_s.free, h_s.time, h_s.fused⟩
  unfold flipFlow
  dsimp only
  refine writeSteer_kept _ _ ?_
  generalize List.foldl _ _ _ = t at h ⊢
  refine ⟨fun w => ⟨(h.wf w).1, fun d hd => ?_⟩, h.pending, h.free, h.time, h.fused⟩
  obtain ⟨x, hx, rfl⟩ := List.mem_map.1 hd
  exact (h.wf w).2 x hx

theorem execBankFlip_kept {s₀ : State} (s : State) (h_s : Kept s₀ s) : KeptOut s₀ (execBankFlip s) := by
  unfold execBankFlip
  try dsimp only
  repeat' (with_reducible first | assumption | intro _ | apply kept_ite | apply keptOut_ite | split | apply modPdie_kept | apply flipFlow_kept | apply kept_next | refine kept_of_eq (by assumption) ?_ | refine kept_of_eq_fst (by assumption) ?_ | apply kept_foldl | apply kept_foldl_snd | apply kept_foldl_fst | apply kept_upd | rfl)

theorem execPauseAbandoned_kept {s₀ : State} (s : State) (h_s : Kept s₀ s) : KeptOut s₀ (execPauseAbandoned s) := by
  unfold execPauseAbandoned
  try dsimp only
  repeat' (with_reducible first | assumption | intro _ | apply kept_ite | apply keptOut_ite | split | apply failStruct_kept | apply kept_next | refine kept_of_eq (by assumption) ?_ | refine kept_of_eq_fst (by assumption) ?_ | apply kept_foldl | apply kept_foldl_snd | apply kept_foldl_fst | apply kept_upd | rfl)

theorem moveInstants_kept {s₀ : State} (release : DWord) (s : State) (h_s : Kept s₀ s) : Kept s₀ (moveInstants release s) := by
  unfold moveInstants
  try dsimp only
  repeat' (with_reducible first | assumption | intro _ | apply kept_ite | apply keptOut_ite | split | apply kept_next | refine kept_of_eq (by assumption) ?_ | refine kept_of_eq_fst (by assumption) ?_ | apply kept_foldl | apply kept_foldl_snd | apply kept_foldl_fst | apply kept_upd | rfl | exact fused_upd)

theorem execPauseRelease_kept {s₀ : State} (s : State) (h_s : Kept s₀ s) : KeptOut s₀ (execPauseRelease s) := by
  unfold execPauseRelease
  try dsimp only
  repeat' (with_reducible first | assumption | intro _ | apply kept_ite | apply keptOut_ite | split | apply modPdie_kept | apply moveInstants_kept | apply newStruct_kept | apply returnCredits_kept | apply kept_next | refine kept_of_eq (by assumption) ?_ | refine kept_of_eq_fst (by assumption) ?_ | apply kept_foldl | apply kept_foldl_snd | apply kept_foldl_fst | apply kept_upd | rfl)

theorem execStructForcedRetirement_kept {s₀ : State} (s : State) (h_s : Kept s₀ s) : KeptOut s₀ (execStructForcedRetirement s) := by
  unfold execStructForcedRetirement
  try dsimp only
  repeat' (with_reducible first | assumption | intro _ | apply kept_ite | apply keptOut_ite | split | apply dropTokens_kept | apply answerPinned_kept | apply afterDSteps_kept | apply retireStruct_kept | apply kept_next | refine kept_of_eq (by assumption) ?_ | refine kept_of_eq_fst (by assumption) ?_ | apply kept_foldl | apply kept_foldl_snd | apply kept_foldl_fst | apply kept_upd | rfl)

end Sys2Proof.Machine
end

