-- ==== Sys2Proof/Laws/KeptPoint.lean ====
section
/-!
SUPPORT. What every operation and meaning of Machine/Point.lean keeps.
-/

namespace Sys2Proof.Machine

open Sys2Proof

theorem unitTo_kept {s₀ : State} (kind : Nat) (unit : Word) (st : PointState) (s : State) (h_s : Kept s₀ s) : Kept s₀ (unitTo kind unit st s) := by
  unfold unitTo
  try dsimp only
  repeat' (with_reducible first | assumption | intro _ | apply kept_ite | apply keptOut_ite | split | apply modUnit_kept)

theorem countLasting_kept {s₀ : State} (s : State) (h_s : Kept s₀ s) : Kept s₀ (countLasting s) := by
  unfold countLasting
  try dsimp only
  repeat' (with_reducible first | assumption | intro _ | apply kept_ite | apply keptOut_ite | split | apply cntWdn_kept | apply raiseInt_kept)

theorem capsChanged_kept {s₀ : State} (s : State) (h_s : Kept s₀ s) : Kept s₀ (capsChanged s) := by
  unfold capsChanged
  try dsimp only
  repeat' (with_reducible first | assumption | intro _ | apply kept_ite | apply keptOut_ite | split | apply kept_next | refine kept_of_eq (by assumption) ?_ | refine kept_of_eq_fst (by assumption) ?_ | apply kept_foldl | apply kept_foldl_snd | apply kept_foldl_fst | apply kept_upd | rfl | exact fused_upd)

theorem repaired_kept {s₀ : State} (s : State) (h_s : Kept s₀ s) : Kept s₀ (repaired s) := by
  unfold repaired
  try dsimp only
  repeat' (with_reducible first | assumption | intro _ | apply kept_ite | apply keptOut_ite | split | apply kept_next | refine kept_of_eq (by assumption) ?_ | refine kept_of_eq_fst (by assumption) ?_ | apply kept_foldl | apply kept_foldl_snd | apply kept_foldl_fst | apply kept_upd | rfl)

theorem coverPart_kept {s₀ : State} (p : Nat) (s : State) (h_s : Kept s₀ s) : Kept s₀ (coverPart p s) := by
  unfold coverPart
  try dsimp only
  repeat' (with_reducible first | assumption | intro _ | apply kept_ite | apply keptOut_ite | split | apply modPart_kept | apply refuseLoad_kept | apply kept_next | refine kept_of_eq (by assumption) ?_ | refine kept_of_eq_fst (by assumption) ?_ | apply kept_foldl | apply kept_foldl_snd | apply kept_foldl_fst | apply kept_upd | rfl)

theorem coverAll_kept {s₀ : State} (s : State) (h_s : Kept s₀ s) : Kept s₀ (coverAll s) := by
  unfold coverAll
  try dsimp only
  repeat' (with_reducible first | assumption | intro _ | apply kept_ite | apply keptOut_ite | split | apply coverPart_kept | apply kept_next | refine kept_of_eq (by assumption) ?_ | refine kept_of_eq_fst (by assumption) ?_ | apply kept_foldl)

theorem fenceGroup_kept {s₀ : State} (b : Nat) (s : State) (h_s : Kept s₀ s) : Kept s₀ (fenceGroup b s) := by
  unfold fenceGroup
  try dsimp only
  repeat' (with_reducible first | assumption | intro _ | apply kept_ite | apply keptOut_ite | split | apply fenceBrick_kept | apply kept_next | refine kept_of_eq (by assumption) ?_ | refine kept_of_eq_fst (by assumption) ?_ | apply kept_foldl)

theorem dropOptimiser_kept {s₀ : State} (b : Nat) (s : State) (h_s : Kept s₀ s) : Kept s₀ (dropOptimiser b s) := by
  unfold dropOptimiser
  try dsimp only
  repeat' (with_reducible first | assumption | intro _ | apply kept_ite | apply keptOut_ite | split | apply kept_next | refine kept_of_eq (by assumption) ?_ | refine kept_of_eq_fst (by assumption) ?_ | apply kept_foldl | apply kept_foldl_snd | apply kept_foldl_fst | apply kept_upd | rfl)

theorem startRehome_kept {s₀ : State} (course : Nat) (s : State) (h_s : Kept s₀ s) : Kept s₀ (startRehome course s) := by
  unfold startRehome
  try dsimp only
  repeat' (with_reducible first | assumption | intro _ | apply kept_ite | apply keptOut_ite | split | apply modBrick_kept | apply kept_next | refine kept_of_eq (by assumption) ?_ | refine kept_of_eq_fst (by assumption) ?_ | apply kept_foldl | apply kept_foldl_snd | apply kept_foldl_fst | apply kept_upd | rfl | exact fused_upd | exact Nat.le_refl _ | exact Nat.le_add_right _ _ | exact Kept.brick (by assumption) (by assumption) _ | apply brickWf_mem | apply brickWf_regs | apply brickWf_foldl | apply brickWf_mk)

theorem pointCdie_kept {s₀ : State} (c det : Nat) (cls : Nat) (detail : Word) (s : State) (h_s : Kept s₀ s) : Kept s₀ (pointCdie c det cls detail s) := by
  unfold pointCdie
  try dsimp only
  repeat' (with_reducible first | assumption | intro _ | apply kept_ite | apply keptOut_ite | split | apply fenceBrick_kept | apply dropOptimiser_kept | apply faultRecord_kept | apply modBrick_kept | apply capsChanged_kept | apply repaired_kept | apply unitTo_kept | apply startRehome_kept | apply coverAll_kept | apply kept_next | refine kept_of_eq (by assumption) ?_ | refine kept_of_eq_fst (by assumption) ?_ | apply kept_foldl | apply kept_foldl_snd | apply kept_foldl_fst | apply kept_upd | rfl | exact fused_upd | exact Nat.le_refl _ | exact Nat.le_add_right _ _ | exact Kept.brick (by assumption) (by assumption) _ | apply brickWf_mem | apply brickWf_regs | apply brickWf_foldl | apply brickWf_mk)

theorem pointBrick_kept {s₀ : State} (b det halt : Nat) (detail : Word) (s : State) (h_s : Kept s₀ s) : Kept s₀ (pointBrick b det halt detail s) := by
  unfold pointBrick
  try dsimp only
  repeat' (with_reducible first | assumption | intro _ | apply kept_ite | apply keptOut_ite | split | apply faultRecord_kept | apply fenceGroup_kept | apply dropOptimiser_kept | apply unitTo_kept | apply retireBrick_kept | apply coverAll_kept | apply pointCdie_kept)

theorem ledgerAnswer_kept {s₀ : State} (l : Nat) (e : LedgerEntry) (s : State) (h_s : Kept s₀ s) : Kept s₀ (ledgerAnswer l e s) := by
  unfold ledgerAnswer
  try dsimp only
  repeat' (with_reducible first | assumption | intro _ | apply kept_ite | apply keptOut_ite | split | apply modLdie_kept | apply cntWdn_kept | apply cntPart_kept | apply modPart_kept | apply lowerInflight_kept)

theorem ledgerScan_kept {s₀ : State} (p l : Nat) (s : State) (h_s : Kept s₀ s) : Kept s₀ (ledgerScan p l s) := by
  unfold ledgerScan
  try dsimp only
  repeat' (with_reducible first | assumption | intro _ | apply kept_ite | apply keptOut_ite | split | apply ledgerAnswer_kept | apply kept_next | refine kept_of_eq (by assumption) ?_ | refine kept_of_eq_fst (by assumption) ?_ | apply kept_foldl)

theorem resteer_kept {s₀ : State} (s : State) (h_s : Kept s₀ s) : Kept s₀ (resteer s) := by
  unfold resteer
  try dsimp only
  repeat' (with_reducible first | assumption | intro _ | apply kept_ite | apply keptOut_ite | split | apply modLdie_kept | apply kept_next | refine kept_of_eq (by assumption) ?_ | refine kept_of_eq_fst (by assumption) ?_ | apply kept_foldl)

theorem fencePdie_kept {s₀ : State} (p : Nat) (s : State) (h_s : Kept s₀ s) : Kept s₀ (fencePdie p s) := by
  unfold fencePdie
  try dsimp only
  repeat' (with_reducible first | assumption | intro _ | apply kept_ite | apply keptOut_ite | split | apply cntWdn_kept | apply modPdie_kept | apply capsChanged_kept | apply resteer_kept | apply ledgerScan_kept | apply kept_next | refine kept_of_eq (by assumption) ?_ | refine kept_of_eq_fst (by assumption) ?_ | apply kept_foldl | apply kept_foldl_snd | apply kept_foldl_fst | apply kept_upd | rfl)

theorem pointPdie_kept {s₀ : State} (p det cls : Nat) (detail : Word) (s : State) (h_s : Kept s₀ s) : Kept s₀ (pointPdie p det cls detail s) := by
  unfold pointPdie
  try dsimp only
  repeat' (with_reducible first | assumption | intro _ | apply kept_ite | apply keptOut_ite | split | apply faultRecord_kept | apply fencePdie_kept | apply repaired_kept | apply unitTo_kept)

theorem pointMacro_kept {s₀ : State} (p det : Nat) (unit : Word) (detail : Word) (s : State) (h_s : Kept s₀ s) : Kept s₀ (pointMacro p det unit detail s) := by
  unfold pointMacro
  try dsimp only
  repeat' (with_reducible first | assumption | intro _ | apply kept_ite | apply keptOut_ite | split | apply faultRecord_kept | apply unitTo_kept | apply modPdie_kept | apply pointPdie_kept)

theorem dropBank_kept {s₀ : State} (p key : Nat) (s : State) (h_s : Kept s₀ s) : Kept s₀ (dropBank p key s) := by
  unfold dropBank
  try dsimp only
  repeat' (with_reducible first | assumption | intro _ | apply kept_ite | apply keptOut_ite | split | apply cntPdie_kept | apply modPdie_kept)

theorem fenceSdie_kept {s₀ : State} (i : Nat) (s : State) (h_s : Kept s₀ s) : Kept s₀ (fenceSdie i s) := by
  unfold fenceSdie
  try dsimp only
  repeat' (with_reducible first | assumption | intro _ | apply kept_ite | apply keptOut_ite | split | apply answerRequest_kept | apply cntPdie_kept | apply modSdie_kept | apply endAttempt_kept | apply coverAll_kept | apply capsChanged_kept | apply kept_next | refine kept_of_eq (by assumption) ?_ | refine kept_of_eq_fst (by assumption) ?_ | apply kept_foldl | apply kept_foldl_snd | apply kept_foldl_fst | apply kept_upd | rfl | exact fused_upd | exact Nat.le_refl _ | exact Nat.le_add_right _ _ | exact Kept.sdie (by assumption) (by assumption) _ | apply sdieWf_dram | apply sdieWf_sram | apply sdieWf_mk)

theorem pointSdie_kept {s₀ : State} (i det cls : Nat) (detail : Word) (s : State) (h_s : Kept s₀ s) : Kept s₀ (pointSdie i det cls detail s) := by
  unfold pointSdie
  try dsimp only
  repeat' (with_reducible first | assumption | intro _ | apply kept_ite | apply keptOut_ite | split | apply faultRecord_kept | apply fenceSdie_kept | apply repaired_kept | apply unitTo_kept)

theorem retireChannel_kept {s₀ : State} (i ch det : Nat) (unit detail : Word) (s : State) (h_s : Kept s₀ s) : Kept s₀ (retireChannel i ch det unit detail s) := by
  unfold retireChannel
  try dsimp only
  repeat' (with_reducible first | assumption | intro _ | apply kept_ite | apply keptOut_ite | split | apply modSdie_kept | apply freeContext_kept | apply answerRequest_kept | apply faultRecord_kept | apply repaired_kept | apply unitTo_kept | apply coverAll_kept | apply pointSdie_kept | apply countLasting_kept | apply kept_next | refine kept_of_eq (by assumption) ?_ | refine kept_of_eq_fst (by assumption) ?_ | apply kept_foldl | apply kept_foldl_snd | apply kept_foldl_fst | apply kept_upd | rfl | exact fused_upd | exact Nat.le_refl _ | exact Nat.le_add_right _ _ | exact Kept.sdie (by assumption) (by assumption) _ | apply sdieWf_dram | apply sdieWf_sram | apply sdieWf_mk)

theorem pointLdie_kept {s₀ : State} (l det cls : Nat) (detail : Word) (s : State) (h_s : Kept s₀ s) : Kept s₀ (pointLdie l det cls detail s) := by
  unfold pointLdie
  try dsimp only
  repeat' (with_reducible first | assumption | intro _ | apply kept_ite | apply keptOut_ite | split | apply faultRecord_kept | apply portDown_kept | apply modLdie_kept | apply capsChanged_kept | apply repaired_kept | apply unitTo_kept | apply kept_next | refine kept_of_eq (by assumption) ?_ | refine kept_of_eq_fst (by assumption) ?_ | apply kept_foldl)

theorem takeover_kept {s₀ : State} (det : Nat) (s : State) (h_s : Kept s₀ s) : Kept s₀ (takeover det s) := by
  unfold takeover
  try dsimp only
  repeat' (with_reducible first | assumption | intro _ | apply kept_ite | apply keptOut_ite | split | apply faultRecord_kept | apply raiseInt_kept | apply auditDevice_kept | apply kept_next | refine kept_of_eq (by assumption) ?_ | refine kept_of_eq_fst (by assumption) ?_ | apply kept_foldl | apply kept_foldl_snd | apply kept_foldl_fst | apply kept_upd | rfl)

theorem pointWarden_kept {s₀ : State} (w det : Nat) (s : State) (h_s : Kept s₀ s) : Kept s₀ (pointWarden w det s) := by
  unfold pointWarden
  try dsimp only
  repeat' (with_reducible first | assumption | intro _ | apply kept_ite | apply keptOut_ite | split | apply takeover_kept | apply faultRecord_kept | apply kept_next | refine kept_of_eq (by assumption) ?_ | refine kept_of_eq_fst (by assumption) ?_ | apply kept_foldl | apply kept_foldl_snd | apply kept_foldl_fst | apply kept_upd | rfl)

theorem pointUnit_kept {s₀ : State} (kind : Nat) (unit : Word) (det : Nat) (detail : Word) (s : State) (h_s : Kept s₀ s) : Kept s₀ (pointUnit kind unit det detail s) := by
  unfold pointUnit
  try dsimp only
  repeat' (with_reducible first | assumption | intro _ | apply kept_ite | apply keptOut_ite | split | apply pointBrick_kept | apply countLasting_kept | apply coverAll_kept | apply retireGroups_kept | apply pointCdie_kept | apply pointPdie_kept | apply pointMacro_kept | apply unitTo_kept | apply faultRecord_kept | apply dropBank_kept | apply removeLane_kept | apply pointSdie_kept | apply retireChannel_kept | apply pointWarden_kept | apply pointLdie_kept)

theorem fenceUnit_kept {s₀ : State} (kind : Nat) (unit : Word) (s : State) (h_s : Kept s₀ s) : Kept s₀ (fenceUnit kind unit s) := by
  unfold fenceUnit
  try dsimp only
  repeat' (with_reducible first | assumption | intro _ | apply kept_ite | apply keptOut_ite | split | apply fenceGroup_kept | apply fenceBrick_kept | apply fencePdie_kept | apply dropBank_kept | apply fenceSdie_kept | apply kept_next | refine kept_of_eq (by assumption) ?_ | refine kept_of_eq_fst (by assumption) ?_ | apply kept_foldl)

theorem returnUnit_kept {s₀ : State} (kind : Nat) (unit : Word) (s : State) (h_s : Kept s₀ s) : Kept s₀ (returnUnit kind unit s) := by
  unfold returnUnit
  try dsimp only
  repeat' (with_reducible first | assumption | intro _ | apply kept_ite | apply keptOut_ite | split | apply modBrick_kept | apply brickReset_kept | apply capsChanged_kept | apply resteer_kept | apply writeSteer_kept | apply modPdie_kept | apply coverAll_kept | apply modSdie_kept | apply kept_next | refine kept_of_eq (by assumption) ?_ | refine kept_of_eq_fst (by assumption) ?_ | apply kept_foldl | apply kept_foldl_snd | apply kept_foldl_fst | apply kept_upd | rfl | exact fused_upd | exact Nat.le_refl _ | exact Nat.le_add_right _ _ | exact Kept.brick (by assumption) (by assumption) _ | apply brickWf_mem | apply brickWf_regs | apply brickWf_foldl | apply brickWf_mk | apply memWf_mk | apply regsWf_upd | apply memWf_dmem | apply memWf_bmem | apply memWf_imem | apply memWf_staging | apply memWf_memPutBytes | apply memWf_memZero | apply memWf_filter | exact memWf_nil | exact brickWf_default | exact regsWf_default | exact memWf_default | apply kept_updB | apply mapAll_prop (P := BrickWf) | exact Kept.sdie (by assumption) (by assumption) _ | apply sdieWf_dram | apply sdieWf_sram | apply sdieWf_mk)

theorem disagree_kept {s₀ : State} (kind : Nat) (unit : Word) (det : Nat) (detail : Word) (s : State) (h_s : Kept s₀ s) : Kept s₀ (disagree kind unit det detail s) := by
  unfold disagree
  try dsimp only
  repeat' (with_reducible first | assumption | intro _ | apply kept_ite | apply keptOut_ite | split | apply faultRecord_kept | apply cntWdn_kept | apply unitTo_kept | apply fenceUnit_kept | apply kept_next | refine kept_of_eq (by assumption) ?_ | refine kept_of_eq_fst (by assumption) ?_ | apply kept_foldl | apply kept_foldl_snd | apply kept_foldl_fst | apply kept_upd | rfl)

end Sys2Proof.Machine
end

