-- ==== Sys2Proof/Laws/KeptFaultEvents.lean ====
section
/-!
SUPPORT. What every operation and meaning of Machine/FaultEvents.lean keeps.
-/

namespace Sys2Proof.Machine

open Sys2Proof

theorem execErrorDetect_kept {s₀ : State} (e : DetectedError) (s : State) (h_s : Kept s₀ s) : KeptOut s₀ (execErrorDetect e s) := by
  unfold execErrorDetect
  try dsimp only
  repeat' (with_reducible first | assumption | intro _ | apply kept_ite | apply keptOut_ite | split | apply pointUnit_kept | apply noteTransient_kept | apply faultRecord_kept | apply disagree_kept | apply kept_next)

theorem chargeHalt_kept {s₀ : State} (p : Nat) (reason : Byte) (s : State) (h_s : Kept s₀ s) : Kept s₀ (chargeHalt p reason s) := by
  unfold chargeHalt
  try dsimp only
  repeat' (with_reducible first | assumption | intro _ | apply kept_ite | apply keptOut_ite | split | apply modPart_kept)

theorem returnHalt_kept {s₀ : State} (b cls det part : Nat) (s : State) (h_s : Kept s₀ s) : Kept s₀ (returnHalt b cls det part s) := by
  unfold returnHalt
  try dsimp only
  repeat' (with_reducible first | assumption | intro _ | apply kept_ite | apply keptOut_ite | split | apply unitTo_kept | apply fenceGroup_kept | apply faultRecord_kept)

theorem programHalt_kept {s₀ : State} (b : Nat) (s : State) (h_s : Kept s₀ s) : Kept s₀ (programHalt b s) := by
  unfold programHalt
  try dsimp only
  repeat' (with_reducible first | assumption | intro _ | apply kept_ite | apply keptOut_ite | split | apply returnHalt_kept | apply chargeHalt_kept | apply cntWdn_kept | apply kept_next | refine kept_of_eq (by assumption) ?_ | refine kept_of_eq_fst (by assumption) ?_ | apply kept_foldl)

theorem hangHalt_kept {s₀ : State} (b : Nat) (s : State) (h_s : Kept s₀ s) : Kept s₀ (hangHalt b s) := by
  unfold hangHalt
  try dsimp only
  repeat' (with_reducible first | assumption | intro _ | apply kept_ite | apply keptOut_ite | split | apply modUnit_kept | apply returnHalt_kept | apply cntWdn_kept | apply programHalt_kept | apply pointBrick_kept | apply countLasting_kept)

theorem execHaltReport_kept {s₀ : State} (brick : Brick) (s : State) (h_s : Kept s₀ s) : KeptOut s₀ (execHaltReport brick s) := by
  unfold execHaltReport
  try dsimp only
  repeat' (with_reducible first | assumption | intro _ | apply kept_ite | apply keptOut_ite | split | apply returnHalt_kept | apply cntWdn_kept | apply pointBrick_kept | apply countLasting_kept | apply hangHalt_kept | apply programHalt_kept | apply kept_next)

theorem execLeaseExpire_kept {s₀ : State} (id : Nat) (s : State) (h_s : Kept s₀ s) : KeptOut s₀ (execLeaseExpire id s) := by
  unfold execLeaseExpire
  try dsimp only
  repeat' (with_reducible first | assumption | intro _ | apply kept_ite | apply keptOut_ite | split | apply cntWdn_kept | apply modPdie_kept | apply takeover_kept | apply disagree_kept | apply kept_id | apply kept_next | refine kept_of_eq (by assumption) ?_ | refine kept_of_eq_fst (by assumption) ?_ | apply kept_foldl | apply kept_foldl_snd | apply kept_foldl_fst | apply kept_upd | rfl)

theorem execHeartbeatExpire_kept {s₀ : State} (die : Nat) (s : State) (h_s : Kept s₀ s) : KeptOut s₀ (execHeartbeatExpire die s) := by
  unfold execHeartbeatExpire
  try dsimp only
  repeat' (with_reducible first | assumption | intro _ | apply kept_ite | apply keptOut_ite | split | apply cntWdn_kept | apply pointUnit_kept | apply pointWarden_kept | apply disagree_kept | apply kept_next)

theorem execWardenTakeover_kept {s₀ : State} (s : State) (h_s : Kept s₀ s) : KeptOut s₀ (execWardenTakeover s) := by
  unfold execWardenTakeover
  try dsimp only
  repeat' (with_reducible first | assumption | intro _ | apply kept_ite | apply keptOut_ite | split | apply takeover_kept | apply kept_next)

theorem execRetestComplete_kept {s₀ : State} (unit : Nat) (pass : Bool) (s : State) (h_s : Kept s₀ s) : KeptOut s₀ (execRetestComplete unit pass s) := by
  unfold execRetestComplete
  try dsimp only
  repeat' (with_reducible first | assumption | intro _ | apply kept_ite | apply keptOut_ite | split | apply modUnit_kept | apply faultRecord_kept | apply returnUnit_kept | apply pointUnit_kept | apply kept_next | refine kept_of_eq (by assumption) ?_ | refine kept_of_eq_fst (by assumption) ?_ | apply kept_foldl | apply kept_foldl_snd | apply kept_foldl_fst | apply kept_upd | rfl)

theorem replaceGroup_kept {s₀ : State} (g : Group) (s : State) (h_s : Kept s₀ s) : Kept s₀ (replaceGroup g s) := by
  unfold replaceGroup
  try dsimp only
  repeat' (with_reducible first | assumption | intro _ | apply kept_ite | apply keptOut_ite | split | apply kept_next | refine kept_of_eq (by assumption) ?_ | refine kept_of_eq_fst (by assumption) ?_ | apply kept_foldl | apply kept_foldl_snd | apply kept_foldl_fst | apply kept_upd | rfl)

theorem rehomeStreams_kept {s₀ : State} (p : Part) (e : ModelEpoch) (s : State) (h_s : Kept s₀ s) : Kept s₀ (rehomeStreams p e s) := by
  unfold rehomeStreams
  try dsimp only
  repeat' (with_reducible first | assumption | intro _ | apply kept_ite | apply keptOut_ite | split | apply takeFrees_kept | apply reserve_kept | apply modEpoch_kept | apply kept_id | apply kept_next | refine kept_of_eq (by assumption) ?_ | refine kept_of_eq_fst (by assumption) ?_ | apply kept_foldl | apply kept_foldl_snd | apply kept_foldl_fst | apply kept_upd | rfl)

theorem execReplacementComplete_kept {s₀ : State} (part : Part) (ok : Bool) (s : State) (h_s : Kept s₀ s) : KeptOut s₀ (execReplacementComplete part ok s) := by
  unfold execReplacementComplete
  try dsimp only
  repeat' (with_reducible first | assumption | intro _ | apply kept_ite | apply keptOut_ite | split | apply replaceGroup_kept | apply rehomeStreams_kept | apply rePlace_kept | apply takeFrees_kept | apply setXlate_kept | apply coverPart_kept | apply modPart_kept | apply faultRecord_kept | apply kept_next | refine kept_of_eq (by assumption) ?_ | refine kept_of_eq_fst (by assumption) ?_ | apply kept_foldl | apply kept_foldl_snd | apply kept_foldl_fst | apply kept_upd | rfl)

theorem rebuildBrick_kept {s₀ : State} (b : Nat) (s : State) (h_s : Kept s₀ s) : Kept s₀ (rebuildBrick b s) := by
  unfold rebuildBrick
  try dsimp only
  repeat' (with_reducible first | assumption | intro _ | apply kept_ite | apply keptOut_ite | split | apply brickReset_kept | apply putBrick_kept | apply faultRecord_kept | apply kept_next | refine kept_of_eq (by assumption) ?_ | refine kept_of_eq_fst (by assumption) ?_ | apply kept_foldl | apply kept_foldl_snd | apply kept_foldl_fst | apply kept_upd | rfl | exact fused_upd | exact Nat.le_refl _ | exact Nat.le_add_right _ _ | exact Kept.brick (by assumption) (by assumption) _ | apply brickWf_mem | apply brickWf_regs | apply brickWf_foldl | apply brickWf_mk)

theorem returnMember_kept {s₀ : State} (b : Nat) (s : State) (h_s : Kept s₀ s) : Kept s₀ (returnMember b s) := by
  unfold returnMember
  exact modBrick_kept (fun w h => brickReset_kept _ h) h_s

theorem execRetranslationComplete_kept {s₀ : State} (course : Course) (s : State) (h_s : Kept s₀ s) : KeptOut s₀ (execRetranslationComplete course s) := by
  unfold execRetranslationComplete
  try dsimp only
  repeat' (with_reducible first | assumption | intro _ | apply kept_ite | apply keptOut_ite | split | apply returnMember_kept | apply fenceBrick_kept | apply rebuildBrick_kept | apply takeFrees_kept | apply setXlate_kept | apply takeFree_kept | apply coverAll_kept | apply capsChanged_kept | apply modBrick_kept | apply kept_next | refine kept_of_eq (by assumption) ?_ | refine kept_of_eq_fst (by assumption) ?_ | apply kept_foldl | apply kept_foldl_snd | apply kept_foldl_fst | apply kept_upd | rfl | exact fused_upd | exact Nat.le_refl _ | exact Nat.le_add_right _ _ | exact Kept.brick (by assumption) (by assumption) _ | apply brickWf_mem | apply brickWf_regs | apply brickWf_foldl | apply brickWf_mk)

theorem execRehomeComplete_kept {s₀ : State} (cdie : Cdie) (ok : Bool) (s : State) (h_s : Kept s₀ s) : KeptOut s₀ (execRehomeComplete cdie ok s) := by
  unfold execRehomeComplete
  try dsimp only
  repeat' (with_reducible first | assumption | intro _ | apply kept_ite | apply keptOut_ite | split | apply putBrick_kept | apply rePlace_kept | apply faultRecord_kept | apply capsChanged_kept | apply repaired_kept | apply coverAll_kept | apply modBrick_kept | apply unitTo_kept | apply countLasting_kept | apply startRehome_kept | apply kept_next | refine kept_of_eq (by assumption) ?_ | refine kept_of_eq_fst (by assumption) ?_ | apply kept_foldl | apply kept_foldl_snd | apply kept_foldl_fst | apply kept_upd | rfl | exact fused_upd | exact Nat.le_refl _ | exact Nat.le_add_right _ _ | exact Kept.brick (by assumption) (by assumption) _ | apply brickWf_mem | apply brickWf_regs | apply brickWf_foldl | apply brickWf_mk | apply memWf_mk | apply regsWf_upd | apply memWf_dmem | apply memWf_bmem | apply memWf_imem | apply memWf_staging | apply memWf_memPutBytes | apply memWf_memZero | apply memWf_filter | exact memWf_nil | exact brickWf_default | exact regsWf_default)

theorem execMacroSpareReady_kept {s₀ : State} (p : Die) (s : State) (h_s : Kept s₀ s) : KeptOut s₀ (execMacroSpareReady p s) := by
  unfold execMacroSpareReady
  try dsimp only
  repeat' (with_reducible first | assumption | intro _ | apply kept_ite | apply keptOut_ite | split | apply modPdie_kept | apply faultRecord_kept | apply repaired_kept | apply kept_next)

theorem execBankSpareReady_kept {s₀ : State} (f : FDie) (s : State) (h_s : Kept s₀ s) : KeptOut s₀ (execBankSpareReady f s) := by
  unfold execBankSpareReady
  try dsimp only
  repeat' (with_reducible first | assumption | intro _ | apply kept_ite | apply keptOut_ite | split | apply unitTo_kept | apply modPdie_kept | apply faultRecord_kept | apply repaired_kept | apply kept_next)

theorem execRowSpared_kept {s₀ : State} (sdie : Die) (addr : Nat) (s : State) (h_s : Kept s₀ s) : KeptOut s₀ (execRowSpared sdie addr s) := by
  unfold execRowSpared
  try dsimp only
  repeat' (with_reducible first | assumption | intro _ | apply kept_ite | apply keptOut_ite | split | apply faultRecord_kept | apply unitTo_kept | apply repaired_kept | apply kept_next)

theorem execMortarLaneRepair_kept {s₀ : State} (link : Nat) (s : State) (h_s : Kept s₀ s) : KeptOut s₀ (execMortarLaneRepair link s) := by
  unfold execMortarLaneRepair
  try dsimp only
  repeat' (with_reducible first | assumption | intro _ | apply kept_ite | apply keptOut_ite | split | apply faultRecord_kept | apply unitTo_kept | apply repaired_kept | apply countLasting_kept | apply kept_next)

theorem execRingWriteFail_kept {s₀ : State} (part : Part) (ring : Fin 8) (s : State) (h_s : Kept s₀ s) : KeptOut s₀ (execRingWriteFail part ring s) := by
  unfold execRingWriteFail
  try dsimp only
  repeat' (with_reducible first | assumption | intro _ | apply kept_ite | apply keptOut_ite | split | apply modPart_kept | apply kept_next | refine kept_of_eq (by assumption) ?_ | refine kept_of_eq_fst (by assumption) ?_ | apply kept_foldl | apply kept_foldl_snd | apply kept_foldl_fst | apply kept_upd | rfl | exact fused_upd | exact Nat.le_refl _ | exact Nat.le_add_right _ _)
  all_goals rfl

end Sys2Proof.Machine
end

