-- ==== Sys2Proof/Laws/KeptLoops.lean ====
section
/-!
SUPPORT. What every operation and meaning of Machine/Loops.lean keeps.
-/

namespace Sys2Proof.Machine

open Sys2Proof

theorem writeBound_kept {s₀ : State} (lo hi : Word) (s : State) (h_s : Kept s₀ s) : Kept s₀ (writeBound lo hi s) := by
  unfold writeBound
  try dsimp only
  repeat' (with_reducible first | assumption | intro _ | apply kept_ite | apply keptOut_ite | split | apply kept_next | refine kept_of_eq (by assumption) ?_ | refine kept_of_eq_fst (by assumption) ?_ | apply kept_foldl | apply kept_foldl_snd | apply kept_foldl_fst | apply kept_upd | rfl)

theorem execBoundCommit_kept {s₀ : State} (path : Path) (lo hi : Word) (s : State) (h_s : Kept s₀ s) : KeptOut s₀ (execBoundCommit path lo hi s) := by
  unfold execBoundCommit
  try dsimp only
  repeat' (with_reducible first | assumption | intro _ | apply kept_ite | apply keptOut_ite | split | apply commandWith_kept | apply writeBound_kept | apply kept_id | apply kept_next)

theorem execLoopPinned_kept {s₀ : State} (loop : Fin 64) (part : Part) (s : State) (h_s : Kept s₀ s) : KeptOut s₀ (execLoopPinned loop part s) := by
  unfold execLoopPinned
  try dsimp only
  repeat' (with_reducible first | assumption | intro _ | apply kept_ite | apply keptOut_ite | split | apply event_kept | apply kept_next | refine kept_of_eq (by assumption) ?_ | refine kept_of_eq_fst (by assumption) ?_ | apply kept_foldl | apply kept_foldl_snd | apply kept_foldl_fst | apply kept_upd | rfl)

theorem execLoopFree_kept {s₀ : State} (loop : Fin 64) (part : Part) (s : State) (h_s : Kept s₀ s) : KeptOut s₀ (execLoopFree loop part s) := by
  unfold execLoopFree
  try dsimp only
  repeat' (with_reducible first | assumption | intro _ | apply kept_ite | apply keptOut_ite | split | apply event_kept | apply kept_next | refine kept_of_eq (by assumption) ?_ | refine kept_of_eq_fst (by assumption) ?_ | apply kept_foldl | apply kept_foldl_snd | apply kept_foldl_fst | apply kept_upd | rfl)

theorem setClock_kept {s₀ : State} (c mhz : Nat) (s : State) (h_s : Kept s₀ s) : Kept s₀ (setClock c mhz s) := by
  unfold setClock
  try dsimp only
  repeat' (with_reducible first | assumption | intro _ | apply kept_ite | apply keptOut_ite | split | apply kept_next | refine kept_of_eq (by assumption) ?_ | refine kept_of_eq_fst (by assumption) ?_ | apply kept_foldl | apply kept_foldl_snd | apply kept_foldl_fst | apply kept_upd | rfl)

theorem execDroopDetect_kept {s₀ : State} (course : Course) (s : State) (h_s : Kept s₀ s) : KeptOut s₀ (execDroopDetect course s) := by
  unfold execDroopDetect
  try dsimp only
  repeat' (with_reducible first | assumption | intro _ | apply kept_ite | apply keptOut_ite | split | apply kept_next | refine kept_of_eq (by assumption) ?_ | refine kept_of_eq_fst (by assumption) ?_ | apply kept_foldl | apply kept_foldl_snd | apply kept_foldl_fst | apply kept_upd | rfl)

theorem execIslandClockSample_kept {s₀ : State} (course : Course) (s : State) (h_s : Kept s₀ s) : KeptOut s₀ (execIslandClockSample course s) := by
  unfold execIslandClockSample
  try dsimp only
  repeat' (with_reducible first | assumption | intro _ | apply kept_ite | apply keptOut_ite | split | apply takeFree_kept | apply setClock_kept | apply noteClamp_kept | apply kept_next | refine kept_of_eq (by assumption) ?_ | refine kept_of_eq_fst (by assumption) ?_ | apply kept_foldl | apply kept_foldl_snd | apply kept_foldl_fst | apply kept_upd | rfl)

theorem ceilingTo_kept {s₀ : State} (mhz : Nat) (s : State) (h_s : Kept s₀ s) : Kept s₀ (ceilingTo mhz s) := by
  unfold ceilingTo
  try dsimp only
  repeat' (with_reducible first | assumption | intro _ | apply kept_ite | apply keptOut_ite | split | apply setClock_kept | apply kept_next | refine kept_of_eq (by assumption) ?_ | refine kept_of_eq_fst (by assumption) ?_ | apply kept_foldl | apply kept_foldl_snd | apply kept_foldl_fst | apply kept_upd | rfl)

theorem safetyFall_kept {s₀ : State} (s : State) (h_s : Kept s₀ s) : Kept s₀ (safetyFall s) := by
  unfold safetyFall
  try dsimp only
  repeat' (with_reducible first | assumption | intro _ | apply kept_ite | apply keptOut_ite | split | apply setClock_kept | apply ceilingTo_kept | apply kept_next | refine kept_of_eq (by assumption) ?_ | refine kept_of_eq_fst (by assumption) ?_ | apply kept_foldl)

theorem execGovernorSample_kept {s₀ : State} (vpriMv ipri10ma : Nat) (s : State) (h_s : Kept s₀ s) : KeptOut s₀ (execGovernorSample vpriMv ipri10ma s) := by
  unfold execGovernorSample
  try dsimp only
  repeat' (with_reducible first | assumption | intro _ | apply kept_ite | apply keptOut_ite | split | apply safetyFall_kept | apply ceilingTo_kept | apply noteClamp_kept | apply kept_next | refine kept_of_eq (by assumption) ?_ | refine kept_of_eq_fst (by assumption) ?_ | apply kept_foldl | apply kept_foldl_snd | apply kept_foldl_fst | apply kept_upd | rfl)

theorem safetyPoint_kept {s₀ : State} (unit : Nat) (s : State) (h_s : Kept s₀ s) : Kept s₀ (safetyPoint unit s) := by
  unfold safetyPoint
  try dsimp only
  repeat' (with_reducible first | assumption | intro _ | apply kept_ite | apply keptOut_ite | split | apply pointUnit_kept)

theorem execSafetyOverride_kept {s₀ : State} (kind : Fin 8) (unit : Nat) (s : State) (h_s : Kept s₀ s) : KeptOut s₀ (execSafetyOverride kind unit s) := by
  unfold execSafetyOverride
  try dsimp only
  repeat' (with_reducible first | assumption | intro _ | apply kept_ite | apply keptOut_ite | split | apply event_kept | apply auditDevice_kept | apply raiseInt_kept | apply setClock_kept | apply safetyPoint_kept | apply ceilingTo_kept | apply takeFree_kept | apply kept_next | refine kept_of_eq (by assumption) ?_ | refine kept_of_eq_fst (by assumption) ?_ | apply kept_foldl | apply kept_foldl_snd | apply kept_foldl_fst | apply kept_upd | rfl)

theorem execSafetyClear_kept {s₀ : State} (kind : Fin 8) (unit : Nat) (s : State) (h_s : Kept s₀ s) : KeptOut s₀ (execSafetyClear kind unit s) := by
  unfold execSafetyClear
  try dsimp only
  repeat' (with_reducible first | assumption | intro _ | apply kept_ite | apply keptOut_ite | split | apply setClock_kept | apply kept_next | refine kept_of_eq (by assumption) ?_ | refine kept_of_eq_fst (by assumption) ?_ | apply kept_foldl | apply kept_foldl_snd | apply kept_foldl_fst | apply kept_upd | rfl)

end Sys2Proof.Machine
end

