-- ==== Sys2Proof/Laws/KeptRings.lean ====
section
/-!
SUPPORT. What every operation and meaning of Machine/Rings.lean keeps.
-/

namespace Sys2Proof.Machine

open Sys2Proof

theorem dropWaiting_kept {s₀ : State} (p r k : Nat) (s : State) (h_s : Kept s₀ s) : Kept s₀ (dropWaiting p r k s) := by
  unfold dropWaiting
  try dsimp only
  repeat' (with_reducible first | assumption | intro _ | apply kept_ite | apply keptOut_ite | split | apply cntPart_kept | apply modPart_kept)

theorem dropRings_kept {s₀ : State} (p k : Nat) (s : State) (h_s : Kept s₀ s) : Kept s₀ (dropRings p k s) := by
  unfold dropRings
  try dsimp only
  repeat' (with_reducible first | assumption | intro _ | apply kept_ite | apply keptOut_ite | split | apply dropWaiting_kept | apply kept_next | refine kept_of_eq (by assumption) ?_ | refine kept_of_eq_fst (by assumption) ?_ | apply kept_foldl)

theorem execRingSpill_kept {s₀ : State} (part : Part) (ring : Fin 8) (s : State) (h_s : Kept s₀ s) : KeptOut s₀ (execRingSpill part ring s) := by
  unfold execRingSpill
  try dsimp only
  repeat' (with_reducible first | assumption | intro _ | apply kept_ite | apply keptOut_ite | split | apply dropWaiting_kept | apply modPart_kept | apply kept_next)

theorem execRingDoorbell_kept {s₀ : State} (part : Part) (ring : Fin 8) (cons : Word) (s : State) (h_s : Kept s₀ s) : KeptOut s₀ (execRingDoorbell part ring cons s) := by
  unfold execRingDoorbell
  try dsimp only
  repeat' (with_reducible first | assumption | intro _ | apply kept_ite | apply keptOut_ite | split | apply ringDrain_kept | apply putPart_kept | apply askVec_kept | apply kept_next)

theorem writeRingCtl_kept {s₀ : State} (p r : Nat) (value : Word) (s : State) (h_s : Kept s₀ s) : Kept s₀ (writeRingCtl p r value s) := by
  unfold writeRingCtl
  try dsimp only
  repeat' (with_reducible first | assumption | intro _ | apply kept_ite | apply keptOut_ite | split | apply modPart_kept | apply ringDrain_kept | apply dropWaiting_kept)

theorem execRingEnable_kept {s₀ : State} (part : Part) (ring : Fin 8) (value : Word) (s : State) (h_s : Kept s₀ s) : KeptOut s₀ (execRingEnable part ring value s) := by
  unfold execRingEnable
  try dsimp only
  repeat' (with_reducible first | assumption | intro _ | apply kept_ite | apply keptOut_ite | split | apply writeRingCtl_kept | apply kept_next)

theorem execModerationDelay_kept {s₀ : State} (part : Part) (ring : Fin 8) (s : State) (h_s : Kept s₀ s) : KeptOut s₀ (execModerationDelay part ring s) := by
  unfold execModerationDelay
  try dsimp only
  repeat' (with_reducible first | assumption | intro _ | apply kept_ite | apply keptOut_ite | split | apply askVec_kept | apply kept_next)

theorem execVectorGapExpire_kept {s₀ : State} (part : Part) (vec : Fin 8) (s : State) (h_s : Kept s₀ s) : KeptOut s₀ (execVectorGapExpire part vec s) := by
  unfold execVectorGapExpire
  try dsimp only
  repeat' (with_reducible first | assumption | intro _ | apply kept_ite | apply keptOut_ite | split | apply sendVec_kept | apply kept_next)

theorem unmaskVec_kept {s₀ : State} (p v : Nat) (s : State) (h_s : Kept s₀ s) : Kept s₀ (unmaskVec p v s) := by
  unfold unmaskVec
  try dsimp only
  repeat' (with_reducible first | assumption | intro _ | apply kept_ite | apply keptOut_ite | split | apply modPart_kept | apply askVec_kept)

theorem execMsixUnmask_kept {s₀ : State} (part : Part) (vec : Fin 8) (s : State) (h_s : Kept s₀ s) : KeptOut s₀ (execMsixUnmask part vec s) := by
  unfold execMsixUnmask
  try dsimp only
  repeat' (with_reducible first | assumption | intro _ | apply kept_ite | apply keptOut_ite | split | apply unmaskVec_kept | apply kept_next)

theorem execFunctionPowerState_kept {s₀ : State} (fn : Nat) (d3hot busMaster : Bool) (s : State) (h_s : Kept s₀ s) : KeptOut s₀ (execFunctionPowerState fn d3hot busMaster s) := by
  unfold execFunctionPowerState
  try dsimp only
  repeat' (with_reducible first | assumption | intro _ | apply kept_ite | apply keptOut_ite | split | apply modPart_kept | apply dropRings_kept | apply kept_next)

theorem execVfEnable_kept {s₀ : State} (num : Nat) (s : State) (h_s : Kept s₀ s) : KeptOut s₀ (execVfEnable num s) := by
  unfold execVfEnable
  try dsimp only
  repeat' (with_reducible first | assumption | intro _ | apply kept_ite | apply keptOut_ite | split | apply kept_next | refine kept_of_eq (by assumption) ?_ | refine kept_of_eq_fst (by assumption) ?_ | apply kept_foldl | apply kept_foldl_snd | apply kept_foldl_fst | apply kept_upd | rfl | exact fused_upd)

theorem flrConfig_kept {s₀ : State} (p : Nat) (s : State) (h_s : Kept s₀ s) : Kept s₀ (flrConfig p s) := by
  unfold flrConfig
  try dsimp only
  repeat' (with_reducible first | assumption | intro _ | apply kept_ite | apply keptOut_ite | split | apply modPart_kept)

theorem lowerVfs_kept {s₀ : State} (num : Nat) (s : State) (h_s : Kept s₀ s) : Kept s₀ (lowerVfs num s) := by
  unfold lowerVfs
  try dsimp only
  repeat' (with_reducible first | assumption | intro _ | apply kept_ite | apply keptOut_ite | split | apply startReset_kept | apply flrConfig_kept | apply kept_next | refine kept_of_eq (by assumption) ?_ | refine kept_of_eq_fst (by assumption) ?_ | apply kept_foldl | apply kept_foldl_snd | apply kept_foldl_fst | apply kept_upd | rfl | exact fused_upd)

theorem execVfDisable_kept {s₀ : State} (num : Nat) (s : State) (h_s : Kept s₀ s) : KeptOut s₀ (execVfDisable num s) := by
  unfold execVfDisable
  try dsimp only
  repeat' (with_reducible first | assumption | intro _ | apply kept_ite | apply keptOut_ite | split | apply lowerVfs_kept | apply kept_next)

end Sys2Proof.Machine
end

