-- ==== Sys2Proof/Laws/KeptReset.lean ====
section
/-!
SUPPORT. What every operation and meaning of Machine/Reset.lean keeps.
-/

namespace Sys2Proof.Machine

open Sys2Proof

theorem execResetRequest_kept {s₀ : State} (path : Path) (part : Part) (s : State) (h_s : Kept s₀ s) : KeptOut s₀ (execResetRequest path part s) := by
  unfold execResetRequest
  try dsimp only
  repeat' (with_reducible first | assumption | intro _ | apply kept_ite | apply keptOut_ite | split | apply command_kept | apply startReset_kept | apply kept_id | apply kept_next)

theorem execFlr_kept {s₀ : State} (fn : Nat) (s : State) (h_s : Kept s₀ s) : KeptOut s₀ (execFlr fn s) := by
  unfold execFlr
  try dsimp only
  repeat' (with_reducible first | assumption | intro _ | apply kept_ite | apply keptOut_ite | split | apply startReset_kept | apply flrConfig_kept | apply lowerVfs_kept | apply kept_next)

theorem abortSlices_kept {s₀ : State} (part : Part) (s : State) (h_s : Kept s₀ s) : Kept s₀ (abortSlices part s) := by
  unfold abortSlices
  try dsimp only
  repeat' (with_reducible first | assumption | intro _ | apply kept_ite | apply keptOut_ite | split | apply answerPinned_kept | apply dropPalletLeases_kept | apply kept_next | refine kept_of_eq (by assumption) ?_ | refine kept_of_eq_fst (by assumption) ?_ | apply kept_foldl | apply kept_foldl_snd | apply kept_foldl_fst | apply kept_upd | rfl)

theorem abortSequences_kept {s₀ : State} (part : Part) (s : State) (h_s : Kept s₀ s) : Kept s₀ (abortSequences part s) := by
  have h := dropTokens_kept (fun t => t.part == part) s h_s
  refine ⟨fun w => ⟨(h.wf w).1, fun d hd => ?_⟩, h.pending, h.free, h.time, h.fused⟩
  obtain ⟨x, hx, rfl⟩ := List.mem_map.1 hd
  exact (h.wf w).2 x hx

theorem execResetDrainComplete_kept {s₀ : State} (part : Part) (s : State) (h_s : Kept s₀ s) : KeptOut s₀ (execResetDrainComplete part s) := by
  unfold execResetDrainComplete
  try dsimp only
  repeat' (with_reducible first | assumption | intro _ | apply kept_ite | apply keptOut_ite | split | apply abortSequences_kept | apply abortSlices_kept | apply modEpoch_kept | apply dropRings_kept | apply broadcastTc_kept | apply modPart_kept | apply kept_next)

theorem zeroScratch_kept {s₀ : State} (part : Part) (s : State) (h_s : Kept s₀ s) : Kept s₀ (zeroScratch part s) := by
  unfold zeroScratch
  try dsimp only
  repeat' (with_reducible first | assumption | intro _ | apply kept_ite | apply keptOut_ite | split | apply modSdie_kept | apply kept_next | refine kept_of_eq (by assumption) ?_ | refine kept_of_eq_fst (by assumption) ?_ | apply kept_foldl | apply kept_foldl_snd | apply kept_foldl_fst | apply kept_upd | rfl | exact fused_upd | exact Nat.le_refl _ | exact Nat.le_add_right _ _ | exact Kept.sdie (by assumption) (by assumption) _ | apply sdieWf_dram | apply sdieWf_sram | apply sdieWf_mk | apply memWf_memPutBytes | apply memWf_memZero)

theorem resetState_kept {s₀ : State} (part : Part) (s : State) (h_s : Kept s₀ s) : Kept s₀ (resetState part s) := by
  unfold resetState
  try dsimp only
  repeat' (with_reducible first | assumption | intro _ | apply kept_ite | apply keptOut_ite | split | apply modPart_kept | apply imageDrift_kept | apply imageRegs_kept | apply zeroScratch_kept | apply kept_next | refine kept_of_eq (by assumption) ?_ | refine kept_of_eq_fst (by assumption) ?_ | apply kept_foldl | apply kept_foldl_snd | apply kept_foldl_fst | apply kept_upd | rfl)

theorem execResetRelease_kept {s₀ : State} (part : Part) (s : State) (h_s : Kept s₀ s) : KeptOut s₀ (execResetRelease part s) := by
  unfold execResetRelease
  try dsimp only
  repeat' (with_reducible first | assumption | intro _ | apply kept_ite | apply keptOut_ite | split | apply modPart_kept | apply resetState_kept | apply event_kept | apply kept_next)

end Sys2Proof.Machine
end

