-- ==== Sys2Proof/Laws/KeptRoles.lean ====
section
/-!
SUPPORT. What every operation and meaning of Machine/Roles.lean keeps.
-/

namespace Sys2Proof.Machine

open Sys2Proof

theorem onPath_kept {s₀ : State} (p : Path) (f : State → State) (s : State) (h_f : ∀ s, Kept s₀ s → Kept s₀ (f s)) (h_s : Kept s₀ s) : Kept s₀ (onPath p f s) := by
  unfold onPath
  try dsimp only
  repeat' (with_reducible first | assumption | intro _ | apply kept_ite | apply keptOut_ite | split | apply h_f)

theorem reply_kept {s₀ : State} (path : Nat) (bytes : List Byte) (s : State) (h_s : Kept s₀ s) : Kept s₀ (reply path bytes s) := by
  unfold reply
  try dsimp only
  repeat' (with_reducible first | assumption | intro _ | apply kept_ite | apply keptOut_ite | split | apply kept_next | refine kept_of_eq (by assumption) ?_ | refine kept_of_eq_fst (by assumption) ?_ | apply kept_foldl | apply kept_foldl_snd | apply kept_foldl_fst | apply kept_upd | rfl)

theorem endSession_kept {s₀ : State} (p : Path) (s : State) (h_s : Kept s₀ s) : Kept s₀ (endSession p s) := by
  unfold endSession
  try dsimp only
  repeat' (with_reducible first | assumption | intro _ | apply kept_ite | apply keptOut_ite | split | apply audit_kept | apply kept_next | refine kept_of_eq (by assumption) ?_ | refine kept_of_eq_fst (by assumption) ?_ | apply kept_foldl | apply kept_foldl_snd | apply kept_foldl_fst | apply kept_upd | rfl)

theorem execOpenSession_kept {s₀ : State} (path : Path) (slot : BitVec 8) (nonce : BitVec 384) (s : State) (h_s : Kept s₀ s) : KeptOut s₀ (execOpenSession path slot nonce s) := by
  unfold execOpenSession
  try dsimp only
  repeat' (with_reducible first | assumption | intro _ | apply kept_ite | apply keptOut_ite | split | apply onPath_kept | apply endSession_kept | apply reply_kept | apply kept_next | refine kept_of_eq (by assumption) ?_ | refine kept_of_eq_fst (by assumption) ?_ | apply kept_foldl | apply kept_foldl_snd | apply kept_foldl_fst | apply kept_upd | rfl)

theorem failVerify_kept {s₀ : State} (p : Path) (slot : Nat) (s : State) (h_s : Kept s₀ s) : Kept s₀ (failVerify p slot s) := by
  unfold failVerify
  try dsimp only
  repeat' (with_reducible first | assumption | intro _ | apply kept_ite | apply keptOut_ite | split | apply audit_kept | apply kept_next | refine kept_of_eq (by assumption) ?_ | refine kept_of_eq_fst (by assumption) ?_ | apply kept_foldl | apply kept_foldl_snd | apply kept_foldl_fst | apply kept_upd | rfl)

theorem execVerifySession_kept {s₀ : State} (path : Path) (sig : BitVec 768) (s : State) (h_s : Kept s₀ s) : KeptOut s₀ (execVerifySession path sig s) := by
  unfold execVerifySession
  try dsimp only
  repeat' (with_reducible first | assumption | intro _ | apply kept_ite | apply keptOut_ite | split | apply onPath_kept | apply failVerify_kept | apply audit_kept | apply kept_next | refine kept_of_eq (by assumption) ?_ | refine kept_of_eq_fst (by assumption) ?_ | apply kept_foldl | apply kept_foldl_snd | apply kept_foldl_fst | apply kept_upd | rfl)

theorem execCloseSession_kept {s₀ : State} (path : Path) (s : State) (h_s : Kept s₀ s) : KeptOut s₀ (execCloseSession path s) := by
  unfold execCloseSession
  try dsimp only
  repeat' (with_reducible first | assumption | intro _ | apply kept_ite | apply keptOut_ite | split | apply onPath_kept | apply endSession_kept | apply kept_next)

theorem execSessionTimeout_kept {s₀ : State} (path : Path) (s : State) (h_s : Kept s₀ s) : KeptOut s₀ (execSessionTimeout path s) := by
  unfold execSessionTimeout
  try dsimp only
  repeat' (with_reducible first | assumption | intro _ | apply kept_ite | apply keptOut_ite | split | apply endSession_kept | apply kept_next)

theorem execSlotUnlock_kept {s₀ : State} (slot : Fin 11) (s : State) (h_s : Kept s₀ s) : KeptOut s₀ (execSlotUnlock slot s) := by
  unfold execSlotUnlock
  try dsimp only
  repeat' (with_reducible first | assumption | intro _ | apply kept_ite | apply keptOut_ite | split | apply kept_next | refine kept_of_eq (by assumption) ?_ | refine kept_of_eq_fst (by assumption) ?_ | apply kept_foldl | apply kept_foldl_snd | apply kept_foldl_fst | apply kept_upd | rfl)

theorem endKeySessions_kept {s₀ : State} (slot : Nat) (s : State) (h_s : Kept s₀ s) : Kept s₀ (endKeySessions slot s) := by
  unfold endKeySessions
  try dsimp only
  repeat' (with_reducible first | assumption | intro _ | apply kept_ite | apply keptOut_ite | split | apply endSession_kept | apply kept_next | refine kept_of_eq (by assumption) ?_ | refine kept_of_eq_fst (by assumption) ?_ | apply kept_foldl)

theorem setKey_kept {s₀ : State} (b : KeyBlock) (s : State) (h_s : Kept s₀ s) : Kept s₀ (setKey b s) := by
  unfold setKey
  try dsimp only
  repeat' (with_reducible first | assumption | intro _ | apply kept_ite | apply keptOut_ite | split | apply kept_next | refine kept_of_eq (by assumption) ?_ | refine kept_of_eq_fst (by assumption) ?_ | apply kept_foldl | apply kept_foldl_snd | apply kept_foldl_fst | apply kept_upd | rfl)

theorem execEnrol_kept {s₀ : State} (path : Path) (block : KeyBlock) (s : State) (h_s : Kept s₀ s) : KeptOut s₀ (execEnrol path block s) := by
  refine kept_next (commandWith_kept _ _ _ _ _ _ _ _ _ (fun t h => h) (fun t h => ?_) h_s)
  refine kept_ite (fun _ => setKey_kept _ _ ?_) (fun _ => h)
  exact kept_ite (fun _ => h) (fun _ => endKeySessions_kept _ _ h)

theorem execRemove_kept {s₀ : State} (path : Path) (block : KeyBlock) (s : State) (h_s : Kept s₀ s) : KeptOut s₀ (execRemove path block s) := by
  unfold execRemove
  try dsimp only
  repeat' (with_reducible first | assumption | intro _ | apply kept_ite | apply keptOut_ite | split | apply commandWith_kept | apply endKeySessions_kept | apply kept_id | apply kept_next | refine kept_of_eq (by assumption) ?_ | refine kept_of_eq_fst (by assumption) ?_ | apply kept_foldl | apply kept_foldl_snd | apply kept_foldl_fst | apply kept_upd | rfl)

theorem execClaim_kept {s₀ : State} (path : Path) (block : KeyBlock) (s : State) (h_s : Kept s₀ s) : KeptOut s₀ (execClaim path block s) := by
  unfold execClaim
  try dsimp only
  repeat' (with_reducible first | assumption | intro _ | apply kept_ite | apply keptOut_ite | split | apply onPath_kept | apply audit_kept | apply setKey_kept | apply kept_next)

theorem ringAppend_kept {s₀ : State} (r : List Byte) (s : State) (h_s : Kept s₀ s) : Kept s₀ (ringAppend r s) := by
  unfold ringAppend
  try dsimp only
  repeat' (with_reducible first | assumption | intro _ | apply kept_ite | apply keptOut_ite | split | apply kept_next | refine kept_of_eq (by assumption) ?_ | refine kept_of_eq_fst (by assumption) ?_ | apply kept_foldl | apply kept_foldl_snd | apply kept_foldl_fst | apply kept_upd | rfl)

theorem flushAudit_kept {s₀ : State} (s : State) (h_s : Kept s₀ s) : Kept s₀ (flushAudit s) := by
  unfold flushAudit
  try dsimp only
  repeat' (with_reducible first | assumption | intro _ | apply kept_ite | apply keptOut_ite | split | apply ringAppend_kept | apply auditRaw_kept | apply kept_next | refine kept_of_eq (by assumption) ?_ | refine kept_of_eq_fst (by assumption) ?_ | apply kept_foldl | apply kept_foldl_snd | apply kept_foldl_fst | apply kept_upd | rfl)

theorem execAuditFlush_kept {s₀ : State} (s : State) (h_s : Kept s₀ s) : KeptOut s₀ (execAuditFlush s) := by
  unfold execAuditFlush
  try dsimp only
  repeat' (with_reducible first | assumption | intro _ | apply kept_ite | apply keptOut_ite | split | apply flushAudit_kept | apply kept_next)

theorem execAuditCheckpoint_kept {s₀ : State} (path : Path) (s : State) (h_s : Kept s₀ s) : KeptOut s₀ (execAuditCheckpoint path s) := by
  unfold execAuditCheckpoint
  try dsimp only
  repeat' (with_reducible first | assumption | intro _ | apply kept_ite | apply keptOut_ite | split | apply command_kept | apply freeBytes_kept | apply reply_kept | apply kept_id | apply kept_next)

theorem clearLatency_kept {s₀ : State} (p : Nat) (s : State) (h_s : Kept s₀ s) : Kept s₀ (clearLatency p s) := by
  unfold clearLatency
  try dsimp only
  repeat' (with_reducible first | assumption | intro _ | apply kept_ite | apply keptOut_ite | split | apply kept_next | refine kept_of_eq (by assumption) ?_ | refine kept_of_eq_fst (by assumption) ?_ | apply kept_foldl | apply kept_foldl_snd | apply kept_foldl_fst | apply kept_upd | rfl)

theorem clearCounters_kept {s₀ : State} (which : Nat) (s : State) (h_s : Kept s₀ s) : Kept s₀ (clearCounters which s) := by
  unfold clearCounters
  try dsimp only
  repeat' (with_reducible first | assumption | intro _ | apply kept_ite | apply keptOut_ite | split | apply modPdie_kept | apply modLdie_kept | apply modSdie_kept | apply modPart_kept | apply clearLatency_kept | apply kept_next | refine kept_of_eq (by assumption) ?_ | refine kept_of_eq_fst (by assumption) ?_ | apply kept_foldl | apply kept_foldl_snd | apply kept_foldl_fst | apply kept_upd | rfl | exact fused_upd | exact Nat.le_refl _ | exact Nat.le_add_right _ _ | exact Kept.sdie (by assumption) (by assumption) _ | apply sdieWf_dram | apply sdieWf_sram | apply sdieWf_mk)

theorem execCounterClear_kept {s₀ : State} (path : Path) (which : Nat) (s : State) (h_s : Kept s₀ s) : KeptOut s₀ (execCounterClear path which s) := by
  unfold execCounterClear
  try dsimp only
  repeat' (with_reducible first | assumption | intro _ | apply kept_ite | apply keptOut_ite | split | apply commandWith_kept | apply clearCounters_kept | apply kept_id | apply kept_next)

theorem requestRetest_kept {s₀ : State} (kind : Nat) (unit : Word) (s : State) (h_s : Kept s₀ s) : Kept s₀ (requestRetest kind unit s) := by
  unfold requestRetest
  try dsimp only
  repeat' (with_reducible first | assumption | intro _ | apply kept_ite | apply keptOut_ite | split | apply faultRecord_kept | apply unitTo_kept | apply fenceUnit_kept | apply kept_next | refine kept_of_eq (by assumption) ?_ | refine kept_of_eq_fst (by assumption) ?_ | apply kept_foldl | apply kept_foldl_snd | apply kept_foldl_fst | apply kept_upd | rfl)

theorem requestRetire_kept {s₀ : State} (kind : Nat) (unit : Word) (s : State) (h_s : Kept s₀ s) : Kept s₀ (requestRetire kind unit s) := by
  unfold requestRetire
  try dsimp only
  repeat' (with_reducible first | assumption | intro _ | apply kept_ite | apply keptOut_ite | split | apply pointUnit_kept | apply kept_next | refine kept_of_eq (by assumption) ?_ | refine kept_of_eq_fst (by assumption) ?_ | apply kept_foldl | apply kept_foldl_snd | apply kept_foldl_fst | apply kept_upd | rfl | exact fused_upd)

theorem execRepairRequest_kept {s₀ : State} (path : Path) (unit : Nat) (retire : Bool) (s : State) (h_s : Kept s₀ s) : KeptOut s₀ (execRepairRequest path unit retire s) := by
  unfold execRepairRequest
  try dsimp only
  repeat' (with_reducible first | assumption | intro _ | apply kept_ite | apply keptOut_ite | split | apply commandWith_kept | apply requestRetire_kept | apply requestRetest_kept | apply kept_id | apply kept_next)

theorem execRepairOverride_kept {s₀ : State} (path : Path) (unit : Nat) (retire : Bool) (s : State) (h_s : Kept s₀ s) : KeptOut s₀ (execRepairOverride path unit retire s) := by
  unfold execRepairOverride
  try dsimp only
  repeat' (with_reducible first | assumption | intro _ | apply kept_ite | apply keptOut_ite | split | apply commandWith_kept | apply repaired_kept | apply kept_id | apply kept_next | refine kept_of_eq (by assumption) ?_ | refine kept_of_eq_fst (by assumption) ?_ | apply kept_foldl | apply kept_foldl_snd | apply kept_foldl_fst | apply kept_upd | rfl)

theorem execCalibWrite_kept {s₀ : State} (path : Path) (index : Nat) (value : Word) (s : State) (h_s : Kept s₀ s) : KeptOut s₀ (execCalibWrite path index value s) := by
  unfold execCalibWrite
  try dsimp only
  repeat' (with_reducible first | assumption | intro _ | apply kept_ite | apply keptOut_ite | split | apply command_kept | apply kept_id | apply kept_next | refine kept_of_eq (by assumption) ?_ | refine kept_of_eq_fst (by assumption) ?_ | apply kept_foldl | apply kept_foldl_snd | apply kept_foldl_fst | apply kept_upd | rfl)

theorem spdmReply_kept {s₀ : State} (path : Path) (code : Nat) (body : List Byte) (s : State) (h_s : Kept s₀ s) : Kept s₀ (spdmReply path code body s) := by
  unfold spdmReply
  try dsimp only
  repeat' (with_reducible first | assumption | intro _ | apply kept_ite | apply keptOut_ite | split | apply reply_kept)

theorem spdmAt_kept {s₀ : State} (path : Path) (least : Nat) (f : State → State) (s : State) (h_f : ∀ s, Kept s₀ s → Kept s₀ (f s)) (h_s : Kept s₀ s) : Kept s₀ (spdmAt path least f s) := by
  unfold spdmAt
  try dsimp only
  repeat' (with_reducible first | assumption | intro _ | apply kept_ite | apply keptOut_ite | split | apply onPath_kept | apply reply_kept | apply h_f)

theorem spdmTo_kept {s₀ : State} (path : Path) (n : Nat) (s : State) (h_s : Kept s₀ s) : Kept s₀ (spdmTo path n s) := by
  unfold spdmTo
  try dsimp only
  repeat' (with_reducible first | assumption | intro _ | apply kept_ite | apply keptOut_ite | split | apply kept_next | refine kept_of_eq (by assumption) ?_ | refine kept_of_eq_fst (by assumption) ?_ | apply kept_foldl | apply kept_foldl_snd | apply kept_foldl_fst | apply kept_upd | rfl)

theorem execSpdmGetVersion_kept {s₀ : State} (path : Path) (s : State) (h_s : Kept s₀ s) : KeptOut s₀ (execSpdmGetVersion path s) := by
  unfold execSpdmGetVersion
  try dsimp only
  repeat' (with_reducible first | assumption | intro _ | apply kept_ite | apply keptOut_ite | split | apply spdmAt_kept | apply spdmReply_kept | apply spdmTo_kept | apply kept_next)

theorem execSpdmGetCapabilities_kept {s₀ : State} (path : Path) (s : State) (h_s : Kept s₀ s) : KeptOut s₀ (execSpdmGetCapabilities path s) := by
  unfold execSpdmGetCapabilities
  try dsimp only
  repeat' (with_reducible first | assumption | intro _ | apply kept_ite | apply keptOut_ite | split | apply spdmAt_kept | apply freeBytes_kept | apply spdmReply_kept | apply spdmTo_kept | apply kept_next)

theorem execSpdmNegotiateAlgorithms_kept {s₀ : State} (path : Path) (s : State) (h_s : Kept s₀ s) : KeptOut s₀ (execSpdmNegotiateAlgorithms path s) := by
  unfold execSpdmNegotiateAlgorithms
  try dsimp only
  repeat' (with_reducible first | assumption | intro _ | apply kept_ite | apply keptOut_ite | split | apply spdmAt_kept | apply spdmReply_kept | apply spdmTo_kept | apply kept_next)

theorem execSpdmGetDigests_kept {s₀ : State} (path : Path) (s : State) (h_s : Kept s₀ s) : KeptOut s₀ (execSpdmGetDigests path s) := by
  unfold execSpdmGetDigests
  try dsimp only
  repeat' (with_reducible first | assumption | intro _ | apply kept_ite | apply keptOut_ite | split | apply spdmAt_kept | apply freeBytes_kept | apply spdmReply_kept | apply kept_next)

theorem execSpdmGetCertificate_kept {s₀ : State} (path : Path) (s : State) (h_s : Kept s₀ s) : KeptOut s₀ (execSpdmGetCertificate path s) := by
  unfold execSpdmGetCertificate
  try dsimp only
  repeat' (with_reducible first | assumption | intro _ | apply kept_ite | apply keptOut_ite | split | apply spdmAt_kept | apply freeBytes_kept | apply spdmReply_kept | apply kept_next)

theorem execSpdmChallenge_kept {s₀ : State} (path : Path) (s : State) (h_s : Kept s₀ s) : KeptOut s₀ (execSpdmChallenge path s) := by
  unfold execSpdmChallenge
  try dsimp only
  repeat' (with_reducible first | assumption | intro _ | apply kept_ite | apply keptOut_ite | split | apply spdmAt_kept | apply freeBytes_kept | apply spdmReply_kept | apply kept_next)

theorem execSpdmGetMeasurements_kept {s₀ : State} (path : Path) (s : State) (h_s : Kept s₀ s) : KeptOut s₀ (execSpdmGetMeasurements path s) := by
  unfold execSpdmGetMeasurements
  try dsimp only
  repeat' (with_reducible first | assumption | intro _ | apply kept_ite | apply keptOut_ite | split | apply spdmAt_kept | apply freeBytes_kept | apply spdmReply_kept | apply kept_next)

theorem setJtag_kept {s₀ : State} (n : Fin 5) (s : State) (h_s : Kept s₀ s) : Kept s₀ (setJtag n s) := by
  unfold setJtag
  try dsimp only
  repeat' (with_reducible first | assumption | intro _ | apply kept_ite | apply keptOut_ite | split | apply kept_next | refine kept_of_eq (by assumption) ?_ | refine kept_of_eq_fst (by assumption) ?_ | apply kept_foldl | apply kept_foldl_snd | apply kept_foldl_fst | apply kept_upd | rfl)

theorem execJtagBypass_kept {s₀ : State} (s : State) (h_s : Kept s₀ s) : KeptOut s₀ (execJtagBypass s) := by
  unfold execJtagBypass
  try dsimp only
  repeat' (with_reducible first | assumption | intro _ | apply kept_ite | apply keptOut_ite | split | apply setJtag_kept | apply kept_next)

theorem execJtagIdcode_kept {s₀ : State} (s : State) (h_s : Kept s₀ s) : KeptOut s₀ (execJtagIdcode s) := by
  unfold execJtagIdcode
  try dsimp only
  repeat' (with_reducible first | assumption | intro _ | apply kept_ite | apply keptOut_ite | split | apply reply_kept | apply setJtag_kept | apply kept_next)

theorem execJtagSamplePreload_kept {s₀ : State} (s : State) (h_s : Kept s₀ s) : KeptOut s₀ (execJtagSamplePreload s) := by
  unfold execJtagSamplePreload
  try dsimp only
  repeat' (with_reducible first | assumption | intro _ | apply kept_ite | apply keptOut_ite | split | apply freeBytes_kept | apply reply_kept | apply setJtag_kept | apply kept_next)

theorem execJtagExtest_kept {s₀ : State} (s : State) (h_s : Kept s₀ s) : KeptOut s₀ (execJtagExtest s) := by
  unfold execJtagExtest
  try dsimp only
  repeat' (with_reducible first | assumption | intro _ | apply kept_ite | apply keptOut_ite | split | apply setJtag_kept | apply faultRecord_kept | apply fenceUnit_kept | apply portDown_kept | apply modLdie_kept | apply kept_next | refine kept_of_eq (by assumption) ?_ | refine kept_of_eq_fst (by assumption) ?_ | apply kept_foldl | apply kept_foldl_snd | apply kept_foldl_fst | apply kept_upd | rfl)

theorem execJtagPrivate_kept {s₀ : State} (code : Nat) (s : State) (h_s : Kept s₀ s) : KeptOut s₀ (execJtagPrivate code s) := by
  unfold execJtagPrivate
  try dsimp only
  repeat' (with_reducible first | assumption | intro _ | apply kept_ite | apply keptOut_ite | split | apply auditRaw_kept | apply touchSession_kept | apply freeBytes_kept | apply reply_kept | apply setJtag_kept | apply kept_next | refine kept_of_eq (by assumption) ?_ | refine kept_of_eq_fst (by assumption) ?_ | apply kept_foldl | apply kept_foldl_snd | apply kept_foldl_fst | apply kept_upd | rfl)

end Sys2Proof.Machine
end

