-- ==== Sys2Proof/Laws/KeptKiln.lean ====
section
/-!
SUPPORT. What every operation and meaning of Machine/Kiln.lean keeps.
-/

namespace Sys2Proof.Machine

open Sys2Proof

theorem applyOverride_kept {s₀ : State} (q : Nat × Bool) (s : State) (h_s : Kept s₀ s) : Kept s₀ (applyOverride q s) := by
  unfold applyOverride
  try dsimp only
  repeat' (with_reducible first | assumption | intro _ | apply kept_ite | apply keptOut_ite | split | apply modUnit_kept | apply modLane_kept | apply modSdie_kept | apply kept_next | refine kept_of_eq (by assumption) ?_ | refine kept_of_eq_fst (by assumption) ?_ | apply kept_foldl | apply kept_foldl_snd | apply kept_foldl_fst | apply kept_upd | rfl | exact fused_upd | exact Nat.le_refl _ | exact Nat.le_add_right _ _ | exact Kept.sdie (by assumption) (by assumption) _ | apply sdieWf_dram | apply sdieWf_sram | apply sdieWf_mk)

theorem coldState_kept {s₀ : State} (s : State) (h_s : Kept s₀ s) : Kept s₀ (coldState s) := by
  have h := kept_foldl (l := s.flt.overrides) (fun s q hs => applyOverride_kept q s hs) h_s
  unfold coldState
  dsimp only
  generalize List.foldl _ _ _ = t at h ⊢
  refine ⟨fun _ => ⟨fun b hb => (nomatch hb), fun d hd => ?_⟩, h.pending, h.free, h.time, h.fused⟩
  obtain ⟨x, _, rfl⟩ := List.mem_map.1 hd
  exact sdieWf_default

theorem loseTail_kept {s₀ : State} (s : State) (h_s : Kept s₀ s) : Kept s₀ (loseTail s) := by
  unfold loseTail
  try dsimp only
  repeat' (with_reducible first | assumption | intro _ | apply kept_ite | apply keptOut_ite | split | apply kept_next | refine kept_of_eq (by assumption) ?_ | refine kept_of_eq_fst (by assumption) ?_ | apply kept_foldl | apply kept_foldl_snd | apply kept_foldl_fst | apply kept_upd | rfl)

theorem beginKiln_kept {s₀ : State} (s : State) (h_s : Kept s₀ s) : Kept s₀ (beginKiln s) := by
  unfold beginKiln
  try dsimp only
  repeat' (with_reducible first | assumption | intro _ | apply kept_ite | apply keptOut_ite | split | apply coldState_kept | apply kept_next | refine kept_of_eq (by assumption) ?_ | refine kept_of_eq_fst (by assumption) ?_ | apply kept_foldl | apply kept_foldl_snd | apply kept_foldl_fst | apply kept_upd | rfl)

theorem execKilnStart_kept {s₀ : State} (s : State) (h_s : Kept s₀ s) : KeptOut s₀ (execKilnStart s) := by
  unfold execKilnStart
  try dsimp only
  repeat' (with_reducible first | assumption | intro _ | apply kept_ite | apply keptOut_ite | split | apply beginKiln_kept | apply kept_next)

theorem execKilnRestart_kept {s₀ : State} (s : State) (h_s : Kept s₀ s) : KeptOut s₀ (execKilnRestart s) := by
  unfold execKilnRestart
  try dsimp only
  repeat' (with_reducible first | assumption | intro _ | apply kept_ite | apply keptOut_ite | split | apply beginKiln_kept | apply kept_next)

theorem kilnFail_kept {s₀ : State} (e : Fin 16) (s : State) (h_s : Kept s₀ s) : Kept s₀ (kilnFail e s) := by
  unfold kilnFail
  try dsimp only
  repeat' (with_reducible first | assumption | intro _ | apply kept_ite | apply keptOut_ite | split | apply raiseInt_kept | apply kept_next | refine kept_of_eq (by assumption) ?_ | refine kept_of_eq_fst (by assumption) ?_ | apply kept_foldl | apply kept_foldl_snd | apply kept_foldl_fst | apply kept_upd | rfl)

theorem nextPhase_kept {s₀ : State} (s : State) (h_s : Kept s₀ s) : Kept s₀ (nextPhase s) := by
  unfold nextPhase
  try dsimp only
  repeat' (with_reducible first | assumption | intro _ | apply kept_ite | apply keptOut_ite | split | apply kept_next | refine kept_of_eq (by assumption) ?_ | refine kept_of_eq_fst (by assumption) ?_ | apply kept_foldl | apply kept_foldl_snd | apply kept_foldl_fst | apply kept_upd | rfl)

theorem kilnK0_kept {s₀ : State} (o : KilnOutcome) (s : State) (h_s : Kept s₀ s) : Kept s₀ (kilnK0 o s) := by
  unfold kilnK0
  try dsimp only
  repeat' (with_reducible first | assumption | intro _ | apply kept_ite | apply keptOut_ite | split | apply kilnFail_kept | apply nextPhase_kept | apply flushAudit_kept | apply kept_next | refine kept_of_eq (by assumption) ?_ | refine kept_of_eq_fst (by assumption) ?_ | apply kept_foldl | apply kept_foldl_snd | apply kept_foldl_fst | apply kept_upd | rfl | exact fused_upd)

theorem kilnK1_kept {s₀ : State} (o : KilnOutcome) (s : State) (h_s : Kept s₀ s) : Kept s₀ (kilnK1 o s) := by
  unfold kilnK1
  try dsimp only
  repeat' (with_reducible first | assumption | intro _ | apply kept_ite | apply keptOut_ite | split | apply kilnFail_kept | apply nextPhase_kept | apply kept_next | refine kept_of_eq (by assumption) ?_ | refine kept_of_eq_fst (by assumption) ?_ | apply kept_foldl | apply kept_foldl_snd | apply kept_foldl_fst | apply kept_upd | rfl | exact fused_upd)

theorem pointFailed_kept {s₀ : State} (o : KilnOutcome) (s : State) (h_s : Kept s₀ s) : Kept s₀ (pointFailed o s) := by
  unfold pointFailed
  try dsimp only
  repeat' (with_reducible first | assumption | intro _ | apply kept_ite | apply keptOut_ite | split | apply pointUnit_kept | apply kept_next | refine kept_of_eq (by assumption) ?_ | refine kept_of_eq_fst (by assumption) ?_ | apply kept_foldl | apply kept_foldl_snd | apply kept_foldl_fst | apply kept_upd | rfl)

theorem calibrate_kept {s₀ : State} (s : State) (h_s : Kept s₀ s) : Kept s₀ (calibrate s) := by
  unfold calibrate
  try dsimp only
  repeat' (with_reducible first | assumption | intro _ | apply kept_ite | apply keptOut_ite | split | apply takeFree_kept | apply setClock_kept | apply kept_next | refine kept_of_eq (by assumption) ?_ | refine kept_of_eq_fst (by assumption) ?_ | apply kept_foldl | apply kept_foldl_snd | apply kept_foldl_fst | apply kept_upd | rfl)

theorem measured_kept {s₀ : State} (cap10uf esrMohm vholdMv : Nat) (s : State) (h_s : Kept s₀ s) : Kept s₀ (measured cap10uf esrMohm vholdMv s) := by
  unfold measured
  try dsimp only
  repeat' (with_reducible first | assumption | intro _ | apply kept_ite | apply keptOut_ite | split | apply kept_next | refine kept_of_eq (by assumption) ?_ | refine kept_of_eq_fst (by assumption) ?_ | apply kept_foldl | apply kept_foldl_snd | apply kept_foldl_fst | apply kept_upd | rfl)

theorem kilnK2_kept {s₀ : State} (o : KilnOutcome) (s : State) (h_s : Kept s₀ s) : Kept s₀ (kilnK2 o s) := by
  unfold kilnK2
  try dsimp only
  repeat' (with_reducible first | assumption | intro _ | apply kept_ite | apply keptOut_ite | split | apply pointFailed_kept | apply calibrate_kept | apply measured_kept | apply nextPhase_kept | apply kilnFail_kept)

theorem freshBrick_kept {s₀ : State} (s : State) (b : Nat) (_ : Kept s₀ s) : BrickWf (freshBrick s b) := by
  unfold freshBrick
  try dsimp only
  repeat' (with_reducible first | assumption | intro _ | apply brickWf_ite | split | apply brickWf_mem | apply brickWf_regs | apply brickWf_foldl | apply brickWf_mk | apply memWf_mk | apply regsWf_upd | apply memWf_dmem | apply memWf_bmem | apply memWf_imem | apply memWf_staging | apply memWf_memPutBytes | apply memWf_memZero | apply memWf_filter | exact memWf_nil | exact brickWf_default | exact regsWf_default)

theorem initBricks_kept {s₀ : State} (s : State) (h_s : Kept s₀ s) : Kept s₀ (initBricks s) := by
  unfold initBricks
  try dsimp only
  repeat' (with_reducible first | assumption | intro _ | apply kept_ite | apply keptOut_ite | split | apply putBrick_kept | apply freshBrick_kept | apply kept_next | refine kept_of_eq (by assumption) ?_ | refine kept_of_eq_fst (by assumption) ?_ | apply kept_foldl)

theorem kilnK3_kept {s₀ : State} (o : KilnOutcome) (s : State) (h_s : Kept s₀ s) : Kept s₀ (kilnK3 o s) := by
  unfold kilnK3
  try dsimp only
  repeat' (with_reducible first | assumption | intro _ | apply kept_ite | apply keptOut_ite | split | apply initBricks_kept | apply modPdie_kept | apply modSdie_kept | apply nextPhase_kept | apply pointFailed_kept | apply kept_next | refine kept_of_eq (by assumption) ?_ | refine kept_of_eq_fst (by assumption) ?_ | apply kept_foldl | apply kept_foldl_snd | apply kept_foldl_fst | apply kept_upd | rfl | exact fused_upd | exact Nat.le_refl _ | exact Nat.le_add_right _ _ | exact Kept.sdie (by assumption) (by assumption) _ | apply sdieWf_dram | apply sdieWf_sram | apply sdieWf_mk)

theorem kilnK4_kept {s₀ : State} (o : KilnOutcome) (s : State) (h_s : Kept s₀ s) : Kept s₀ (kilnK4 o s) := by
  unfold kilnK4
  try dsimp only
  repeat' (with_reducible first | assumption | intro _ | apply kept_ite | apply keptOut_ite | split | apply nextPhase_kept | apply pointFailed_kept | apply startTraining_kept | apply kept_next | refine kept_of_eq (by assumption) ?_ | refine kept_of_eq_fst (by assumption) ?_ | apply kept_foldl)

theorem assignSpares_kept {s₀ : State} (s : State) (h_s : Kept s₀ s) : Kept s₀ (assignSpares s) := by
  unfold assignSpares
  try dsimp only
  repeat' (with_reducible first | assumption | intro _ | apply kept_ite | apply keptOut_ite | split | apply kept_next | refine kept_of_eq (by assumption) ?_ | refine kept_of_eq_fst (by assumption) ?_ | apply kept_foldl | apply kept_foldl_snd | apply kept_foldl_fst | apply kept_upd | rfl)

theorem endK5_kept {s₀ : State} (s : State) (h_s : Kept s₀ s) : Kept s₀ (endK5 s) := by
  unfold endK5
  try dsimp only
  repeat' (with_reducible first | assumption | intro _ | apply kept_ite | apply keptOut_ite | split | apply modBrick_kept | apply kept_next | refine kept_of_eq (by assumption) ?_ | refine kept_of_eq_fst (by assumption) ?_ | apply kept_foldl | apply kept_foldl_snd | apply kept_foldl_fst | apply kept_upd | rfl | exact fused_upd | exact Nat.le_refl _ | exact Nat.le_add_right _ _ | exact Kept.brick (by assumption) (by assumption) _ | apply brickWf_mem | apply brickWf_regs | apply brickWf_foldl | apply brickWf_mk)

theorem kilnK5_kept {s₀ : State} (o : KilnOutcome) (s : State) (h_s : Kept s₀ s) : Kept s₀ (kilnK5 o s) := by
  unfold kilnK5
  try dsimp only
  repeat' (with_reducible first | assumption | intro _ | apply kept_ite | apply keptOut_ite | split | apply nextPhase_kept | apply endK5_kept | apply assignSpares_kept | apply pointFailed_kept)

theorem stampBrick_kept (h : Word) (x : BrickSt) (h_x : BrickWf x) : BrickWf (stampBrick h x) := by
  unfold stampBrick
  try dsimp only
  repeat' (with_reducible first | assumption | intro _ | apply brickWf_ite | split | apply brickWf_mem | apply brickWf_regs | apply brickWf_foldl | apply brickWf_mk)

theorem capsBrick_kept (s : State) (x : BrickSt) (h_x : BrickWf x) : BrickWf (capsBrick s x) := by
  unfold capsBrick
  exact brickWf_ite (fun _ => h_x) (fun _ => stampBrick_kept _ x h_x)

theorem writeCaps_kept {s₀ : State} (s : State) (h_s : Kept s₀ s) : Kept s₀ (writeCaps s) := by
  unfold writeCaps
  refine capsChanged_kept _ ⟨fun w => ⟨mapAll_prop (P := BrickWf) (fun x hx => capsBrick_kept s x hx) (h_s.wf w).1, (h_s.wf w).2⟩,
    h_s.pending, h_s.free, h_s.time, h_s.fused⟩

theorem slowProgram_kept {s₀ : State} (o : KilnOutcome) (s : State) (h_s : Kept s₀ s) : Kept s₀ (slowProgram o s) := by
  unfold slowProgram
  try dsimp only
  repeat' (with_reducible first | assumption | intro _ | apply kept_ite | apply keptOut_ite | split | apply setXlate_kept | apply kept_next | refine kept_of_eq (by assumption) ?_ | refine kept_of_eq_fst (by assumption) ?_ | apply kept_foldl | apply kept_foldl_snd | apply kept_foldl_fst | apply kept_upd | rfl)

theorem kilnK6_kept {s₀ : State} (o : KilnOutcome) (s : State) (h_s : Kept s₀ s) : Kept s₀ (kilnK6 o s) := by
  unfold kilnK6
  try dsimp only
  repeat' (with_reducible first | assumption | intro _ | apply kept_ite | apply keptOut_ite | split | apply nextPhase_kept | apply slowProgram_kept | apply writeCaps_kept | apply kept_next | refine kept_of_eq (by assumption) ?_ | refine kept_of_eq_fst (by assumption) ?_ | apply kept_foldl | apply kept_foldl_snd | apply kept_foldl_fst | apply kept_upd | rfl | exact fused_upd)

theorem grantCredits_kept {s₀ : State} (s : State) (h_s : Kept s₀ s) : Kept s₀ (grantCredits s) := by
  unfold grantCredits
  try dsimp only
  repeat' (with_reducible first | assumption | intro _ | apply kept_ite | apply keptOut_ite | split | apply returnCredits_kept | apply kept_next | refine kept_of_eq (by assumption) ?_ | refine kept_of_eq_fst (by assumption) ?_ | apply kept_foldl | apply kept_foldl_snd | apply kept_foldl_fst | apply kept_upd | rfl)

theorem kilnK7_kept {s₀ : State} (s : State) (h_s : Kept s₀ s) : Kept s₀ (kilnK7 s) := by
  unfold kilnK7
  try dsimp only
  repeat' (with_reducible first | assumption | intro _ | apply kept_ite | apply keptOut_ite | split | apply imageDrift_kept | apply imageRegs_kept | apply resteer_kept | apply writeSteer_kept | apply auditDevice_kept | apply grantCredits_kept | apply kept_next | refine kept_of_eq (by assumption) ?_ | refine kept_of_eq_fst (by assumption) ?_ | apply kept_foldl | apply kept_foldl_snd | apply kept_foldl_fst | apply kept_upd | rfl | exact fused_upd)

theorem activateK1_kept {s₀ : State} (o : KilnOutcome) (s : State) (h_s : Kept s₀ s) : Kept s₀ (activateK1 o s) := by
  unfold activateK1
  try dsimp only
  repeat' (with_reducible first | assumption | intro _ | apply kept_ite | apply keptOut_ite | split | apply auditDevice_kept | apply raiseInt_kept | apply coverAll_kept | apply kept_next | refine kept_of_eq (by assumption) ?_ | refine kept_of_eq_fst (by assumption) ?_ | apply kept_foldl | apply kept_foldl_snd | apply kept_foldl_fst | apply kept_upd | rfl | exact fused_upd)

theorem activateK6_kept {s₀ : State} (o : KilnOutcome) (s : State) (h_s : Kept s₀ s) : Kept s₀ (activateK6 o s) := by
  unfold activateK6
  try dsimp only
  repeat' (with_reducible first | assumption | intro _ | apply kept_ite | apply keptOut_ite | split | apply slowProgram_kept | apply writeCaps_kept | apply takeFrees_kept | apply setXlate_kept | apply auditDevice_kept | apply coverAll_kept | apply kept_next | refine kept_of_eq (by assumption) ?_ | refine kept_of_eq_fst (by assumption) ?_ | apply kept_foldl | apply kept_foldl_snd | apply kept_foldl_fst | apply kept_upd | rfl | exact fused_upd)

theorem execKilnPhaseComplete_kept {s₀ : State} (o : KilnOutcome) (s : State) (h_s : Kept s₀ s) : KeptOut s₀ (execKilnPhaseComplete o s) := by
  unfold execKilnPhaseComplete
  try dsimp only
  repeat' (with_reducible first | assumption | intro _ | apply kept_ite | apply keptOut_ite | split | apply activateK1_kept | apply activateK6_kept | apply kilnFail_kept | apply kilnK0_kept | apply kilnK1_kept | apply kilnK2_kept | apply kilnK3_kept | apply kilnK4_kept | apply kilnK5_kept | apply kilnK6_kept | apply kilnK7_kept | apply kept_next)

theorem execFwUpdate_kept {s₀ : State} (path : Path) (sizeOk signedOk : Bool) (version : Nat) (s : State) (h_s : Kept s₀ s) : KeptOut s₀ (execFwUpdate path sizeOk signedOk version s) := by
  unfold execFwUpdate
  try dsimp only
  repeat' (with_reducible first | assumption | intro _ | apply kept_ite | apply keptOut_ite | split | apply commandWith_kept | apply kept_id | apply kept_next | refine kept_of_eq (by assumption) ?_ | refine kept_of_eq_fst (by assumption) ?_ | apply kept_foldl | apply kept_foldl_snd | apply kept_foldl_fst | apply kept_upd | rfl)

theorem execFwActivate_kept {s₀ : State} (path : Path) (s : State) (h_s : Kept s₀ s) : KeptOut s₀ (execFwActivate path s) := by
  unfold execFwActivate
  try dsimp only
  repeat' (with_reducible first | assumption | intro _ | apply kept_ite | apply keptOut_ite | split | apply commandWith_kept | apply kept_id | apply kept_next | refine kept_of_eq (by assumption) ?_ | refine kept_of_eq_fst (by assumption) ?_ | apply kept_foldl | apply kept_foldl_snd | apply kept_foldl_fst | apply kept_upd | rfl)

theorem execHoldupMeasure_kept {s₀ : State} (cap10uf esrMohm vholdMv : Nat) (s : State) (h_s : Kept s₀ s) : KeptOut s₀ (execHoldupMeasure cap10uf esrMohm vholdMv s) := by
  unfold execHoldupMeasure
  try dsimp only
  repeat' (with_reducible first | assumption | intro _ | apply kept_ite | apply keptOut_ite | split | apply measured_kept | apply raiseInt_kept | apply kept_next)

theorem execVholdLow_kept {s₀ : State} (mv : Nat) (s : State) (h_s : Kept s₀ s) : KeptOut s₀ (execVholdLow mv s) := by
  unfold execVholdLow
  try dsimp only
  repeat' (with_reducible first | assumption | intro _ | apply kept_ite | apply keptOut_ite | split | apply raiseInt_kept | apply kept_next | refine kept_of_eq (by assumption) ?_ | refine kept_of_eq_fst (by assumption) ?_ | apply kept_foldl | apply kept_foldl_snd | apply kept_foldl_fst | apply kept_upd | rfl)

theorem criticalRecord_kept {s₀ : State} (cause : Nat) (nums : Map (BitVec 16 × BitVec 16)) (early : Bool) (s : State) (h_s : Kept s₀ s) : Kept s₀ (criticalRecord cause nums early s).2 := by
  unfold criticalRecord
  try dsimp only
  repeat' (with_reducible first | assumption | intro _ | apply kept_ite | apply keptOut_ite | split | apply freeBytes_kept)

theorem startHoldup_kept {s₀ : State} (cause : Fin 4) (sure : Bool) (s : State) (h_s : Kept s₀ s) : Kept s₀ (startHoldup cause sure s) := by
  unfold startHoldup
  try dsimp only
  repeat' (with_reducible first | assumption | intro _ | apply kept_ite | apply keptOut_ite | split | apply auditDevice_kept | apply auditStruct_kept | apply auditLoad_kept | apply criticalRecord_kept | apply coldState_kept | apply kept_next | refine kept_of_eq (by assumption) ?_ | refine kept_of_eq_fst (by assumption) ?_ | apply kept_foldl | apply kept_foldl_snd | apply kept_foldl_fst | apply kept_upd | rfl)

theorem execSagPin_kept {s₀ : State} (cause : SagCause) (s : State) (h_s : Kept s₀ s) : KeptOut s₀ (execSagPin cause s) := by
  unfold execSagPin
  try dsimp only
  repeat' (with_reducible first | assumption | intro _ | apply kept_ite | apply keptOut_ite | split | apply startHoldup_kept | apply takeFree_kept | apply kept_next)

theorem execShutdown_kept {s₀ : State} (path : Path) (s : State) (h_s : Kept s₀ s) : KeptOut s₀ (execShutdown path s) := by
  unfold execShutdown
  try dsimp only
  repeat' (with_reducible first | assumption | intro _ | apply kept_ite | apply keptOut_ite | split | apply command_kept | apply startHoldup_kept | apply auditRaw_kept | apply kept_id | apply kept_next)

theorem execCriticalRecordWritten_kept {s₀ : State} (ok : Bool) (s : State) (h_s : Kept s₀ s) : KeptOut s₀ (execCriticalRecordWritten ok s) := by
  unfold execCriticalRecordWritten
  try dsimp only
  repeat' (with_reducible first | assumption | intro _ | apply kept_ite | apply keptOut_ite | split | apply loseTail_kept | apply kept_next | refine kept_of_eq (by assumption) ?_ | refine kept_of_eq_fst (by assumption) ?_ | apply kept_foldl | apply kept_foldl_snd | apply kept_foldl_fst | apply kept_upd | rfl)

theorem sampleStraps_kept {s₀ : State} (makerEn : Bool) (smbAddr : Fin 4) (s : State) (h_s : Kept s₀ s) : Kept s₀ (sampleStraps makerEn smbAddr s) := by
  unfold sampleStraps
  try dsimp only
  repeat' (with_reducible first | assumption | intro _ | apply kept_ite | apply keptOut_ite | split | apply kept_next | refine kept_of_eq (by assumption) ?_ | refine kept_of_eq_fst (by assumption) ?_ | apply kept_foldl | apply kept_foldl_snd | apply kept_foldl_fst | apply kept_upd | rfl)

theorem porst_kept {s₀ : State} (s : State) (h_s : Kept s₀ s) : Kept s₀ (porst s) := by
  unfold porst
  try dsimp only
  repeat' (with_reducible first | assumption | intro _ | apply kept_ite | apply keptOut_ite | split | apply startHoldup_kept | apply coldState_kept | apply kept_next | refine kept_of_eq (by assumption) ?_ | refine kept_of_eq_fst (by assumption) ?_ | apply kept_foldl | apply kept_foldl_snd | apply kept_foldl_fst | apply kept_upd | rfl)

theorem execPorstPulse_kept {s₀ : State} (lowNs : Nat) (makerEn : Bool) (smbAddr : Fin 4) (s : State) (h_s : Kept s₀ s) : KeptOut s₀ (execPorstPulse lowNs makerEn smbAddr s) := by
  unfold execPorstPulse
  try dsimp only
  repeat' (with_reducible first | assumption | intro _ | apply kept_ite | apply keptOut_ite | split | apply sampleStraps_kept | apply porst_kept | apply takeFree_kept | apply kept_next)

theorem execVauxOutOfRange_kept {s₀ : State} (s : State) (h_s : Kept s₀ s) : KeptOut s₀ (execVauxOutOfRange s) := by
  unfold execVauxOutOfRange
  try dsimp only
  repeat' (with_reducible first | assumption | intro _ | apply kept_ite | apply keptOut_ite | split | apply loseTail_kept | apply coldState_kept | apply kept_next | refine kept_of_eq (by assumption) ?_ | refine kept_of_eq_fst (by assumption) ?_ | apply kept_foldl | apply kept_foldl_snd | apply kept_foldl_fst | apply kept_upd | rfl)

theorem execPerstAssert_kept {s₀ : State} (s : State) (h_s : Kept s₀ s) : KeptOut s₀ (execPerstAssert s) := by
  unfold execPerstAssert
  try dsimp only
  repeat' (with_reducible first | assumption | intro _ | apply kept_ite | apply keptOut_ite | split | apply lowerVfs_kept | apply startReset_kept | apply flrConfig_kept | apply kept_next | refine kept_of_eq (by assumption) ?_ | refine kept_of_eq_fst (by assumption) ?_ | apply kept_foldl | apply kept_foldl_snd | apply kept_foldl_fst | apply kept_upd | rfl)

theorem execPerstRelease_kept {s₀ : State} (s : State) (h_s : Kept s₀ s) : KeptOut s₀ (execPerstRelease s) := by
  unfold execPerstRelease
  try dsimp only
  repeat' (with_reducible first | assumption | intro _ | apply kept_ite | apply keptOut_ite | split | apply kept_next | refine kept_of_eq (by assumption) ?_ | refine kept_of_eq_fst (by assumption) ?_ | apply kept_foldl | apply kept_foldl_snd | apply kept_foldl_fst | apply kept_upd | rfl)

end Sys2Proof.Machine
end

