-- ==== Sys2Proof/Laws/KeptNativeMatrix.lean ====
section
/-!
SUPPORT. What every operation and meaning of Machine/NativeMatrix.lean keeps.
-/

namespace Sys2Proof.Machine

open Sys2Proof

theorem execMatmul_kept {s₀ : State} (c : BCtl) (m : MatmulArgs) (s : State) (h_s : Kept s₀ s) : KeptOut s₀ (execMatmul c m s) := by
  unfold execMatmul
  try dsimp only
  repeat' (with_reducible first | assumption | intro _ | apply kept_ite | apply keptOut_ite | split | apply issueSlot_kept | apply kept_next)

theorem execMatmulQ_kept {s₀ : State} (c : BCtl) (m : MatmulQArgs) (s : State) (h_s : Kept s₀ s) : KeptOut s₀ (execMatmulQ c m s) := by
  unfold execMatmulQ
  try dsimp only
  repeat' (with_reducible first | assumption | intro _ | apply kept_ite | apply keptOut_ite | split | apply issueSlot_kept | apply kept_next)

theorem execWfill_kept {s₀ : State} (c : BCtl) (dw ds : Fin 16) (quartered : Bool) (quadrant : Fin 4) (kdbl : Bool) (s : State) (h_s : Kept s₀ s) : KeptOut s₀ (execWfill c dw ds quartered quadrant kdbl s) := by
  unfold execWfill
  try dsimp only
  repeat' (with_reducible first | assumption | intro _ | apply kept_ite | apply keptOut_ite | split | apply issueSlot_kept | apply kept_next)

theorem execLoadStart_kept {s₀ : State} (c : BCtl) (d : Fin 16) (rsSrc rsDst : SReg) (s : State) (h_s : Kept s₀ s) : KeptOut s₀ (execLoadStart c d rsSrc rsDst s) := by
  unfold execLoadStart
  try dsimp only
  repeat' (with_reducible first | assumption | intro _ | apply kept_ite | apply keptOut_ite | split | apply issueSlot_kept | apply kept_next)

theorem execStoreStart_kept {s₀ : State} (c : BCtl) (d : Fin 16) (rsSrc rsDst : SReg) (s : State) (h_s : Kept s₀ s) : KeptOut s₀ (execStoreStart c d rsSrc rsDst s) := by
  unfold execStoreStart
  try dsimp only
  repeat' (with_reducible first | assumption | intro _ | apply kept_ite | apply keptOut_ite | split | apply issueSlot_kept | apply kept_next)

end Sys2Proof.Machine
end

