-- ==== Sys2Proof/Laws/KeptNativeScalar.lean ====
section
/-!
SUPPORT. What every operation and meaning of Machine/NativeScalar.lean keeps.
-/

namespace Sys2Proof.Machine

open Sys2Proof

theorem execAdd_kept {s₀ : State} (c : BCtl) (rd rs1 rs2 : SReg) (s : State) (h_s : Kept s₀ s) : KeptOut s₀ (execAdd c rd rs1 rs2 s) := by
  unfold execAdd
  try dsimp only
  repeat' (with_reducible first | assumption | intro _ | apply kept_ite | apply keptOut_ite | split | apply issueSlot_kept | apply kept_next)

theorem execSub_kept {s₀ : State} (c : BCtl) (rd rs1 rs2 : SReg) (s : State) (h_s : Kept s₀ s) : KeptOut s₀ (execSub c rd rs1 rs2 s) := by
  unfold execSub
  try dsimp only
  repeat' (with_reducible first | assumption | intro _ | apply kept_ite | apply keptOut_ite | split | apply issueSlot_kept | apply kept_next)

theorem execAnd_kept {s₀ : State} (c : BCtl) (rd rs1 rs2 : SReg) (s : State) (h_s : Kept s₀ s) : KeptOut s₀ (execAnd c rd rs1 rs2 s) := by
  unfold execAnd
  try dsimp only
  repeat' (with_reducible first | assumption | intro _ | apply kept_ite | apply keptOut_ite | split | apply issueSlot_kept | apply kept_next)

theorem execOr_kept {s₀ : State} (c : BCtl) (rd rs1 rs2 : SReg) (s : State) (h_s : Kept s₀ s) : KeptOut s₀ (execOr c rd rs1 rs2 s) := by
  unfold execOr
  try dsimp only
  repeat' (with_reducible first | assumption | intro _ | apply kept_ite | apply keptOut_ite | split | apply issueSlot_kept | apply kept_next)

theorem execXor_kept {s₀ : State} (c : BCtl) (rd rs1 rs2 : SReg) (s : State) (h_s : Kept s₀ s) : KeptOut s₀ (execXor c rd rs1 rs2 s) := by
  unfold execXor
  try dsimp only
  repeat' (with_reducible first | assumption | intro _ | apply kept_ite | apply keptOut_ite | split | apply issueSlot_kept | apply kept_next)

theorem execSll_kept {s₀ : State} (c : BCtl) (rd rs1 rs2 : SReg) (s : State) (h_s : Kept s₀ s) : KeptOut s₀ (execSll c rd rs1 rs2 s) := by
  unfold execSll
  try dsimp only
  repeat' (with_reducible first | assumption | intro _ | apply kept_ite | apply keptOut_ite | split | apply issueSlot_kept | apply kept_next)

theorem execSrl_kept {s₀ : State} (c : BCtl) (rd rs1 rs2 : SReg) (s : State) (h_s : Kept s₀ s) : KeptOut s₀ (execSrl c rd rs1 rs2 s) := by
  unfold execSrl
  try dsimp only
  repeat' (with_reducible first | assumption | intro _ | apply kept_ite | apply keptOut_ite | split | apply issueSlot_kept | apply kept_next)

theorem execSra_kept {s₀ : State} (c : BCtl) (rd rs1 rs2 : SReg) (s : State) (h_s : Kept s₀ s) : KeptOut s₀ (execSra c rd rs1 rs2 s) := by
  unfold execSra
  try dsimp only
  repeat' (with_reducible first | assumption | intro _ | apply kept_ite | apply keptOut_ite | split | apply issueSlot_kept | apply kept_next)

theorem execSlt_kept {s₀ : State} (c : BCtl) (rd rs1 rs2 : SReg) (s : State) (h_s : Kept s₀ s) : KeptOut s₀ (execSlt c rd rs1 rs2 s) := by
  unfold execSlt
  try dsimp only
  repeat' (with_reducible first | assumption | intro _ | apply kept_ite | apply keptOut_ite | split | apply issueSlot_kept | apply kept_next)

theorem execSltu_kept {s₀ : State} (c : BCtl) (rd rs1 rs2 : SReg) (s : State) (h_s : Kept s₀ s) : KeptOut s₀ (execSltu c rd rs1 rs2 s) := by
  unfold execSltu
  try dsimp only
  repeat' (with_reducible first | assumption | intro _ | apply kept_ite | apply keptOut_ite | split | apply issueSlot_kept | apply kept_next)

theorem execMul_kept {s₀ : State} (c : BCtl) (rd rs1 rs2 : SReg) (s : State) (h_s : Kept s₀ s) : KeptOut s₀ (execMul c rd rs1 rs2 s) := by
  unfold execMul
  try dsimp only
  repeat' (with_reducible first | assumption | intro _ | apply kept_ite | apply keptOut_ite | split | apply issueSlot_kept | apply kept_next)

theorem execRdcyc_kept {s₀ : State} (c : BCtl) (rd : SReg) (s : State) (h_s : Kept s₀ s) : KeptOut s₀ (execRdcyc c rd s) := by
  unfold execRdcyc
  try dsimp only
  repeat' (with_reducible first | assumption | intro _ | apply kept_ite | apply keptOut_ite | split | apply issueSlot_kept | apply kept_next)

theorem execAfr_kept {s₀ : State} (c : BCtl) (rd : SReg) (bank : Fin 8) (w : Fin 4) (s : State) (h_s : Kept s₀ s) : KeptOut s₀ (execAfr c rd bank w s) := by
  unfold execAfr
  try dsimp only
  repeat' (with_reducible first | assumption | intro _ | apply kept_ite | apply keptOut_ite | split | apply issueSlot_kept | apply kept_next)

theorem execAddi_kept {s₀ : State} (c : BCtl) (rd rs1 : SReg) (imm : BitVec 12) (s : State) (h_s : Kept s₀ s) : KeptOut s₀ (execAddi c rd rs1 imm s) := by
  unfold execAddi
  try dsimp only
  repeat' (with_reducible first | assumption | intro _ | apply kept_ite | apply keptOut_ite | split | apply issueSlot_kept | apply kept_next)

theorem execAndi_kept {s₀ : State} (c : BCtl) (rd rs1 : SReg) (imm : BitVec 12) (s : State) (h_s : Kept s₀ s) : KeptOut s₀ (execAndi c rd rs1 imm s) := by
  unfold execAndi
  try dsimp only
  repeat' (with_reducible first | assumption | intro _ | apply kept_ite | apply keptOut_ite | split | apply issueSlot_kept | apply kept_next)

theorem execOri_kept {s₀ : State} (c : BCtl) (rd rs1 : SReg) (imm : BitVec 12) (s : State) (h_s : Kept s₀ s) : KeptOut s₀ (execOri c rd rs1 imm s) := by
  unfold execOri
  try dsimp only
  repeat' (with_reducible first | assumption | intro _ | apply kept_ite | apply keptOut_ite | split | apply issueSlot_kept | apply kept_next)

theorem execXori_kept {s₀ : State} (c : BCtl) (rd rs1 : SReg) (imm : BitVec 12) (s : State) (h_s : Kept s₀ s) : KeptOut s₀ (execXori c rd rs1 imm s) := by
  unfold execXori
  try dsimp only
  repeat' (with_reducible first | assumption | intro _ | apply kept_ite | apply keptOut_ite | split | apply issueSlot_kept | apply kept_next)

theorem execSlli_kept {s₀ : State} (c : BCtl) (rd rs1 : SReg) (imm : BitVec 12) (s : State) (h_s : Kept s₀ s) : KeptOut s₀ (execSlli c rd rs1 imm s) := by
  unfold execSlli
  try dsimp only
  repeat' (with_reducible first | assumption | intro _ | apply kept_ite | apply keptOut_ite | split | apply issueSlot_kept | apply kept_next)

theorem execSrli_kept {s₀ : State} (c : BCtl) (rd rs1 : SReg) (imm : BitVec 12) (s : State) (h_s : Kept s₀ s) : KeptOut s₀ (execSrli c rd rs1 imm s) := by
  unfold execSrli
  try dsimp only
  repeat' (with_reducible first | assumption | intro _ | apply kept_ite | apply keptOut_ite | split | apply issueSlot_kept | apply kept_next)

theorem execSrai_kept {s₀ : State} (c : BCtl) (rd rs1 : SReg) (imm : BitVec 12) (s : State) (h_s : Kept s₀ s) : KeptOut s₀ (execSrai c rd rs1 imm s) := by
  unfold execSrai
  try dsimp only
  repeat' (with_reducible first | assumption | intro _ | apply kept_ite | apply keptOut_ite | split | apply issueSlot_kept | apply kept_next)

theorem execSlti_kept {s₀ : State} (c : BCtl) (rd rs1 : SReg) (imm : BitVec 12) (s : State) (h_s : Kept s₀ s) : KeptOut s₀ (execSlti c rd rs1 imm s) := by
  unfold execSlti
  try dsimp only
  repeat' (with_reducible first | assumption | intro _ | apply kept_ite | apply keptOut_ite | split | apply issueSlot_kept | apply kept_next)

theorem execLhi_kept {s₀ : State} (c : BCtl) (rd : SReg) (imm : BitVec 17) (s : State) (h_s : Kept s₀ s) : KeptOut s₀ (execLhi c rd imm s) := by
  unfold execLhi
  try dsimp only
  repeat' (with_reducible first | assumption | intro _ | apply kept_ite | apply keptOut_ite | split | apply issueSlot_kept | apply kept_next)

theorem execLlo_kept {s₀ : State} (c : BCtl) (rd : SReg) (imm : BitVec 15) (s : State) (h_s : Kept s₀ s) : KeptOut s₀ (execLlo c rd imm s) := by
  unfold execLlo
  try dsimp only
  repeat' (with_reducible first | assumption | intro _ | apply kept_ite | apply keptOut_ite | split | apply issueSlot_kept | apply kept_next)

theorem execLdb_kept {s₀ : State} (c : BCtl) (rd rs1 : SReg) (win : Fin 4) (imm : BitVec 10) (s : State) (h_s : Kept s₀ s) : KeptOut s₀ (execLdb c rd rs1 win imm s) := by
  unfold execLdb
  try dsimp only
  repeat' (with_reducible first | assumption | intro _ | apply kept_ite | apply keptOut_ite | split | apply issueSlot_kept | apply kept_next)

theorem execLdbu_kept {s₀ : State} (c : BCtl) (rd rs1 : SReg) (win : Fin 4) (imm : BitVec 10) (s : State) (h_s : Kept s₀ s) : KeptOut s₀ (execLdbu c rd rs1 win imm s) := by
  unfold execLdbu
  try dsimp only
  repeat' (with_reducible first | assumption | intro _ | apply kept_ite | apply keptOut_ite | split | apply issueSlot_kept | apply kept_next)

theorem execLdh_kept {s₀ : State} (c : BCtl) (rd rs1 : SReg) (win : Fin 4) (imm : BitVec 10) (s : State) (h_s : Kept s₀ s) : KeptOut s₀ (execLdh c rd rs1 win imm s) := by
  unfold execLdh
  try dsimp only
  repeat' (with_reducible first | assumption | intro _ | apply kept_ite | apply keptOut_ite | split | apply issueSlot_kept | apply kept_next)

theorem execLdhu_kept {s₀ : State} (c : BCtl) (rd rs1 : SReg) (win : Fin 4) (imm : BitVec 10) (s : State) (h_s : Kept s₀ s) : KeptOut s₀ (execLdhu c rd rs1 win imm s) := by
  unfold execLdhu
  try dsimp only
  repeat' (with_reducible first | assumption | intro _ | apply kept_ite | apply keptOut_ite | split | apply issueSlot_kept | apply kept_next)

theorem execLdw_kept {s₀ : State} (c : BCtl) (rd rs1 : SReg) (win : Fin 4) (imm : BitVec 10) (s : State) (h_s : Kept s₀ s) : KeptOut s₀ (execLdw c rd rs1 win imm s) := by
  unfold execLdw
  try dsimp only
  repeat' (with_reducible first | assumption | intro _ | apply kept_ite | apply keptOut_ite | split | apply issueSlot_kept | apply kept_next)

theorem execStb_kept {s₀ : State} (c : BCtl) (rs2 rs1 : SReg) (win : Fin 4) (imm : BitVec 10) (s : State) (h_s : Kept s₀ s) : KeptOut s₀ (execStb c rs2 rs1 win imm s) := by
  unfold execStb
  try dsimp only
  repeat' (with_reducible first | assumption | intro _ | apply kept_ite | apply keptOut_ite | split | apply issueSlot_kept | apply kept_next)

theorem execSth_kept {s₀ : State} (c : BCtl) (rs2 rs1 : SReg) (win : Fin 4) (imm : BitVec 10) (s : State) (h_s : Kept s₀ s) : KeptOut s₀ (execSth c rs2 rs1 win imm s) := by
  unfold execSth
  try dsimp only
  repeat' (with_reducible first | assumption | intro _ | apply kept_ite | apply keptOut_ite | split | apply issueSlot_kept | apply kept_next)

theorem execStw_kept {s₀ : State} (c : BCtl) (rs2 rs1 : SReg) (win : Fin 4) (imm : BitVec 10) (s : State) (h_s : Kept s₀ s) : KeptOut s₀ (execStw c rs2 rs1 win imm s) := by
  unfold execStw
  try dsimp only
  repeat' (with_reducible first | assumption | intro _ | apply kept_ite | apply keptOut_ite | split | apply issueSlot_kept | apply kept_next)

theorem execBeq_kept {s₀ : State} (c : BCtl) (rs1 rs2 : SReg) (off : BitVec 12) (s : State) (h_s : Kept s₀ s) : KeptOut s₀ (execBeq c rs1 rs2 off s) := by
  unfold execBeq
  try dsimp only
  repeat' (with_reducible first | assumption | intro _ | apply kept_ite | apply keptOut_ite | split | apply issueSlot_kept | apply kept_next)

theorem execBne_kept {s₀ : State} (c : BCtl) (rs1 rs2 : SReg) (off : BitVec 12) (s : State) (h_s : Kept s₀ s) : KeptOut s₀ (execBne c rs1 rs2 off s) := by
  unfold execBne
  try dsimp only
  repeat' (with_reducible first | assumption | intro _ | apply kept_ite | apply keptOut_ite | split | apply issueSlot_kept | apply kept_next)

theorem execBlt_kept {s₀ : State} (c : BCtl) (rs1 rs2 : SReg) (off : BitVec 12) (s : State) (h_s : Kept s₀ s) : KeptOut s₀ (execBlt c rs1 rs2 off s) := by
  unfold execBlt
  try dsimp only
  repeat' (with_reducible first | assumption | intro _ | apply kept_ite | apply keptOut_ite | split | apply issueSlot_kept | apply kept_next)

theorem execBge_kept {s₀ : State} (c : BCtl) (rs1 rs2 : SReg) (off : BitVec 12) (s : State) (h_s : Kept s₀ s) : KeptOut s₀ (execBge c rs1 rs2 off s) := by
  unfold execBge
  try dsimp only
  repeat' (with_reducible first | assumption | intro _ | apply kept_ite | apply keptOut_ite | split | apply issueSlot_kept | apply kept_next)

theorem execBltu_kept {s₀ : State} (c : BCtl) (rs1 rs2 : SReg) (off : BitVec 12) (s : State) (h_s : Kept s₀ s) : KeptOut s₀ (execBltu c rs1 rs2 off s) := by
  unfold execBltu
  try dsimp only
  repeat' (with_reducible first | assumption | intro _ | apply kept_ite | apply keptOut_ite | split | apply issueSlot_kept | apply kept_next)

theorem execBgeu_kept {s₀ : State} (c : BCtl) (rs1 rs2 : SReg) (off : BitVec 12) (s : State) (h_s : Kept s₀ s) : KeptOut s₀ (execBgeu c rs1 rs2 off s) := by
  unfold execBgeu
  try dsimp only
  repeat' (with_reducible first | assumption | intro _ | apply kept_ite | apply keptOut_ite | split | apply issueSlot_kept | apply kept_next)

theorem execJal_kept {s₀ : State} (c : BCtl) (rd : SReg) (target : BitVec 13) (s : State) (h_s : Kept s₀ s) : KeptOut s₀ (execJal c rd target s) := by
  unfold execJal
  try dsimp only
  repeat' (with_reducible first | assumption | intro _ | apply kept_ite | apply keptOut_ite | split | apply issueSlot_kept | apply kept_next)

theorem execJr_kept {s₀ : State} (c : BCtl) (rs1 : SReg) (s : State) (h_s : Kept s₀ s) : KeptOut s₀ (execJr c rs1 s) := by
  unfold execJr
  try dsimp only
  repeat' (with_reducible first | assumption | intro _ | apply kept_ite | apply keptOut_ite | split | apply issueSlot_kept | apply kept_next)

theorem execPrd_kept {s₀ : State} (c : BCtl) (rd : SReg) (win : Fin 4) (n : Fin 16) (half : Bool) (s : State) (h_s : Kept s₀ s) : KeptOut s₀ (execPrd c rd win n half s) := by
  unfold execPrd
  try dsimp only
  repeat' (with_reducible first | assumption | intro _ | apply kept_ite | apply keptOut_ite | split | apply issueSlot_kept | apply kept_next)

theorem execDwr_kept {s₀ : State} (c : BCtl) (rs : SReg) (d : Fin 16) (word : Fin 4) (half : Bool) (s : State) (h_s : Kept s₀ s) : KeptOut s₀ (execDwr c rs d word half s) := by
  unfold execDwr
  try dsimp only
  repeat' (with_reducible first | assumption | intro _ | apply kept_ite | apply keptOut_ite | split | apply issueSlot_kept | apply kept_next)

theorem execDrd_kept {s₀ : State} (c : BCtl) (rd : SReg) (d : Fin 16) (word : Fin 4) (half : Bool) (s : State) (h_s : Kept s₀ s) : KeptOut s₀ (execDrd c rd d word half s) := by
  unfold execDrd
  try dsimp only
  repeat' (with_reducible first | assumption | intro _ | apply kept_ite | apply keptOut_ite | split | apply issueSlot_kept | apply kept_next)

theorem execRfe_kept {s₀ : State} (c : BCtl) (s : State) (h_s : Kept s₀ s) : KeptOut s₀ (execRfe c s) := by
  unfold execRfe
  try dsimp only
  repeat' (with_reducible first | assumption | intro _ | apply kept_ite | apply keptOut_ite | split | apply issueSlot_kept | apply kept_next)

theorem execTmr_kept {s₀ : State} (c : BCtl) (rs1 : SReg) (s : State) (h_s : Kept s₀ s) : KeptOut s₀ (execTmr c rs1 s) := by
  unfold execTmr
  try dsimp only
  repeat' (with_reducible first | assumption | intro _ | apply kept_ite | apply keptOut_ite | split | apply issueSlot_kept | apply kept_next)

theorem execIe_kept {s₀ : State} (c : BCtl) (value : Bool) (s : State) (h_s : Kept s₀ s) : KeptOut s₀ (execIe c value s) := by
  unfold execIe
  try dsimp only
  repeat' (with_reducible first | assumption | intro _ | apply kept_ite | apply keptOut_ite | split | apply issueSlot_kept | apply kept_next)

theorem execTrap_kept {s₀ : State} (c : BCtl) (imm : BitVec 12) (s : State) (h_s : Kept s₀ s) : KeptOut s₀ (execTrap c imm s) := by
  unfold execTrap
  try dsimp only
  repeat' (with_reducible first | assumption | intro _ | apply kept_ite | apply keptOut_ite | split | apply issueSlot_kept | apply kept_next)

theorem execHalt_kept {s₀ : State} (c : BCtl) (imm : BitVec 12) (s : State) (h_s : Kept s₀ s) : KeptOut s₀ (execHalt c imm s) := by
  unfold execHalt
  try dsimp only
  repeat' (with_reducible first | assumption | intro _ | apply kept_ite | apply keptOut_ite | split | apply issueSlot_kept | apply kept_next)

end Sys2Proof.Machine
end

