-- ==== Sys2Proof/Laws/KeptNativeSync.lean ====
section
/-!
SUPPORT. What every operation and meaning of Machine/NativeSync.lean keeps.
-/

namespace Sys2Proof.Machine

open Sys2Proof

theorem execNop_kept {s₀ : State} (c : BCtl) (slot : SlotPos) (s : State) (h_s : Kept s₀ s) : KeptOut s₀ (execNop c slot s) := by
  unfold execNop
  try dsimp only
  repeat' (with_reducible first | assumption | intro _ | apply kept_ite | apply keptOut_ite | split | apply issueSlot_kept | apply kept_next)

theorem execReplay_kept {s₀ : State} (c : BCtl) (s : State) (h_s : Kept s₀ s) : KeptOut s₀ (execReplay c s) := by
  unfold execReplay
  try dsimp only
  repeat' (with_reducible first | assumption | intro _ | apply kept_ite | apply keptOut_ite | split | apply issueSlot_kept | apply kept_next)

theorem execBarrier_kept {s₀ : State} (c : BCtl) (rel : BitVec 6) (b : Fin 4) (s : State) (h_s : Kept s₀ s) : KeptOut s₀ (execBarrier c rel b s) := by
  unfold execBarrier
  try dsimp only
  repeat' (with_reducible first | assumption | intro _ | apply kept_ite | apply keptOut_ite | split | apply issueSlot_kept | apply kept_next)

theorem execClear_kept {s₀ : State} (c : BCtl) (id : BitVec 6) (s : State) (h_s : Kept s₀ s) : KeptOut s₀ (execClear c id s) := by
  unfold execClear
  try dsimp only
  repeat' (with_reducible first | assumption | intro _ | apply kept_ite | apply keptOut_ite | split | apply issueSlot_kept | apply kept_id | apply kept_next)

end Sys2Proof.Machine
end

