-- ==== Sys2Proof/Laws/KeptNativeVector.lean ====
section
/-!
SUPPORT. What every operation and meaning of Machine/NativeVector.lean keeps.
-/

namespace Sys2Proof.Machine

open Sys2Proof

theorem execVadd_kept {s₀ : State} (c : BCtl) (vd va vb : VReg) (s : State) (h_s : Kept s₀ s) : KeptOut s₀ (execVadd c vd va vb s) := by
  unfold execVadd
  try dsimp only
  repeat' (with_reducible first | assumption | intro _ | apply kept_ite | apply keptOut_ite | split | apply issueSlot_kept | apply kept_next)

theorem execVsub_kept {s₀ : State} (c : BCtl) (vd va vb : VReg) (s : State) (h_s : Kept s₀ s) : KeptOut s₀ (execVsub c vd va vb s) := by
  unfold execVsub
  try dsimp only
  repeat' (with_reducible first | assumption | intro _ | apply kept_ite | apply keptOut_ite | split | apply issueSlot_kept | apply kept_next)

theorem execVmul_kept {s₀ : State} (c : BCtl) (vd va vb : VReg) (s : State) (h_s : Kept s₀ s) : KeptOut s₀ (execVmul c vd va vb s) := by
  unfold execVmul
  try dsimp only
  repeat' (with_reducible first | assumption | intro _ | apply kept_ite | apply keptOut_ite | split | apply issueSlot_kept | apply kept_next)

theorem execVmin_kept {s₀ : State} (c : BCtl) (vd va vb : VReg) (s : State) (h_s : Kept s₀ s) : KeptOut s₀ (execVmin c vd va vb s) := by
  unfold execVmin
  try dsimp only
  repeat' (with_reducible first | assumption | intro _ | apply kept_ite | apply keptOut_ite | split | apply issueSlot_kept | apply kept_next)

theorem execVmax_kept {s₀ : State} (c : BCtl) (vd va vb : VReg) (s : State) (h_s : Kept s₀ s) : KeptOut s₀ (execVmax c vd va vb s) := by
  unfold execVmax
  try dsimp only
  repeat' (with_reducible first | assumption | intro _ | apply kept_ite | apply keptOut_ite | split | apply issueSlot_kept | apply kept_next)

theorem execVabs_kept {s₀ : State} (c : BCtl) (vd va : VReg) (s : State) (h_s : Kept s₀ s) : KeptOut s₀ (execVabs c vd va s) := by
  unfold execVabs
  try dsimp only
  repeat' (with_reducible first | assumption | intro _ | apply kept_ite | apply keptOut_ite | split | apply issueSlot_kept | apply kept_next)

theorem execVneg_kept {s₀ : State} (c : BCtl) (vd va : VReg) (s : State) (h_s : Kept s₀ s) : KeptOut s₀ (execVneg c vd va s) := by
  unfold execVneg
  try dsimp only
  repeat' (with_reducible first | assumption | intro _ | apply kept_ite | apply keptOut_ite | split | apply issueSlot_kept | apply kept_next)

theorem execVmov_kept {s₀ : State} (c : BCtl) (vd va : VReg) (s : State) (h_s : Kept s₀ s) : KeptOut s₀ (execVmov c vd va s) := by
  unfold execVmov
  try dsimp only
  repeat' (with_reducible first | assumption | intro _ | apply kept_ite | apply keptOut_ite | split | apply issueSlot_kept | apply kept_next)

theorem execVbcs_kept {s₀ : State} (c : BCtl) (vd : VReg) (rs : SReg) (s : State) (h_s : Kept s₀ s) : KeptOut s₀ (execVbcs c vd rs s) := by
  unfold execVbcs
  try dsimp only
  repeat' (with_reducible first | assumption | intro _ | apply kept_ite | apply keptOut_ite | split | apply issueSlot_kept | apply kept_next)

theorem execVlut_kept {s₀ : State} (c : BCtl) (vd va : VReg) (table : Fin 4) (win : Fin 4) (s : State) (h_s : Kept s₀ s) : KeptOut s₀ (execVlut c vd va table win s) := by
  unfold execVlut
  try dsimp only
  repeat' (with_reducible first | assumption | intro _ | apply kept_ite | apply keptOut_ite | split | apply issueSlot_kept | apply kept_next)

theorem execVacc_kept {s₀ : State} (c : BCtl) (vd : VReg) (bank : Fin 8) (row : Fin 128) (s : State) (h_s : Kept s₀ s) : KeptOut s₀ (execVacc c vd bank row s) := by
  unfold execVacc
  try dsimp only
  repeat' (with_reducible first | assumption | intro _ | apply kept_ite | apply keptOut_ite | split | apply issueSlot_kept | apply kept_next)

theorem execVld_kept {s₀ : State} (c : BCtl) (vd : VReg) (win : Fin 4) (rs : SReg) (s : State) (h_s : Kept s₀ s) : KeptOut s₀ (execVld c vd win rs s) := by
  unfold execVld
  try dsimp only
  repeat' (with_reducible first | assumption | intro _ | apply kept_ite | apply keptOut_ite | split | apply issueSlot_kept | apply kept_next)

theorem execVput_kept {s₀ : State} (c : BCtl) (va : VReg) (unit : BitVec 11) (s : State) (h_s : Kept s₀ s) : KeptOut s₀ (execVput c va unit s) := by
  unfold execVput
  try dsimp only
  repeat' (with_reducible first | assumption | intro _ | apply kept_ite | apply keptOut_ite | split | apply issueSlot_kept | apply kept_next)

theorem execVrsum_kept {s₀ : State} (c : BCtl) (vd va : VReg) (s : State) (h_s : Kept s₀ s) : KeptOut s₀ (execVrsum c vd va s) := by
  unfold execVrsum
  try dsimp only
  repeat' (with_reducible first | assumption | intro _ | apply kept_ite | apply keptOut_ite | split | apply issueSlot_kept | apply kept_next)

theorem execVrmax_kept {s₀ : State} (c : BCtl) (vd va : VReg) (s : State) (h_s : Kept s₀ s) : KeptOut s₀ (execVrmax c vd va s) := by
  unfold execVrmax
  try dsimp only
  repeat' (with_reducible first | assumption | intro _ | apply kept_ite | apply keptOut_ite | split | apply issueSlot_kept | apply kept_next)

theorem execQnt_kept {s₀ : State} (c : BCtl) (va : VReg) (qd : Fin 32) (unit : BitVec 11) (row : Fin 128) (nanMode : Bool) (win : Fin 4) (s : State) (h_s : Kept s₀ s) : KeptOut s₀ (execQnt c va qd unit row nanMode win s) := by
  unfold execQnt
  try dsimp only
  repeat' (with_reducible first | assumption | intro _ | apply kept_ite | apply keptOut_ite | split | apply issueSlot_kept | apply kept_next)

theorem execQscan_kept {s₀ : State} (c : BCtl) (va : VReg) (qd : Fin 32) (unit : BitVec 11) (row : Fin 128) (final : Bool) (win : Fin 4) (s : State) (h_s : Kept s₀ s) : KeptOut s₀ (execQscan c va qd unit row final win s) := by
  unfold execQscan
  try dsimp only
  repeat' (with_reducible first | assumption | intro _ | apply kept_ite | apply keptOut_ite | split | apply issueSlot_kept | apply kept_next)

end Sys2Proof.Machine
end

