-- ==== Sys2Proof/Laws/KeptTick.lean ====
section
/-!
SUPPORT. What every operation and meaning of Machine/Tick.lean keeps.
-/

namespace Sys2Proof.Machine

open Sys2Proof

theorem traceBricks_kept {s₀ : State} (s : State) (h_s : Kept s₀ s) : Kept s₀ (traceBricks s) := by
  have h : Kept s₀ (s.bricks.foldl (fun s b =>
      b.2.perf.traces.foldl (fun s r => trace r.1 0 (b.1 / 16) (b.1 % 16) r.2.1 r.2.2 s) s) s) :=
    kept_foldl (fun s b hs => kept_foldl (fun s r hs => trace_kept _ _ _ _ _ _ s hs) hs) h_s
  unfold traceBricks
  refine kept_updB h (fun hb => mapAll_prop (P := BrickWf) (fun x hx => ?_) hb) (Nat.le_refl _) (Nat.le_refl _) rfl
  split
  · exact hx
  · exact hx

theorem traceFlush_kept {s₀ : State} (s : State) (h_s : Kept s₀ s) : Kept s₀ (traceFlush s) := by
  unfold traceFlush
  try dsimp only
  repeat' (with_reducible first | assumption | intro _ | apply kept_ite | apply keptOut_ite | split | apply kept_next | refine kept_of_eq (by assumption) ?_ | refine kept_of_eq_fst (by assumption) ?_ | apply kept_foldl | apply kept_foldl_snd | apply kept_foldl_fst | apply kept_upd | rfl)

theorem tickBrick_kept (now : Nat) (b : BrickSt) (h_b : BrickWf b) : BrickWf (tickBrick now b) := by
  unfold tickBrick
  try dsimp only
  repeat' (with_reducible first | assumption | intro _ | apply brickWf_ite | split | apply advance_kept | apply countEngines_kept | apply countStall_kept | apply brickWf_mem | apply brickWf_regs | apply brickWf_foldl | apply brickWf_mk)

theorem tickOccupancy_kept {s₀ : State} (s : State) (h_s : Kept s₀ s) : Kept s₀ (tickOccupancy s) := by
  unfold tickOccupancy
  try dsimp only
  repeat' (with_reducible first | assumption | intro _ | apply kept_ite | apply keptOut_ite | split | apply kept_next | refine kept_of_eq (by assumption) ?_ | refine kept_of_eq_fst (by assumption) ?_ | apply kept_foldl | apply kept_foldl_snd | apply kept_foldl_fst | apply kept_upd | rfl)

theorem tickTime_now (t : TimeSt) : (tickTime t).now = t.now + 1 := by
  unfold tickTime
  dsimp only
  repeat' split
  all_goals rfl

theorem tick_kept {s₀ : State} (s : State) (h_s : Kept s₀ s) : Kept s₀ (tick s) := by
  have h1 := traceFlush_kept _ (traceBricks_kept s h_s)
  unfold tick
  refine tickOccupancy_kept _ ⟨fun w => ⟨mapAll_prop (P := BrickWf) (fun x hx => tickBrick_kept _ x hx) (h1.wf w).1, (h1.wf w).2⟩,
    h1.pending, h1.free, Nat.le_trans h1.time ?_, h1.fused⟩
  show _ ≤ (tickTime _).now
  rw [tickTime_now]
  exact Nat.le_succ _

end Sys2Proof.Machine
end

