-- ==== Sys2Proof/Laws/KeptObserve.lean ====
section
/-!
SUPPORT. What every operation and meaning of Machine/Observe.lean keeps.
-/

namespace Sys2Proof.Machine

open Sys2Proof

theorem execTsyncEdge_kept {s₀ : State} (s : State) (h_s : Kept s₀ s) : KeptOut s₀ (execTsyncEdge s) := by
  unfold execTsyncEdge
  try dsimp only
  repeat' (with_reducible first | assumption | intro _ | apply kept_ite | apply keptOut_ite | split | apply kept_next | refine kept_of_eq (by assumption) ?_ | refine kept_of_eq_fst (by assumption) ?_ | apply kept_foldl | apply kept_foldl_snd | apply kept_foldl_fst | apply kept_upd | rfl)

theorem execTsyncTimeout_kept {s₀ : State} (s : State) (h_s : Kept s₀ s) : KeptOut s₀ (execTsyncTimeout s) := by
  unfold execTsyncTimeout
  try dsimp only
  repeat' (with_reducible first | assumption | intro _ | apply kept_ite | apply keptOut_ite | split | apply kept_next | refine kept_of_eq (by assumption) ?_ | refine kept_of_eq_fst (by assumption) ?_ | apply kept_foldl | apply kept_foldl_snd | apply kept_foldl_fst | apply kept_upd | rfl)

theorem execTsyncOutPulse_kept {s₀ : State} (s : State) (h_s : Kept s₀ s) : KeptOut s₀ (execTsyncOutPulse s) := by
  unfold execTsyncOutPulse
  try dsimp only
  repeat' (with_reducible first | assumption | intro _ | apply kept_ite | apply keptOut_ite | split | apply kept_next | refine kept_of_eq (by assumption) ?_ | refine kept_of_eq_fst (by assumption) ?_ | apply kept_foldl | apply kept_foldl_snd | apply kept_foldl_fst | apply kept_upd | rfl)

theorem execWallStep_kept {s₀ : State} (path : Path) (s : State) (h_s : Kept s₀ s) : KeptOut s₀ (execWallStep path s) := by
  unfold execWallStep
  try dsimp only
  repeat' (with_reducible first | assumption | intro _ | apply kept_ite | apply keptOut_ite | split | apply kept_next | refine kept_of_eq (by assumption) ?_ | refine kept_of_eq_fst (by assumption) ?_ | apply kept_foldl | apply kept_foldl_snd | apply kept_foldl_fst | apply kept_upd | rfl)

theorem clearSelected_kept {s₀ : State} (s : State) (h_s : Kept s₀ s) : Kept s₀ (clearSelected s) := by
  unfold clearSelected
  try dsimp only
  repeat' (with_reducible first | assumption | intro _ | apply kept_ite | apply keptOut_ite | split | apply kept_next | refine kept_of_eq (by assumption) ?_ | refine kept_of_eq_fst (by assumption) ?_ | apply kept_foldl | apply kept_foldl_snd | apply kept_foldl_fst | apply kept_upd | rfl)

theorem execHistClear_kept {s₀ : State} (path : Path) (part : Part) (s : State) (h_s : Kept s₀ s) : KeptOut s₀ (execHistClear path part s) := by
  unfold execHistClear
  try dsimp only
  repeat' (with_reducible first | assumption | intro _ | apply kept_ite | apply keptOut_ite | split | apply clearSelected_kept | apply command_kept | apply clearLatency_kept | apply kept_id | apply kept_next)

theorem execOccupancySample_kept {s₀ : State} (s : State) (h_s : Kept s₀ s) : KeptOut s₀ (execOccupancySample s) := by
  unfold execOccupancySample
  try dsimp only
  repeat' (with_reducible first | assumption | intro _ | apply kept_ite | apply keptOut_ite | split | apply kept_next | refine kept_of_eq (by assumption) ?_ | refine kept_of_eq_fst (by assumption) ?_ | apply kept_foldl | apply kept_foldl_snd | apply kept_foldl_fst | apply kept_upd | rfl)

theorem execTraceDrop_kept {s₀ : State} (unit : Nat) (s : State) (h_s : Kept s₀ s) : KeptOut s₀ (execTraceDrop unit s) := by
  unfold execTraceDrop
  try dsimp only
  repeat' (with_reducible first | assumption | intro _ | apply kept_ite | apply keptOut_ite | split | apply kept_next | refine kept_of_eq (by assumption) ?_ | refine kept_of_eq_fst (by assumption) ?_ | apply kept_foldl | apply kept_foldl_snd | apply kept_foldl_fst | apply kept_upd | rfl)

theorem releaseRubble_kept {s₀ : State} (slot : Nat) (s : State) (h_s : Kept s₀ s) : Kept s₀ (releaseRubble slot s) := by
  unfold releaseRubble
  try dsimp only
  repeat' (with_reducible first | assumption | intro _ | apply kept_ite | apply keptOut_ite | split | apply kept_next | refine kept_of_eq (by assumption) ?_ | refine kept_of_eq_fst (by assumption) ?_ | apply kept_foldl | apply kept_foldl_snd | apply kept_foldl_fst | apply kept_upd | rfl)

theorem execRubbleRelease_kept {s₀ : State} (path : Path) (slot : Fin 4) (s : State) (h_s : Kept s₀ s) : KeptOut s₀ (execRubbleRelease path slot s) := by
  unfold execRubbleRelease
  try dsimp only
  repeat' (with_reducible first | assumption | intro _ | apply kept_ite | apply keptOut_ite | split | apply releaseRubble_kept | apply touchSession_kept | apply kept_next)

theorem auditExport_kept {s₀ : State} (path : Path) (key : Nat) (s : State) (h_s : Kept s₀ s) : Kept s₀ (auditExport path key s) := by
  unfold auditExport
  try dsimp only
  repeat' (with_reducible first | assumption | intro _ | apply kept_ite | apply keptOut_ite | split | apply audit_kept | apply kept_next | refine kept_of_eq (by assumption) ?_ | refine kept_of_eq_fst (by assumption) ?_ | apply kept_foldl | apply kept_foldl_snd | apply kept_foldl_fst | apply kept_upd | rfl)

theorem execRubbleExport_kept {s₀ : State} (path : Path) (slot : Fin 4) (s : State) (h_s : Kept s₀ s) : KeptOut s₀ (execRubbleExport path slot s) := by
  unfold execRubbleExport
  try dsimp only
  repeat' (with_reducible first | assumption | intro _ | apply kept_ite | apply keptOut_ite | split | apply onPath_kept | apply audit_kept | apply reply_kept | apply auditExport_kept | apply auditRefused_kept | apply kept_next)

end Sys2Proof.Machine
end

