-- ==== Sys2Proof/Laws/KeptRegisters.lean ====
section
/-!
SUPPORT. What every operation and meaning of Machine/Registers.lean keeps.
-/

namespace Sys2Proof.Machine

open Sys2Proof

theorem some_kept {α : Type} {s₀ : State} {g : α → State → State} {f : State → State} {o : Option α} (hg : ∀ a s, Kept s₀ s → Kept s₀ (g a s))
    (h : o.map g = some f) (s : State) (hs : Kept s₀ s) : Kept s₀ (f s) := by
  cases o with
  | none => cases h
  | some a =>
    cases h
    exact hg a s hs

theorem clearAt_kept {s₀ : State} (sp o : Nat) (f : State → State) (h : clearAt sp o = some f) (s : State) (h_s : Kept s₀ s) : Kept s₀ (f s) := by
  unfold clearAt at h
  split at h
  · refine some_kept ?_ h s h_s
    exact fun _ t ht => modPart_kept _ _ t ht
  split at h
  · cases h; exact ⟨h_s.wf, h_s.pending, h_s.free, h_s.time, h_s.fused⟩
  split at h
  · cases h; exact ⟨h_s.wf, h_s.pending, h_s.free, h_s.time, h_s.fused⟩
  split at h
  · cases h; exact ⟨h_s.wf, h_s.pending, h_s.free, h_s.time, h_s.fused⟩
  split at h
  · refine some_kept ?_ h s h_s
    exact fun _ t ht => ⟨ht.wf, ht.pending, ht.free, ht.time, ht.fused⟩
  split at h
  · dsimp only at h
    split at h
    · cases h; exact modLane_kept _ _ _ _ h_s
    · refine some_kept ?_ h s h_s
      exact fun _ t ht => modLdie_kept _ _ t ht
  split at h
  · refine some_kept ?_ h s h_s
    exact fun _ t ht => modPdie_kept _ _ t ht
  split at h
  · refine some_kept ?_ h s h_s
    exact fun _ t ht => modSdie_kept (fun _ hx => hx) ht
  split at h
  · cases h; exact modBrick_kept (fun x hx => brkClear_kept _ x hx) h_s
  · cases h

theorem clearNow_kept {s₀ : State} (u : State) (sp o : Nat) (f : State → State) (h : clearNow u sp o = some f) (s : State) (h_s : Kept s₀ s) :
    Kept s₀ (f s) := by
  unfold clearNow at h
  split at h
  · cases h
  · exact clearAt_kept sp o f h s h_s

theorem sampled_kept {s₀ : State} (sp o : Nat) (v : Nat) (s : State) (h_s : Kept s₀ s) : Kept s₀ (sampled sp o v s).2 := by
  unfold sampled
  dsimp only
  split
  · split
    · exact takeFree_kept s h_s
    · exact h_s
  · split
    · split
      · split
        · exact h_s
        · exact auditExport_kept _ _ _ h_s
      · exact h_s
    · exact h_s

theorem cleared_kept {s₀ : State} (u : State) (sp o : Nat) (s : State) (h_s : Kept s₀ s) : Kept s₀ (match clearNow u sp o with
    | some clear => clear s
    | none => s) := by
  split
  · exact clearNow_kept _ _ _ _ (by assumption) s h_s
  · exact h_s

theorem readWithin_kept {s₀ : State} (sp o n : Nat) (s : State) (h_s : Kept s₀ s) : Kept s₀ (readWithin sp o n s).2 := by
  have latch : ∀ (u : State) m, Kept s₀ u → Kept s₀ { u with dev := { u.dev with latchedHigh := m } } :=
    fun u m h => ⟨h.wf, h.pending, h.free, h.time, h.fused⟩
  unfold readWithin
  dsimp only
  split
  · split
    · exact sampled_kept _ _ _ _ h_s
    · rename_i hc
      split
      · exact latch _ _ (clearNow_kept _ _ _ _ hc s h_s)
      · split
        · exact latch _ _ (clearNow_kept _ _ _ _ hc s h_s)
        · split
          · exact latch _ _ h_s
          · exact h_s
  · have h1 : Kept s₀ (if o - o / 8 * 8 < 4 then (match clearNow s sp (o / 8 * 8) with
        | some clear => clear s
        | none => s) else s) := kept_ite (fun _ => cleared_kept _ _ _ _ h_s) (fun _ => h_s)
    exact kept_ite (fun _ => cleared_kept _ _ _ _ h1) (fun _ => h1)

theorem execRclrRead_kept {s₀ : State} (fn : Fn) (offset : Nat) (size : AccessSize) (s : State) (h_s : Kept s₀ s) : KeptOut s₀ (execRclrRead fn offset size s) := by
  have read : ∀ (u : State) v, Kept s₀ u → Kept s₀ { u with dev := { u.dev with readData := v } } :=
    fun u v h => ⟨h.wf, h.pending, h.free, h.time, h.fused⟩
  unfold execRclrRead
  dsimp only
  refine kept_next ?_
  split
  · exact h_s
  · rename_i sp _
    refine kept_ite (fun _ => h_s) (fun _ => read _ _ ?_)
    have h1 := readWithin_kept sp offset (min (sizeOf_ size) (8 - offset % 8)) s h_s
    split
    · exact readWithin_kept _ _ _ _ h1
    · exact h1

theorem via_kept {s₀ : State} (f : State → Out) (s : State) (hf : ∀ t, Kept s₀ t → KeptOut s₀ (f t)) (h_s : Kept s₀ s) : Kept s₀ (via f s) := by
  unfold via stateOf
  split
  · rename_i h
    exact hf s h_s _ h
  · exact h_s

theorem badAccess_kept {s₀ : State} (s : State) (h_s : Kept s₀ s) : Kept s₀ (badAccess s) := by
  unfold badAccess
  try dsimp only
  repeat' (with_reducible first | assumption | intro _ | apply kept_ite | apply keptOut_ite | split | apply kept_next | refine kept_of_eq (by assumption) ?_ | refine kept_of_eq_fst (by assumption) ?_ | apply kept_foldl | apply kept_foldl_snd | apply kept_foldl_fst | apply kept_upd | rfl | exact fused_upd)

theorem writeDev_kept {s₀ : State} (o v : Nat) (s : State) (h_s : Kept s₀ s) : Kept s₀ (writeDev o v s) := by
  unfold writeDev
  try dsimp only
  repeat' (with_reducible first | assumption | intro _ | apply kept_ite | apply keptOut_ite | split | apply badAccess_kept | apply kept_next | refine kept_of_eq (by assumption) ?_ | refine kept_of_eq_fst (by assumption) ?_ | apply kept_foldl | apply kept_foldl_snd | apply kept_foldl_fst | apply kept_upd | rfl | exact fused_upd)

theorem writeAuth_kept {s₀ : State} (v : Nat) (s : State) (h_s : Kept s₀ s) : Kept s₀ (writeAuth v s) := by
  unfold writeAuth
  try dsimp only
  repeat' (with_reducible first | assumption | intro _ | apply kept_ite | apply keptOut_ite | split | apply freeBytes_kept | apply via_kept | apply execOpenSession_kept | apply execVerifySession_kept | apply execCloseSession_kept | apply kept_next | refine kept_of_eq (by assumption) ?_ | refine kept_of_eq_fst (by assumption) ?_ | apply kept_foldl | apply kept_foldl_snd | apply kept_foldl_fst | apply kept_upd | rfl)

theorem writeWdn_kept {s₀ : State} (o v : Nat) (s : State) (h_s : Kept s₀ s) : Kept s₀ (writeWdn o v s) := by
  unfold writeWdn
  try dsimp only
  repeat' (with_reducible first | assumption | intro _ | apply kept_ite | apply keptOut_ite | split | apply via_kept | apply execStructApply_kept | apply execStructAbort_kept | apply touchSession_kept | apply execBoundCommit_kept | apply execShutdown_kept | apply writeAuth_kept | apply kept_next | refine kept_of_eq (by assumption) ?_ | refine kept_of_eq_fst (by assumption) ?_ | apply kept_foldl | apply kept_foldl_snd | apply kept_foldl_fst | apply kept_upd | rfl)

theorem writeObs_kept {s₀ : State} (o v : Nat) (s : State) (h_s : Kept s₀ s) : Kept s₀ (writeObs o v s) := by
  unfold writeObs
  try dsimp only
  repeat' (with_reducible first | assumption | intro _ | apply kept_ite | apply keptOut_ite | split | apply via_kept | apply execWallStep_kept | apply clearSelected_kept | apply touchSession_kept | apply execRubbleRelease_kept | apply kept_next | refine kept_of_eq (by assumption) ?_ | refine kept_of_eq_fst (by assumption) ?_ | apply kept_foldl | apply kept_foldl_snd | apply kept_foldl_fst | apply kept_upd | rfl)

theorem writeLoadCmd_kept {s₀ : State} (p : Part) (op : Nat) (s : State) (h_s : Kept s₀ s) : Kept s₀ (writeLoadCmd p op s) := by
  unfold writeLoadCmd
  try dsimp only
  repeat' (with_reducible first | assumption | intro _ | apply kept_ite | apply keptOut_ite | split | apply via_kept | apply execLoadPrepare_kept | apply execLoadCommit_kept | apply execLoadAbort_kept | apply execLoadUnload_kept)

theorem writeTemperCmd_kept {s₀ : State} (p : Part) (v : Nat) (s : State) (h_s : Kept s₀ s) : Kept s₀ (writeTemperCmd p v s) := by
  unfold writeTemperCmd
  try dsimp only
  repeat' (with_reducible first | assumption | intro _ | apply kept_ite | apply keptOut_ite | split | apply via_kept | apply execRetemperStart_kept | apply execRetemperRevert_kept | apply execRetemperRelease_kept)

theorem writePrt_kept {s₀ : State} (p : Part) (o v : Nat) (s : State) (h_s : Kept s₀ s) : Kept s₀ (writePrt p o v s) := by
  unfold writePrt
  try dsimp only
  repeat' (with_reducible first | assumption | intro _ | apply kept_ite | apply keptOut_ite | split | apply modPart_kept | apply modModel_kept | apply via_kept | apply execResetRequest_kept | apply execDriftCtlWrite_kept | apply writeTemperCmd_kept | apply command_kept | apply writeLoadCmd_kept | apply kept_id)

theorem writePf_kept {s₀ : State} (o v : Nat) (s : State) (h_s : Kept s₀ s) : Kept s₀ (writePf o v s) := by
  unfold writePf
  try dsimp only
  repeat' (with_reducible first | assumption | intro _ | apply kept_ite | apply keptOut_ite | split | apply writeDev_kept | apply writeWdn_kept | apply writeObs_kept | apply modSdie_kept | apply modBrick_kept | apply brkWrite_kept | apply writePrt_kept | apply kept_next | refine kept_of_eq (by assumption) ?_ | refine kept_of_eq_fst (by assumption) ?_ | apply kept_foldl | apply kept_foldl_snd | apply kept_foldl_fst | apply kept_upd | rfl | exact fused_upd | exact Nat.le_refl _ | exact Nat.le_add_right _ _ | exact Kept.brick (by assumption) (by assumption) _ | apply brickWf_mem | apply brickWf_regs | apply brickWf_foldl | apply brickWf_mk | apply memWf_mk | apply regsWf_upd | apply memWf_dmem | apply memWf_bmem | apply memWf_imem | apply memWf_staging | apply memWf_memPutBytes | apply memWf_memZero | apply memWf_filter | exact memWf_nil | exact brickWf_default | exact regsWf_default | exact memWf_default | apply kept_updB | apply mapAll_prop (P := BrickWf) | exact Kept.sdie (by assumption) (by assumption) _ | apply sdieWf_dram | apply sdieWf_sram | apply sdieWf_mk)

theorem writeVec_kept {s₀ : State} (p v o val : Nat) (s : State) (h_s : Kept s₀ s) : Kept s₀ (writeVec p v o val s) := by
  unfold writeVec
  try dsimp only
  repeat' (with_reducible first | assumption | intro _ | apply kept_ite | apply keptOut_ite | split | apply modPart_kept | apply unmaskVec_kept)

theorem writeRing_kept {s₀ : State} (p r o v : Nat) (s : State) (h_s : Kept s₀ s) : Kept s₀ (writeRing p r o v s) := by
  unfold writeRing
  try dsimp only
  repeat' (with_reducible first | assumption | intro _ | apply kept_ite | apply keptOut_ite | split | apply modPart_kept | apply writeRingCtl_kept)

theorem writeWin_kept {s₀ : State} (p o v : Nat) (s : State) (h_s : Kept s₀ s) : Kept s₀ (writeWin p o v s) := by
  unfold writeWin
  try dsimp only
  repeat' (with_reducible first | assumption | intro _ | apply kept_ite | apply keptOut_ite | split | apply writeVec_kept | apply writeRing_kept | apply via_kept | apply execRingDoorbell_kept | apply modPart_kept)

theorem writeReg_kept {s₀ : State} (sp o v : Nat) (s : State) (h_s : Kept s₀ s) : Kept s₀ (writeReg sp o v s) := by
  unfold writeReg
  try dsimp only
  repeat' (with_reducible first | assumption | intro _ | apply kept_ite | apply keptOut_ite | split | apply writePf_kept | apply writeWin_kept)

theorem dropHeld_kept {s₀ : State} (b : Nat) (s : State) (h_s : Kept s₀ s) : Kept s₀ (dropHeld b s) := by
  unfold dropHeld
  try dsimp only
  repeat' (with_reducible first | assumption | intro _ | apply kept_ite | apply keptOut_ite | split | apply kept_next | refine kept_of_eq (by assumption) ?_ | refine kept_of_eq_fst (by assumption) ?_ | apply kept_foldl | apply kept_foldl_snd | apply kept_foldl_fst | apply kept_upd | rfl | exact fused_upd)

theorem writeHigh_kept {s₀ : State} (sp o v cur : Nat) (s : State) (h_s : Kept s₀ s) : Kept s₀ (writeHigh sp o v cur s) := by
  unfold writeHigh
  try dsimp only
  repeat' (with_reducible first | assumption | intro _ | apply kept_ite | apply keptOut_ite | split | apply writeReg_kept)

theorem write4_kept {s₀ : State} (sp o v : Nat) (s : State) (h_s : Kept s₀ s) : Kept s₀ (write4 sp o v s) := by
  unfold write4
  try dsimp only
  repeat' (with_reducible first | assumption | intro _ | apply kept_ite | apply keptOut_ite | split | apply writeReg_kept | apply dropHeld_kept | apply writeHigh_kept | apply badAccess_kept | apply kept_next | refine kept_of_eq (by assumption) ?_ | refine kept_of_eq_fst (by assumption) ?_ | apply kept_foldl | apply kept_foldl_snd | apply kept_foldl_fst | apply kept_upd | rfl | exact fused_upd)

theorem writeWithin_kept {s₀ : State} (sp o n v : Nat) (s : State) (h_s : Kept s₀ s) : Kept s₀ (writeWithin sp o n v s) := by
  unfold writeWithin
  try dsimp only
  repeat' (with_reducible first | assumption | intro _ | apply kept_ite | apply keptOut_ite | split | apply writeReg_kept | apply dropHeld_kept | apply write4_kept | apply badAccess_kept)

theorem execRegisterWrite_kept {s₀ : State} (fn : Fn) (offset : Nat) (size : AccessSize) (value : DWord) (s : State) (h_s : Kept s₀ s) : KeptOut s₀ (execRegisterWrite fn offset size value s) := by
  unfold execRegisterWrite
  try dsimp only
  repeat' (with_reducible first | assumption | intro _ | apply kept_ite | apply keptOut_ite | split | apply writeWithin_kept | apply kept_next)

end Sys2Proof.Machine
end

section
/-!
PROOF. One bundle of one slot on a brick that can issue it: what the device makes of its halt, of its completion and of a
jump's two cycles; and the exception return (R208, R238, R240 to R242).
-/

namespace Sys2Proof.Machine

open Sys2Proof

/-! ### Tables and bricks written twice -/

theorem mapSet_mapSet_same {α : Type} (k : Nat) (v w : α) (m : Map α) : mapSet k v (mapSet k w m) = mapSet k v m := by
  induction m with
  | nil => simp [mapSet]
  | cons p t ih =>
    obtain ⟨i, u⟩ := p
    by_cases hi : i = k
    · simp [mapSet, hi]
    · by_cases hk : k < i
      · simp [mapSet, hi, hk]
      · simp [mapSet, hi, hk, ih]

@[simp] theorem putBrick_putBrick_same (b : Nat) (x y : BrickSt) (s : State) : putBrick b x (putBrick b y s) = putBrick b x s := by
  simp only [putBrick, mapSet_mapSet_same]

theorem mapFind_map_values {α β : Type} (f : α → β) (k : Nat) (m : Map α) :
    mapFind k (m.map (fun p => (p.1, f p.2))) = (mapFind k m).map f := by
  induction m with
  | nil => rfl
  | cons p t ih =>
    simp only [List.map_cons, mapFind, ih]
    split <;> rfl

/-! ### The device after a halt (R242) -/

/-- A change made to every brick of a list without repetitions reaches those bricks once, and no other. -/
theorem brickAt_foldl_modBrick (f : BrickSt → BrickSt) (l : List Nat) (hl : l.Nodup) (k : Nat) (s : State) :
    brickAt (l.foldl (fun s b => modBrick b f s) s) k = if k ∈ l then f (brickAt s k) else brickAt s k := by
  induction l generalizing s with
  | nil => simp
  | cons b t ih =>
    obtain ⟨hb, ht⟩ := List.nodup_cons.1 hl
    rw [List.foldl_cons, ih ht, brickAt_modBrick]
    by_cases hk : k = b
    · simp [hk, hb]
    · simp [hk]

/-- A change made to a list of bricks leaves all but the bricks. -/
theorem foldl_modBrick_frame (f : BrickSt → BrickSt) (l : List Nat) (s : State) :
    l.foldl (fun s b => modBrick b f s) s = { s with bricks := (l.foldl (fun s b => modBrick b f s) s).bricks } := by
  induction l generalizing s with
  | nil => rfl
  | cons b t ih =>
    rw [List.foldl_cons, ih]
    rfl

theorem mem_courseBricks (c k : Nat) : k ∈ courseBricks c ↔ k / 16 = c := by
  simp only [courseBricks, List.mem_map, List.mem_range]
  constructor
  · rintro ⟨i, hi, rfl⟩
    omega
  · intro h
    exact ⟨k % 16, by omega, by omega⟩

theorem nodup_courseBricks (c : Nat) : (courseBricks c).Nodup :=
  List.nodup_range.map (fun _ _ h => Nat.add_left_cancel h)

theorem brickAt_freezeCourse (c k : Nat) (s : State) :
    brickAt (freezeCourse c s) k = if k / 16 = c then freezeBrick (brickAt s k) else brickAt s k := by
  simp only [freezeCourse, brickAt_foldl_modBrick _ _ (nodup_courseBricks c), mem_courseBricks]

theorem freezeCourse_frame (c : Nat) (s : State) : freezeCourse c s = { s with bricks := (freezeCourse c s).bricks } :=
  foldl_modBrick_frame _ _ s

theorem freezeBrick_of_halted {y : BrickSt} (h : y.c.phase = .halted) : freezeBrick y = y := by
  simp [freezeBrick, clocked, h]

/-- The pallets in flight that run on brick `b`, marked failed; nothing else of the P-die. -/
def failInflight (b : Nat) (p : PDie) : PDie :=
  { p with inflight := mapAll (fun l => if l.bricks.contains b then { l with failed := true } else l) p.inflight }

theorem pdieAt_failPalletsOn (b p : Nat) (s : State) : pdieAt (failPalletsOn b s) p = failInflight b (pdieAt s p) := by
  have hfind : mapFind p (failPalletsOn b s).pdies = (mapFind p s.pdies).map (failInflight b) :=
    mapFind_map_values (failInflight b) p s.pdies
  simp only [pdieAt, mapGet, hfind]
  cases mapFind p s.pdies <;> rfl

theorem failPalletsOn_putBrick (b k : Nat) (x : BrickSt) (s : State) :
    failPalletsOn b (putBrick k x s) = putBrick k x (failPalletsOn b s) := rfl

theorem afterHalt_frame (b : Nat) (y : BrickSt) (s : State) :
    afterHalt b y s = { failPalletsOn b s with bricks := (afterHalt b y s).bricks } := by
  simp only [afterHalt, failPalletsOn_putBrick]
  split
  · rw [freezeCourse_frame]
    simp only [putBrick]
  · rfl

theorem pdieAt_afterHalt (b p : Nat) (y : BrickSt) (s : State) : pdieAt (afterHalt b y s) p = failInflight b (pdieAt s p) := by
  rw [afterHalt_frame, ← pdieAt_failPalletsOn]
  rfl

theorem brickAt_afterHalt (b k : Nat) (y : BrickSt) (s : State) :
    brickAt (afterHalt b y s) k =
      if y.c.lockstep ∧ k / 16 = b / 16 then freezeBrick (brickAt (putBrick b y s) k) else brickAt (putBrick b y s) k := by
  unfold afterHalt
  cases y.c.lockstep
  · rfl
  · simp only [if_true, brickAt_freezeCourse, true_and]
    rfl

theorem afterHalt_putBrick_same (b : Nat) (x y : BrickSt) (s : State) : afterHalt b y (putBrick b x s) = afterHalt b y s := by
  simp only [afterHalt, putBrick_putBrick_same]

/-- R242: what the device makes of a halted brick. -/
theorem haltsTo_afterHalt {b : Nat} {y : BrickSt} (hy : y.c.phase = .halted) (s : State) : HaltsTo s (afterHalt b y s) b y where
  brick := by simp [brickAt_afterHalt, freezeBrick_of_halted hy]
  others k hk := by rw [brickAt_afterHalt, brickAt_putBrick_other hk]
  pallets p q := by
    rw [pdieAt_afterHalt]
    exact mapFind_map_values (fun l : Pallet => if l.bricks.contains b then { l with failed := true } else l) q _
  pdies p := by
    rw [pdieAt_afterHalt]
    rfl
  rest := by
    rw [afterHalt_frame]
    rfl

/-! ### Halt conditions (R241) -/

/-- The slot that a command fills. -/
def slotOf (c : BCtl) (pos : SlotPos) (op : SlotOp) : Slot := { pos, wait := c.wait, sig := c.sig, rsv := c.rsv, op }

/-- The halt conditions of a command's operation, alone in its bundle. -/
def haltsAlone (buttress : Bool) (x : BrickSt) (c : BCtl) (pos : SlotPos) (op : SlotOp) : List HaltCond :=
  opHalts buttress x [slotOf c pos op] (slotOf c pos op)

/-- One of the conditions of a list that has any is the worst. -/
theorem exists_worst {cs : List (Nat × Fin 8 × Word)} (h : cs ≠ []) : ∃ k ∈ cs, worst cs = some k := by
  induction cs using List.reverseRecOn with
  | nil => exact absurd rfl h
  | append_singleton l k ih =>
    by_cases hl : l = []
    · exact ⟨k, by simp, by simp [hl, worst]⟩
    · obtain ⟨k', hk', hw⟩ := ih hl
      unfold worst at hw ⊢
      rw [List.foldl_append, hw, List.foldl_cons, List.foldl_nil]
      dsimp only
      split
      · exact ⟨k, by simp, rfl⟩
      · exact ⟨k', by simp [hk'], rfl⟩

/-- R238: the conditions under which RFE halts. -/
theorem mem_rfeHalts (b : BrickSt) (k : HaltCond) : k ∈ rfeHalts b ↔
    b.r.excDepth = 0 ∧ k = (0x01, 0x3B)
    ∨ (getS b spReg).toNat % 32 ≠ 0 ∧ k = (0x05, getS b spReg)
    ∨ ((getS b spReg).toNat < b.c.stkLo.toNat ∨ b.c.stkHi.toNat < (getS b spReg).toNat + 31) ∧ k = (0x06, getS b spReg) := by
  simp only [rfeHalts, List.mem_append, List.mem_ite_nil_right, List.mem_singleton, or_assoc]

theorem rfeHalts_eq_nil_iff (b : BrickSt) : rfeHalts b = [] ↔
    ¬(b.r.excDepth = 0 ∨ (getS b spReg).toNat % 32 ≠ 0 ∨ (getS b spReg).toNat < b.c.stkLo.toNat
      ∨ b.c.stkHi.toNat < (getS b spReg).toNat + 31) := by
  simp only [rfeHalts, List.append_eq_nil_iff, ite_eq_right_iff, List.cons_ne_nil, imp_false, not_or, and_assoc]

theorem haltsAlone_rfe (buttress : Bool) (x : BrickSt) (c : BCtl) : haltsAlone buttress x c .scalar .rfe = rfeHalts x := by
  change rfeHalts x ++ [] ++ [] = _
  rw [List.append_nil, List.append_nil]

/-! ### Two cycles pass with one signal owed (R208, R218) -/

/-- `n` cycles on a brick in which nothing lands: the cycle count and the timer alone. -/
def ticked (n : Nat) (b : BrickSt) : BrickSt :=
  { b with r := { b.r with cycle := b.r.cycle + n, timer := (timerAfter n b.r.timer).1,
                           pendTimer := b.r.pendTimer || (timerAfter n b.r.timer).2 } }

theorem landStreams_live {b : BrickSt} (live : ∀ p ∈ b.fl.streams, p.2.consumed = false) : landStreams b = b := by
  unfold landStreams
  dsimp only
  have hended : b.fl.streams.filter (fun p => p.2.consumed && decide (p.2.endsAt ≤ b.r.cycle)) = [] :=
    List.filter_eq_nil_iff.2 (fun p hp => by simp [live p hp])
  have hrest : b.fl.streams.filter (fun p => !(p.2.consumed && decide (p.2.endsAt ≤ b.r.cycle))) = b.fl.streams :=
    List.filter_eq_self.2 (fun p hp => by simp [live p hp])
  rw [hended, hrest]
  rfl

/-- Streams that no operation has consumed do not land, and nothing else is in flight. -/
theorem landDue_streams (b : BrickSt) (st : Map Stream) (l : List (Nat × BitVec 6)) (live : ∀ p ∈ st, p.2.consumed = false) :
    landDue { b with fl := { streams := st, sigs := l } } = { b with fl := { streams := st, sigs := l } } :=
  landStreams_live live

/-- Cycles in which nothing lands: the time passes, and the signals raised by then become visible. -/
theorem advance_streams (n : Nat) (hn : n ≠ 0) (b : BrickSt) (st : Map Stream) (l : List (Nat × BitVec 6))
    (live : ∀ p ∈ st, p.2.consumed = false) :
    advance n { b with fl := { streams := st, sigs := l } } = applySigs (ticked n { b with fl := { streams := st, sigs := l } }) := by
  have hlate : ¬b.r.cycle + n ≤ b.r.cycle := by omega
  have htime : b.r.cycle + n - b.r.cycle = n := by omega
  have hland := landDue_streams (ticked n b) st l live
  unfold advance advanceTo
  simp only [hlate, htime, if_false]
  exact congrArg applySigs hland

theorem advance_two_signalAt {b : BrickSt} (quiet : b.fl = { streams := b.fl.streams })
    (live : ∀ p ∈ b.fl.streams, p.2.consumed = false) (id : BitVec 6) :
    advance 2 (signalAt (b.r.cycle + 1) id b) = raiseSig id (ticked 2 b) := by
  obtain ⟨st, hst⟩ : ∃ st, b.fl = { streams := st } := ⟨_, quiet⟩
  have hb : b = { b with fl := { streams := st } } := by rw [← hst]
  rw [hst] at live
  rw [hb]
  by_cases hid : id = 0
  · rw [signalAt, if_pos hid, advance_streams 2 (by decide) b st [] live, raiseSig, if_pos hid]
    rfl
  · rw [signalAt, if_neg hid, if_neg (by simp)]
    refine (advance_streams 2 (by decide) b st [(b.r.cycle + 1, id)] live).trans ?_
    simp [applySigs, ticked]

/-! ### A completed bundle, and what passes through it -/

/-- What completing a bundle notes beside its effect: the engines' cycles, the time of issue, the end of a stall or handler. -/
def noteIssue (now n : Nat) (engines : List Nat) (z : BrickSt) : BrickSt :=
  let z := countEngines n engines [] z
  { z with c := { z.c with lastIssueNs := now, stallWaits := [], stallReplay := false, stallSlots := [],
                           stallHandler := z.c.stallHandler && z.r.excDepth != 0 } }

/-- A wait consumed touches the flags and the counters alone. -/
theorem consumeWait_shape (b : BrickSt) (id : BitVec 6) :
    consumeWait b id = { b with r := { b.r with flags := (consumeWait b id).r.flags, counters := (consumeWait b id).r.counters } } := by
  unfold consumeWait
  split_ifs <;> rfl

theorem raiseSig_noteIssue (now n : Nat) (engines : List Nat) (id : BitVec 6) (b : BrickSt) :
    raiseSig id (noteIssue now n engines b) = noteIssue now n engines (raiseSig id b) := by
  have hflags : (noteIssue now n engines b).r.flags = b.r.flags := rfl
  have hcounters : (noteIssue now n engines b).r.counters = b.r.counters := rfl
  simp only [raiseSig, hflags, hcounters]
  split_ifs <;> rfl

/-- A signal touches the flags, the counters and the two bits of their overruns alone. -/
theorem raiseSig_shape (id : BitVec 6) (b : BrickSt) :
    raiseSig id b = { b with
      r := { b.r with flags := (raiseSig id b).r.flags, counters := (raiseSig id b).r.counters }
      c := { b.c with flagOverrun := (raiseSig id b).c.flagOverrun, counterSat := (raiseSig id b).c.counterSat } } := by
  simp only [raiseSig]
  split_ifs <;> rfl

/-- The registers that an exception return writes: s0 to s31, the pc, ie and the depth. -/
def setFrame (regs : Vector Word 32) (pc : BitVec 13) (ie : Bool) (depth : BitVec 4) (b : BrickSt) : BrickSt :=
  { b with r := { b.r with s := regs, pc := pc, ie := ie, excDepth := depth } }

/-- An exception return writes nothing but those registers. -/
theorem excReturn_eq_setFrame (b : BrickSt) :
    excReturn b = setFrame (excReturn b).r.s (excReturn b).r.pc (excReturn b).r.ie (b.r.excDepth - 1) b := rfl

section SetFrame

variable (regs : Vector Word 32) (pc : BitVec 13) (ie : Bool) (depth : BitVec 4) (b : BrickSt)

theorem raiseSig_setFrame (id : BitVec 6) : raiseSig id (setFrame regs pc ie depth b) = setFrame regs pc ie depth (raiseSig id b) := by
  have hflags : (setFrame regs pc ie depth b).r.flags = b.r.flags := rfl
  have hcounters : (setFrame regs pc ie depth b).r.counters = b.r.counters := rfl
  simp only [raiseSig, hflags, hcounters]
  split_ifs <;> rfl

theorem ticked_setFrame (n : Nat) : ticked n (setFrame regs pc ie depth b) = setFrame regs pc ie depth (ticked n b) := rfl

/-- The depth as written decides whether a handler has ended. -/
theorem noteIssue_setFrame (now n : Nat) (engines : List Nat) :
    noteIssue now n engines (setFrame regs pc ie depth b) =
      { setFrame regs pc ie depth (noteIssue now n engines b) with
        c := { (noteIssue now n engines b).c with stallHandler := b.c.stallHandler && depth != 0 } } := rfl

end SetFrame

theorem toNat_append_byte {n : Nat} (v : BitVec n) (x : Byte) : (v ++ x).toNat = v.toNat * 256 + x.toNat := by
  rw [BitVec.toNat_append, ← Nat.shiftLeft_add_eq_or_of_lt x.isLt, Nat.shiftLeft_eq]

/-- A word of DMEM as the model reads it, four bytes with the lowest at the lowest address. -/
theorem ofNat_dmemRead_four (b : BrickSt) (a : Nat) : BitVec.ofNat 32 (dmemRead b a 4) = dmemWord b a := by
  have hread : dmemRead b a 4 = (dmemWord b a).toNat := by
    simp only [dmemWord, toNat_append_byte]
    simp only [dmemRead, memBytes, List.range_succ, List.range_zero, List.nil_append, List.cons_append, List.map_cons,
      List.map_nil, leNat, Nat.add_zero]
    omega
  rw [hread, BitVec.ofNat_toNat, BitVec.setWidth_eq]

/-! ### Jumps (R208, R257) -/

/-- The four operations of the scalar slot that leave the ascending order of addresses. -/
theorem jumps_cases {b : BrickSt} {op : SlotOp} (h : jumps b op = true) :
    (∃ o x y off, op = .branch o x y off ∧ branchTaken o (getS b x) (getS b y) = true)
    ∨ (∃ rd target, op = .jal rd target) ∨ (∃ x, op = .jr x) ∨ op = .rfe := by
  cases op
  case branch => exact .inl ⟨_, _, _, _, rfl, h⟩
  case jal => exact .inr (.inl ⟨_, _, rfl⟩)
  case jr => exact .inr (.inr (.inl ⟨_, rfl⟩))
  case rfe => exact .inr (.inr (.inr rfl))
  all_goals exact absurd h Bool.false_ne_true

theorem setS_fl (i : SReg) (v : Word) (b : BrickSt) : (setS i v b).fl = b.fl := by
  unfold setS
  split <;> rfl

theorem setS_cycle (i : SReg) (v : Word) (b : BrickSt) : (setS i v b).r.cycle = b.r.cycle := by
  unfold setS
  split <;> rfl

theorem setS_c (i : SReg) (v : Word) (b : BrickSt) : (setS i v b).c = b.c := by
  unfold setS
  split <;> rfl

/-- A jump changes registers and the pc: it puts nothing in flight, lets no cycle pass and leaves the control registers. -/
theorem scalarEffect_frame_of_jumps {x : BrickSt} {op : SlotOp} (h : jumps x op = true) (sig : BitVec 6) (b : BrickSt) :
    (scalarEffect x sig op b).fl = b.fl ∧ (scalarEffect x sig op b).r.cycle = b.r.cycle ∧ (scalarEffect x sig op b).c = b.c := by
  rcases jumps_cases h with ⟨o, u, v, off, rfl, ht⟩ | ⟨rd, target, rfl⟩ | ⟨u, rfl⟩ | rfl
  · have htaken : scalarEffect x sig (.branch o u v off) b = setPc (x.r.pc + off.signExtend 13) b := if_pos ht
    exact htaken ▸ ⟨rfl, rfl, rfl⟩
  · exact ⟨setS_fl _ _ _, setS_cycle _ _ _, setS_c _ _ _⟩
  · exact ⟨rfl, rfl, rfl⟩
  · exact ⟨rfl, rfl, rfl⟩

/-- The bundle of one jump: its effect and its signal, and two cycles to the target; it is neither REPLAY, TMR nor TRAP. -/
theorem issueNow_jump {x : BrickSt} {c : BCtl} {op : SlotOp} (h : jumps x op = true) :
    issueNow x [slotOf c .scalar op] = advance 2 (signalAt (x.r.cycle + 1) c.sig
      (scalarEffect x c.sig op (setPc (x.r.pc + 1) (consumeWait x c.wait)))) := by
  have hwaits : (bundleWaits [slotOf c .scalar op]).foldl consumeWait x = consumeWait x c.wait := by
    by_cases hw : c.wait = 0#6
    · simp [bundleWaits, slotOf, hw, consumeWait]
    · simp [bundleWaits, slotOf, hw]
  rcases jumps_cases h with ⟨o, u, v, off, rfl, ht⟩ | ⟨rd, target, rfl⟩ | ⟨u, rfl⟩ | rfl <;>
    simp only [issueNow, hwaits] <;> simp [slotOf, slotEffect, scalarSigAt, isReplay, timerSet, trapOf, h]

/-! ### The brick after its wait and its pc, before its effect -/

/-- The addressed brick with the wait consumed and the pc moved on. -/
def movedOn (s : State) (c : BCtl) : BrickSt := setPc ((here s c).r.pc + 1) (consumeWait (here s c) c.wait)

theorem movedOn_shape (s : State) (c : BCtl) : movedOn s c = { here s c with
    r := { (here s c).r with pc := (here s c).r.pc + 1, flags := (movedOn s c).r.flags, counters := (movedOn s c).r.counters } } := by
  unfold movedOn
  rw [consumeWait_shape]
  rfl

theorem movedOn_fl (s : State) (c : BCtl) : (movedOn s c).fl = (here s c).fl := by rw [movedOn_shape]

theorem movedOn_c (s : State) (c : BCtl) : (movedOn s c).c = (here s c).c := by rw [movedOn_shape]

theorem movedOn_cycle (s : State) (c : BCtl) : (movedOn s c).r.cycle = (here s c).r.cycle := by rw [movedOn_shape]

theorem raiseSig_cycle (id : BitVec 6) (b : BrickSt) : (raiseSig id b).r.cycle = b.r.cycle := by rw [raiseSig_shape]

theorem raiseSig_phase (id : BitVec 6) (b : BrickSt) : (raiseSig id b).c.phase = b.c.phase := by rw [raiseSig_shape]

theorem afterBundle_eq (s : State) (c : BCtl) (engines : List Nat) (n : Nat) :
    afterBundle s c engines n = noteIssue (nowNs s) n engines (ticked n (movedOn s c)) := by
  dsimp only [afterBundle, movedOn]
  rw [consumeWait_shape]
  rfl

theorem issuedJump_eq (s : State) (c : BCtl) :
    issuedJump s c = noteIssue (nowNs s) 2 [1] (raiseSig c.sig (ticked 2 (movedOn s c))) := by
  rw [issuedJump, afterBundle_eq, raiseSig_noteIssue]

theorem issuedJump_regs (s : State) (c : BCtl) : (issuedJump s c).r.s = (here s c).r.s := by
  rw [issuedJump_eq, raiseSig_shape, movedOn_shape]
  rfl

theorem issuedJump_excDepth (s : State) (c : BCtl) : (issuedJump s c).r.excDepth = (here s c).r.excDepth := by
  rw [issuedJump_eq, raiseSig_shape, movedOn_shape]
  rfl

theorem issuedJump_m (s : State) (c : BCtl) : (issuedJump s c).m = (here s c).m := by
  rw [issuedJump_eq, raiseSig_shape, movedOn_shape]
  rfl

/-- The return reads the same frame before its bundle and after. -/
theorem excReturn_issuedJump_eq_setFrame (s : State) (c : BCtl) :
    excReturn (issuedJump s c) = setFrame (excReturn (movedOn s c)).r.s (excReturn (movedOn s c)).r.pc
      (excReturn (movedOn s c)).r.ie ((movedOn s c).r.excDepth - 1) (issuedJump s c) := by
  rw [issuedJump_eq, raiseSig_shape]
  rfl

/-- R238: the return reads the frame of the brick as it stood before the bundle. -/
theorem excReturn_issuedJump (s : State) (c : BCtl) :
    let x := here s c
    let sp := (getS x 31).toNat
    let y := setS 31 (BitVec.ofNat 32 (sp + 32)) (setS 1 (dmemWord x (sp + 16)) (setS 2 (dmemWord x (sp + 20))
      (setS 3 (dmemWord x (sp + 24)) (setS 4 (dmemWord x (sp + 28)) (issuedJump s c)))))
    excReturn (issuedJump s c) = { y with
      r := { y.r with pc := (dmemWord x sp).setWidth 13, ie := (dmemWord x (sp + 8)).getLsbD 0, excDepth := x.r.excDepth - 1 } } := by
  have hsp : getS (issuedJump s c) spReg = getS (here s c) 31 := by simp [getS, spReg, issuedJump_regs]
  have hword : ∀ a, dmemWord (issuedJump s c) a = dmemWord (here s c) a := fun a => by simp [dmemWord, issuedJump_m]
  simp only [excReturn, ofNat_dmemRead_four, hsp, hword, issuedJump_excDepth, Nat.add_zero]
  rfl

theorem exec_rfe (c : BCtl) (s : State) : exec (.rfe c) s = .next (issueSlot c .scalar .rfe s) := rfl

/-! ### A brick halted by its one slot (R240, R451) -/

theorem haltedBy_haltBrick {x : BrickSt} (h : x.fl.passes = []) (c : BCtl) (pos : SlotPos) (op : SlotOp) (reason : Byte)
    (pc : BitVec 13) (info : Word) :
    haltedBy [slotOf c pos op] (haltBrick reason (slotNum pos) pc info 0 x) =
      haltedAs x reason (slotNum pos) pc info (namedWin x op) := by
  have hacc : accAt x x.r.cycle = x.arr.acc := by rw [accAt, h, List.foldl_nil]
  have hfind : [slotOf c pos op].find? (fun t => slotNum t.pos == slotNum pos) = some (slotOf c pos op) := by simp [slotOf]
  simp only [haltedBy, haltBrick, hacc, hfind]
  rfl

end Sys2Proof.Machine

namespace Sys2Proof

open Sys2Proof.Machine

section Issue

variable {s : State} {c : BCtl} (h : Ready s c)
include h

theorem Ready.issueSlot_eq (pos : SlotPos) (op : SlotOp) :
    issueSlot c pos op s = presentBundle c.brick.val [slotOf c pos op] (putBrick c.brick.val (here s c) s) := by
  have hb : (here s c).fl.bundle = [] := by rw [h.quiet]
  have hclear : { here s c with fl := { (here s c).fl with bundle := [] } } = here s c := by rw [← hb]
  simp only [here] at hb hclear
  simp only [issueSlot, h.last, hb, modBrick, hclear, here, slotOf]
  rfl

theorem Ready.takeAsync_eq : takeAsync (here s c) = here s c := by
  unfold takeAsync
  rcases h.calm with hie | ⟨ht, hd⟩
  · simp [hie]
  · simp [ht, hd]

theorem Ready.waitsOk_eq (pos : SlotPos) (op : SlotOp) : waitsOk (here s c) (bundleWaits [slotOf c pos op]) = true := by
  have hw := h.waited
  by_cases h0 : c.wait = 0#6
  · simp [bundleWaits, slotOf, h0, waitsOk]
  · have hb : bundleWaits [slotOf c pos op] = [c.wait] := by simp [bundleWaits, slotOf, h0]
    simp [hb, waitsOk, hw]

theorem Ready.encodingHalts_eq (pos : SlotPos) (op : SlotOp) : encodingHalts (slotOf c pos op) = [] := by
  have hw := h.wait
  have hs := h.sig
  simp [encodingHalts, slotOf, Machine.cond, h.plain, hw, hs]

theorem Ready.bundleHalts_encoding (buttress : Bool) (pos : SlotPos) (op : SlotOp) :
    bundleHalts buttress (here s c) [slotOf c pos op] false = [] := by
  rw [bundleHalts, List.flatMap_singleton, h.encodingHalts_eq]
  rfl

/-- The only halts of a ready bundle are those of its operation. -/
theorem Ready.bundleHalts_eq (buttress : Bool) (pos : SlotPos) (op : SlotOp) : bundleHalts buttress (here s c) [slotOf c pos op] true =
    (haltsAlone buttress (here s c) c pos op).map (fun k => (k.1, slotNum pos, k.2)) := by
  rw [bundleHalts, List.flatMap_singleton, h.encodingHalts_eq]
  rfl

theorem Ready.bundleHold_eq (pos : SlotPos) (op : SlotOp) : bundleHold (here s c) [slotOf c pos op] = 0 := by
  have hp : (here s c).fl.passes = [] := by rw [h.quiet]
  have hf : (here s c).fl.fills = [] := by rw [h.quiet]
  have hm : matrixHold (here s c) op = 0 := by
    unfold matrixHold
    split <;> simp [hp, hf]
  simp [bundleHold, slotOf, hm]

/-- A bundle that meets no halt condition and nothing that holds it takes effect. -/
theorem Ready.issueBundle_done (buttress : Bool) {pos : SlotPos} {op : SlotOp} (hr : isReplay [slotOf c pos op] = false)
    (hh : anyHeld (here s c) [slotOf c pos op] = false) (hn : haltsAlone buttress (here s c) c pos op = []) :
    issueBundle buttress (here s c) [slotOf c pos op] = .done (issueNow (here s c) [slotOf c pos op]) := by
  have hlate : bundleHalts buttress (here s c) [slotOf c pos op] true = [] := by
    rw [h.bundleHalts_eq, hn, List.map_nil]
  have hnow : advanceTo 0 (here s c) = here s c := rfl
  simp [issueBundle, h.fetch, h.bundleHalts_encoding, hlate, worst, h.waitsOk_eq, hr, hh, h.bundleHold_eq, hnow]

/-- A bundle whose operation meets a halt condition halts its brick by one of them. -/
theorem Ready.issueBundle_halted (buttress : Bool) {pos : SlotPos} {op : SlotOp} (hr : isReplay [slotOf c pos op] = false)
    (hh : anyHeld (here s c) [slotOf c pos op] = false) (hne : haltsAlone buttress (here s c) c pos op ≠ []) :
    ∃ k ∈ haltsAlone buttress (here s c) c pos op, issueBundle buttress (here s c) [slotOf c pos op] =
      .halted (haltBrick (BitVec.ofNat 8 k.1) (slotNum pos) (here s c).r.pc k.2 0 (here s c)) := by
  have hnow : advanceTo 0 (here s c) = here s c := rfl
  obtain ⟨k', hk', hw⟩ := exists_worst (mt List.map_eq_nil_iff.1 hne)
  obtain ⟨k, hk, rfl⟩ := List.mem_map.1 hk'
  refine ⟨k, hk, ?_⟩
  rw [← h.bundleHalts_eq] at hw
  have hempty : worst [] = none := rfl
  simp [issueBundle, h.fetch, h.bundleHalts_encoding, hempty, hw, h.waitsOk_eq, hr, hh, h.bundleHold_eq, hnow]

theorem Ready.issueSlot_halted {pos : SlotPos} {op : SlotOp} {z : BrickSt}
    (hz : issueBundle (hasButtress s) (here s c) [slotOf c pos op] = .halted z) :
    issueSlot c pos op s = afterHalt c.brick.val (haltedBy [slotOf c pos op] z) s := by
  have hgrade : hasButtress (putBrick c.brick.val (here s c) s) = hasButtress s := rfl
  rw [h.issueSlot_eq]
  simp [presentBundle, h.running, h.takeAsync_eq, hgrade, hz, afterHalt_putBrick_same]

/-- A completed operation other than START leaves its effect, noted. -/
theorem Ready.issueSlot_done {pos : SlotPos} {op : SlotOp} {z : BrickSt}
    (hz : issueBundle (hasButtress s) (here s c) [slotOf c pos op] = .done z) (hrun : z.c.phase ≠ .halted)
    (hstart : ∀ store d rsSrc rsDst, op ≠ .start store d rsSrc rsDst) :
    issueSlot c pos op s = putBrick c.brick.val
      (noteIssue (nowNs s) (z.r.cycle - (here s c).r.cycle) (if op = .nop then [] else [engineOf pos]) z) s := by
  have hgrade : hasButtress (putBrick c.brick.val (here s c) s) = hasButtress s := rfl
  have hengines : ([slotOf c pos op].filter slotBusy).map (fun t => engineOf t.pos) = if op = .nop then [] else [engineOf pos] := by
    by_cases hnop : op = .nop <;> simp [List.filter_cons, slotBusy, slotOf, hnop]
  rw [h.issueSlot_eq, ← hengines]
  simp only [presentBundle, brickAt_putBrick_same, h.running, h.takeAsync_eq, hgrade, hz, ite_self, bne_self_eq_false,
    Bool.and_false, List.foldl_cons, List.foldl_nil]
  change (if (z.c.phase == .halted) = true then _ else _) = _
  rw [if_neg (by simpa using hrun)]
  split
  · exact absurd ‹_› (hstart _ _ _ _)
  · exact putBrick_putBrick_same _ _ _ _

/-- R240 to R242: an operation with a halt condition halts its brick, and nothing else of it takes effect. -/
theorem Ready.haltsTo_issueSlot {pos : SlotPos} {op : SlotOp} (hr : isReplay [slotOf c pos op] = false)
    (hh : anyHeld (here s c) [slotOf c pos op] = false)
    (hne : haltsAlone (hasButtress s) (here s c) c pos op ≠ []) :
    ∃ k ∈ haltsAlone (hasButtress s) (here s c) c pos op, HaltsTo s (issueSlot c pos op s) c.brick.val
      (haltedAs (here s c) (BitVec.ofNat 8 k.1) (slotNum pos) (here s c).r.pc k.2 (namedWin (here s c) op)) := by
  obtain ⟨k, hk, hissue⟩ := h.issueBundle_halted (hasButtress s) hr hh hne
  have hpasses : (here s c).fl.passes = [] := by rw [h.quiet]
  refine ⟨k, hk, ?_⟩
  rw [h.issueSlot_halted hissue, haltedBy_haltBrick hpasses]
  exact haltsTo_afterHalt rfl s

theorem Ready.issueNow_jump {op : SlotOp} (hj : jumps (here s c) op = true) :
    issueNow (here s c) [slotOf c .scalar op] = raiseSig c.sig (ticked 2 (scalarEffect (here s c) c.sig op (movedOn s c))) := by
  obtain ⟨hfl, hcycle, -⟩ := scalarEffect_frame_of_jumps hj c.sig (movedOn s c)
  rw [movedOn_fl] at hfl
  rw [movedOn_cycle] at hcycle
  rw [Machine.issueNow_jump hj, ← hcycle]
  exact advance_two_signalAt (by rw [hfl]; exact h.quiet) (by rw [hfl]; exact h.live) c.sig

/-- A jump that meets no halt condition leaves its effect, its signal and two cycles. -/
theorem Ready.issueSlot_jump {op : SlotOp} (hj : jumps (here s c) op = true)
    (hn : haltsAlone (hasButtress s) (here s c) c .scalar op = []) :
    issueSlot c .scalar op s = putBrick c.brick.val
      (noteIssue (nowNs s) 2 [1] (raiseSig c.sig (ticked 2 (scalarEffect (here s c) c.sig op (movedOn s c))))) s := by
  obtain ⟨-, hcycle, hctl⟩ := scalarEffect_frame_of_jumps hj c.sig (movedOn s c)
  have hfree : isReplay [slotOf c .scalar op] = false ∧ anyHeld (here s c) [slotOf c .scalar op] = false ∧ op ≠ .nop
      ∧ ∀ store d rsSrc rsDst, op ≠ .start store d rsSrc rsDst := by
    rcases jumps_cases hj with ⟨o, u, v, off, rfl, -⟩ | ⟨rd, target, rfl⟩ | ⟨u, rfl⟩ | rfl <;> simp [isReplay, anyHeld, slotOf]
  obtain ⟨hreplay, hheld, hnop, hstart⟩ := hfree
  have hdone := h.issueBundle_done (hasButtress s) hreplay hheld hn
  rw [h.issueNow_jump hj] at hdone
  rw [h.issueSlot_done hdone _ hstart, if_neg hnop, raiseSig_cycle]
  · have htwo : (ticked 2 (scalarEffect (here s c) c.sig op (movedOn s c))).r.cycle - (here s c).r.cycle = 2 := by
      rw [← movedOn_cycle s c, ← hcycle]
      exact Nat.add_sub_cancel_left _ _
    rw [htwo]
    rfl
  · rw [raiseSig_phase]
    change (scalarEffect (here s c) c.sig op (movedOn s c)).c.phase ≠ .halted
    rw [hctl, movedOn_c, h.running]
    decide

/-- R238: a permitted RFE restores the brick from the frame, as a jump of two cycles. -/
theorem Ready.issueSlot_rfe (hn : rfeHalts (here s c) = []) :
    issueSlot c .scalar .rfe s = putBrick c.brick.val { excReturn (issuedJump s c) with
      c := { (issuedJump s c).c with stallHandler := (here s c).c.stallHandler && (here s c).r.excDepth - 1 != 0 } } s := by
  have hnoted : noteIssue (nowNs s) 2 [1] (raiseSig c.sig (ticked 2 (excReturn (movedOn s c)))) = { excReturn (issuedJump s c) with
      c := { (issuedJump s c).c with stallHandler := (here s c).c.stallHandler && (here s c).r.excDepth - 1 != 0 } } := by
    rw [excReturn_eq_setFrame, ticked_setFrame, raiseSig_setFrame, noteIssue_setFrame, ← issuedJump_eq, raiseSig_shape,
      excReturn_issuedJump_eq_setFrame, movedOn_shape]
    rfl
  rw [h.issueSlot_jump rfl ((haltsAlone_rfe _ _ _).trans hn), ← hnoted]
  rfl

end Issue

/-! ### The exception return -/

/-- Settles O9: a permitted RFE is a jump whose effect is the frame restored; a refused one halts by one of its three conditions. -/
theorem exceptionReturn : Obligations.ExceptionReturn := by
  unfold Obligations.ExceptionReturn
  intro s c h x sp
  constructor
  · intro hdepth haligned hlow hhigh y
    have hn : rfeHalts x = [] := by
      rw [rfeHalts_eq_nil_iff]
      rintro (hd | ha | hl | hh)
      exacts [hdepth hd, ha haligned, hl.not_ge hlow, hh.not_ge hhigh]
    have hframe : excReturn (issuedJump s c) = { y with
        r := { y.r with pc := (dmemWord x sp).setWidth 13, ie := (dmemWord x (sp + 8)).getLsbD 0, excDepth := x.r.excDepth - 1 } } :=
      excReturn_issuedJump s c
    have hctl : y.c = (issuedJump s c).c := by simp only [y, setS_c]
    rw [exec_rfe, h.issueSlot_rfe hn, hframe, hctl]
    rfl
  · intro hbad
    have hne : rfeHalts x ≠ [] := fun hn => (rfeHalts_eq_nil_iff _).1 hn hbad
    rw [← haltsAlone_rfe (hasButtress s) x c] at hne
    obtain ⟨k, hk, hhalt⟩ := h.haltsTo_issueSlot (pos := .scalar) (op := .rfe) rfl rfl hne
    rw [haltsAlone_rfe, mem_rfeHalts] at hk
    refine ⟨_, _, _, exec_rfe c s, hhalt, ?_⟩
    obtain ⟨hc, rfl⟩ | ⟨hc, rfl⟩ | ⟨hc, rfl⟩ := hk
    · exact .inl ⟨rfl, hc⟩
    · exact .inr (.inl ⟨rfl, hc⟩)
    · exact .inr (.inr ⟨rfl, hc⟩)

end Sys2Proof
end

section
/-!
PROOF. Branches and jumps: a bundle of one cycle whose signal is still owed (a branch not taken), and the jumps that write
registers and the pc alone (R208, R218, R257).
-/

namespace Sys2Proof.Machine

open Sys2Proof

/-! ### One cycle passes with one signal owed (R218) -/

/-- One cycle on a brick in which nothing lands, with a signal of issue + 1 owed. -/
def tickedOwing (id : BitVec 6) (b : BrickSt) : BrickSt :=
  { ticked 1 b with fl := { b.fl with sigs := if id = 0 then [] else [(b.r.cycle + 1, id)] } }

/-- A signal raised at issue + 1 is not visible when the next bundle comes up: it is still owed. -/
theorem advance_one_signalAt {b : BrickSt} (quiet : b.fl = { streams := b.fl.streams })
    (live : ∀ p ∈ b.fl.streams, p.2.consumed = false) (id : BitVec 6) :
    advance 1 (signalAt (b.r.cycle + 1) id b) = tickedOwing id b := by
  obtain ⟨st, hst⟩ : ∃ st, b.fl = { streams := st } := ⟨_, quiet⟩
  have hb : b = { b with fl := { streams := st } } := by rw [← hst]
  rw [hst] at live
  rw [hb]
  by_cases hid : id = 0
  · rw [signalAt, if_pos hid, advance_streams 1 (by decide) b st [] live, tickedOwing, if_pos hid]
    rfl
  · rw [signalAt, if_neg hid, if_neg (by simp), tickedOwing, if_neg hid]
    refine (advance_streams 1 (by decide) b st [(b.r.cycle + 1, id)] live).trans ?_
    simp [applySigs, ticked]

/-! ### Branches -/

theorem branchTaken_bne (u v : Word) : branchTaken 0x31 u v = decide (u ≠ v) := decide_not.symm

theorem branchTaken_bge (u v : Word) : branchTaken 0x33 u v = decide (v.toInt ≤ u.toInt) := by
  simp [branchTaken, BitVec.slt_eq_decide, ← decide_not]

theorem branchTaken_bgeu (u v : Word) : branchTaken 0x35 u v = decide (v.toNat ≤ u.toNat) := by
  simp [branchTaken, BitVec.ult_eq_decide, ← decide_not]

theorem scalarEffect_branch_untaken {x : BrickSt} {o : Nat} {a b : SReg} (hnot : branchTaken o (getS x a) (getS x b) = false)
    (off : BitVec 12) (sig : BitVec 6) (y : BrickSt) : scalarEffect x sig (.branch o a b off) y = y :=
  if_neg (hnot ▸ Bool.false_ne_true)

/-- A bundle of one slot consumes that slot's wait. -/
theorem foldl_consumeWait_slotOf (x : BrickSt) (c : BCtl) (pos : SlotPos) (op : SlotOp) :
    (bundleWaits [slotOf c pos op]).foldl consumeWait x = consumeWait x c.wait := by
  by_cases hw : c.wait = 0#6
  · simp [bundleWaits, slotOf, hw, consumeWait]
  · simp [bundleWaits, slotOf, hw]

/-- The bundle of a branch not taken: its signal at issue + 1, and one cycle. -/
theorem issueNow_branch_untaken {x : BrickSt} {c : BCtl} {o : Nat} {a b : SReg} {off : BitVec 12}
    (hnot : branchTaken o (getS x a) (getS x b) = false) :
    issueNow x [slotOf c .scalar (.branch o a b off)] =
      advance 1 (signalAt (x.r.cycle + 1) c.sig (setPc (x.r.pc + 1) (consumeWait x c.wait))) := by
  have hone : [slotOf c .scalar (.branch o a b off)].any (fun t => jumps x t.op) = false :=
    (Bool.or_false _).trans hnot
  calc issueNow x [slotOf c .scalar (.branch o a b off)]
    _ = advance (if [slotOf c .scalar (.branch o a b off)].any (fun t => jumps x t.op) then 2 else 1)
          (signalAt (x.r.cycle + 1) c.sig (scalarEffect x c.sig (.branch o a b off)
            (setPc (x.r.pc + 1) ((bundleWaits [slotOf c .scalar (.branch o a b off)]).foldl consumeWait x)))) := rfl
    _ = advance 1 (signalAt (x.r.cycle + 1) c.sig (setPc (x.r.pc + 1) (consumeWait x c.wait))) := by
      rw [hone, scalarEffect_branch_untaken hnot, foldl_consumeWait_slotOf]
      rfl

theorem issuedLate_eq (s : State) (c : BCtl) (engine : Nat) :
    issuedLate s c engine = noteIssue (nowNs s) 1 [engine] (tickedOwing c.sig (movedOn s c)) := by
  rw [issuedLate, afterBundle_eq, tickedOwing, movedOn_cycle]
  rfl

/-! ### Jumps that write registers and the pc alone -/

/-- A jump that leaves ie and the depth writes the same registers before its bundle has been noted and after. -/
theorem noteIssue_setFrame_movedOn (s : State) (c : BCtl) (regs : Vector Word 32) (pc : BitVec 13) :
    noteIssue (nowNs s) 2 [1] (raiseSig c.sig (ticked 2 (setFrame regs pc (movedOn s c).r.ie (movedOn s c).r.excDepth (movedOn s c)))) =
      setFrame regs pc (issuedJump s c).r.ie (issuedJump s c).r.excDepth (issuedJump s c) := by
  rw [ticked_setFrame, raiseSig_setFrame, noteIssue_setFrame, issuedJump_eq, raiseSig_shape]
  rfl

theorem setPc_eq_setFrame (pc : BitVec 13) (b : BrickSt) : setPc pc b = setFrame b.r.s pc b.r.ie b.r.excDepth b := rfl

theorem setPc_setS_eq_setFrame (pc : BitVec 13) (i : SReg) (v : Word) (b : BrickSt) :
    setPc pc (setS i v b) = setFrame (setS i v b).r.s pc b.r.ie b.r.excDepth b := by
  unfold setS
  split <;> rfl

theorem setS_regs_congr {b b' : BrickSt} (h : b.r.s = b'.r.s) (i : SReg) (v : Word) : (setS i v b).r.s = (setS i v b').r.s := by
  unfold setS
  split
  · exact h
  · exact congrArg (fun regs : Vector Word 32 => regs.set i.val v i.isLt) h

/-- The registers a jump finds after its wait are those it finds after its bundle. -/
theorem movedOn_regs_eq_issuedJump (s : State) (c : BCtl) : (movedOn s c).r.s = (issuedJump s c).r.s := by
  rw [issuedJump_regs, movedOn_shape]

end Sys2Proof.Machine

namespace Sys2Proof

open Sys2Proof.Machine

section Jumps

variable {s : State} {c : BCtl} (h : Ready s c)
include h

theorem Ready.issueNow_branch_untaken {o : Nat} {a b : SReg} {off : BitVec 12}
    (hnot : branchTaken o (getS (here s c) a) (getS (here s c) b) = false) :
    issueNow (here s c) [slotOf c .scalar (.branch o a b off)] = tickedOwing c.sig (movedOn s c) := by
  rw [Machine.issueNow_branch_untaken hnot, ← movedOn_cycle s c]
  exact advance_one_signalAt (by rw [movedOn_fl]; exact h.quiet) (by rw [movedOn_fl]; exact h.live) c.sig

/-- R257: a branch that is not taken lets one cycle pass, goes on to the next bundle and changes nothing else. -/
theorem Ready.issueSlot_branch_untaken {o : Nat} {a b : SReg} {off : BitVec 12}
    (hnot : branchTaken o (getS (here s c) a) (getS (here s c) b) = false) :
    issueSlot c .scalar (.branch o a b off) s = putBrick c.brick.val (issuedLate s c 1) s := by
  have hdone := h.issueBundle_done (hasButtress s) (pos := .scalar) (op := .branch o a b off) rfl rfl rfl
  rw [h.issueNow_branch_untaken hnot] at hdone
  have hrun : (movedOn s c).c.phase ≠ .halted := by
    rw [movedOn_c, h.running]
    decide
  have hcycles : (tickedOwing c.sig (movedOn s c)).r.cycle - (here s c).r.cycle = 1 := by
    rw [← movedOn_cycle s c]
    exact Nat.add_sub_cancel_left _ _
  have hnop : SlotOp.branch o a b off ≠ .nop := by simp
  rw [h.issueSlot_done hdone hrun (by simp), if_neg hnop, hcycles, issuedLate_eq]
  rfl

/-- R257: a jump whose effect is registers and a target writes those alone, two cycles on. -/
theorem Ready.issueSlot_jump_setFrame {op : SlotOp} {regs : Vector Word 32} {pc : BitVec 13} (hj : jumps (here s c) op = true)
    (hn : haltsAlone (hasButtress s) (here s c) c .scalar op = [])
    (heff : scalarEffect (here s c) c.sig op (movedOn s c) =
      setFrame regs pc (movedOn s c).r.ie (movedOn s c).r.excDepth (movedOn s c)) :
    issueSlot c .scalar op s =
      putBrick c.brick.val (setFrame regs pc (issuedJump s c).r.ie (issuedJump s c).r.excDepth (issuedJump s c)) s := by
  rw [h.issueSlot_jump hj hn, heff, noteIssue_setFrame_movedOn]

theorem Ready.issueSlot_branch_taken {o : Nat} {a b : SReg} (ht : branchTaken o (getS (here s c) a) (getS (here s c) b) = true)
    (off : BitVec 12) : issueSlot c .scalar (.branch o a b off) s =
      putBrick c.brick.val (setPc ((here s c).r.pc + off.signExtend 13) (issuedJump s c)) s := by
  have heff : scalarEffect (here s c) c.sig (.branch o a b off) (movedOn s c) =
      setPc ((here s c).r.pc + off.signExtend 13) (movedOn s c) := if_pos ht
  rw [setPc_eq_setFrame, movedOn_regs_eq_issuedJump] at heff
  rw [h.issueSlot_jump_setFrame (op := .branch o a b off) ht rfl heff, setPc_eq_setFrame]

/-- R257: a branch goes to its target if its comparison holds, and to the next bundle otherwise. -/
theorem Ready.issueSlot_branch {o : Nat} {a b : SReg} {taken : Bool}
    (hcmp : branchTaken o (getS (here s c) a) (getS (here s c) b) = taken) (off : BitVec 12) :
    .next (issueSlot c .scalar (.branch o a b off) s) = leaves s c
      (if taken then setPc ((here s c).r.pc + off.signExtend 13) (issuedJump s c) else issuedLate s c 1) := by
  cases taken with
  | false => exact congrArg _ (h.issueSlot_branch_untaken hcmp)
  | true => exact congrArg _ (h.issueSlot_branch_taken hcmp off)

theorem Ready.issueSlot_jal (rd : SReg) (target : BitVec 13) : issueSlot c .scalar (.jal rd target) s =
    putBrick c.brick.val (setPc target (setS rd (BitVec.ofNat 32 ((here s c).r.pc.toNat + 1)) (issuedJump s c))) s := by
  have heff : scalarEffect (here s c) c.sig (.jal rd target) (movedOn s c) =
      setPc target (setS rd (BitVec.ofNat 32 ((here s c).r.pc.toNat + 1)) (movedOn s c)) := rfl
  rw [setPc_setS_eq_setFrame, setS_regs_congr (movedOn_regs_eq_issuedJump s c)] at heff
  rw [h.issueSlot_jump_setFrame rfl rfl heff, setPc_setS_eq_setFrame]

theorem Ready.issueSlot_jr (a : SReg) : issueSlot c .scalar (.jr a) s =
    putBrick c.brick.val (setPc ((getS (here s c) a).setWidth 13) (issuedJump s c)) s := by
  have heff : scalarEffect (here s c) c.sig (.jr a) (movedOn s c) = setPc ((getS (here s c) a).setWidth 13) (movedOn s c) := rfl
  rw [setPc_eq_setFrame, movedOn_regs_eq_issuedJump] at heff
  rw [h.issueSlot_jump_setFrame rfl rfl heff, setPc_eq_setFrame]

end Jumps

/-- Settles O6: each comparison decides between the target, two cycles on, and the next bundle; JAL and JR always jump. -/
theorem branchesAndJumps : Obligations.BranchesAndJumps := by
  unfold Obligations.BranchesAndJumps
  intro s c a b off h x u v branch
  refine ⟨h.issueSlot_branch (o := 0x30) rfl off, h.issueSlot_branch (branchTaken_bne u v) off,
    h.issueSlot_branch (o := 0x32) rfl off, h.issueSlot_branch (branchTaken_bge u v) off,
    h.issueSlot_branch (o := 0x34) rfl off, h.issueSlot_branch (branchTaken_bgeu u v) off, ?_, ?_⟩
  · exact fun target => congrArg _ (h.issueSlot_jal a target)
  · rw [BitVec.ofNat_toNat]
    exact congrArg _ (h.issueSlot_jr a)

end Sys2Proof
end

section
/-!
PROOF. Host rings and vectors: what a vector's message changes, what a ring's records write, and from these the doorbell, the
enable, the spill, the moderation delay, the gap and the unmasking (R426, R430 to R432, R434, R435, R441).
-/

namespace Sys2Proof.Machine

open Sys2Proof

/-! ### A ring or a vector read after a change of the partition -/

theorem ringAt_putRing (r k : Nat) (y : RingSt) (x : PartSt) : ringAt (putRing r y x) k = if k = r then y else ringAt x k := by
  simp only [ringAt, putRing, mapGet_mapSet]

@[simp] theorem ringAt_putRing_same (r : Nat) (y : RingSt) (x : PartSt) : ringAt (putRing r y x) r = y := by
  simp [ringAt_putRing]

theorem ringAt_putRing_other {r k : Nat} (h : k ≠ r) (y : RingSt) (x : PartSt) : ringAt (putRing r y x) k = ringAt x k := by
  simp [ringAt_putRing, h]

@[simp] theorem putRing_cnt (r : Nat) (y : RingSt) (x : PartSt) : (putRing r y x).cnt = x.cnt := rfl

theorem vecAt_modVec (v k : Nat) (g : VecSt → VecSt) (x : PartSt) :
    vecAt (modVec v g x) k = if k = v then g (vecAt x v) else vecAt x k := by
  simp only [vecAt, modVec, mapMod, mapGet_mapSet]

@[simp] theorem vecAt_modVec_same (v : Nat) (g : VecSt → VecSt) (x : PartSt) : vecAt (modVec v g x) v = g (vecAt x v) := by
  simp [vecAt_modVec]

@[simp] theorem ringAt_modVec (v k : Nat) (g : VecSt → VecSt) (x : PartSt) : ringAt (modVec v g x) k = ringAt x k := rfl

theorem fenced_eq_false_iff (s : State) (p : Nat) : fenced s p = false ↔ (partAt s p).resetStep = 0 := by
  simp [fenced]

/-! ### A vector's message (R434, R435) -/

/-- A vector whose message has gone out: nothing is pending or held. -/
def sentVec (now : Nat) (y : VecSt) : VecSt := { y with pend := false, held := false, lastNs := some now }

/-- A partition whose vector has sent: the ring that it signals starts to count anew. -/
def sentPart (now v : Nat) (x : PartSt) : PartSt :=
  let x := modVec v (sentVec now) x
  match vecRing v with
  | some r => modRing r (fun y => { y with since := 0 }) x
  | none => x

theorem sendVec_eq (p v : Nat) (s : State) : sendVec p v s =
    { putPart p (sentPart (nowNs s) v (partAt s p)) s with out := { s.out with messages := s.out.messages ++ [(p, v)] } } := rfl

theorem vecAt_sentPart (now v k : Nat) (x : PartSt) :
    vecAt (sentPart now v x) k = if k = v then sentVec now (vecAt x v) else vecAt x k := by
  unfold sentPart
  cases vecRing v <;> exact vecAt_modVec v k (sentVec now) x

theorem ringAt_sentPart (now v k : Nat) (x : PartSt) : ringAt (sentPart now v x) k =
    if vecRing v = some k then { ringAt x k with since := 0 } else ringAt x k := by
  unfold sentPart
  cases vecRing v with
  | none => rfl
  | some r =>
    simp only [modRing, ringAt_putRing, ringAt_modVec, Option.some.injEq]
    by_cases h : k = r
    · simp [h]
    · simp [h, Ne.symm h]

theorem sentPart_frame (now v : Nat) (x : PartSt) :
    sentPart now v x = { x with vecs := (sentPart now v x).vecs, rings := (sentPart now v x).rings } := by
  unfold sentPart
  cases vecRing v <;> rfl

@[simp] theorem partAt_sendVec_same (p v : Nat) (s : State) : partAt (sendVec p v s) p = sentPart (nowNs s) v (partAt s p) :=
  partAt_putPart_same p _ s

theorem partAt_sendVec_other {p q : Nat} (h : q ≠ p) (v : Nat) (s : State) : partAt (sendVec p v s) q = partAt s q :=
  partAt_putPart_other h _ s

/-- A vector of one partition changed, and nothing sent. -/
theorem asked_of_modVec {s : State} {p v : Nat} {g : VecSt → VecSt} (hfence : fenced s p = false)
    (hmask : (vecAt (partAt s p) v).mask = true → g (vecAt (partAt s p) v) = { vecAt (partAt s p) v with pend := true })
    (hheld : (vecAt (partAt s p) v).mask = false →
      g (vecAt (partAt s p) v) = { vecAt (partAt s p) v with held := true } ∧
        ¬(fnActive (partAt s p) = true ∧ gapOver s (partAt s p) v = true)) :
    Asked s (modPart p (modVec v g) s) p v where
  inReset h := by simp [h] at hfence
  masked _ hm := by simp [hmask hm]
  held _ hm _ := by simp [(hheld hm).1]
  sent _ hm ha hg := absurd ⟨ha, hg⟩ (hheld hm).2
  vectors k hk := by simp [vecAt_modVec, hk]
  rings r _ := by simp
  part := by rw [partAt_modPart_same]; rfl
  others q hq := by simp [partAt_modPart, hq]
  rest := rfl

theorem asked_sendVec {s : State} {p v : Nat} (hfence : fenced s p = false) (hmask : (vecAt (partAt s p) v).mask = false)
    (hactive : fnActive (partAt s p) = true) (hgap : gapOver s (partAt s p) v = true) : Asked s (sendVec p v s) p v where
  inReset h := by simp [h] at hfence
  masked _ hm := by simp [hm] at hmask
  held _ _ h := by simp [hactive, hgap] at h
  sent _ _ _ _ := ⟨rfl, by simp [vecAt_sentPart, sentVec], fun r hr => by simp [ringAt_sentPart, hr]⟩
  vectors k hk := by simp [vecAt_sentPart, hk]
  rings r hr := by simp [ringAt_sentPart, hr]
  part := by rw [partAt_sendVec_same, ← sentPart_frame]
  others q hq := partAt_sendVec_other hq v s
  rest := rfl

theorem asked_self_of_fenced {s : State} {p : Nat} (v : Nat) (h : fenced s p = true) : Asked s s p v where
  inReset _ := rfl
  masked h' := by simp [h] at h'
  held h' := by simp [h] at h'
  sent h' := by simp [h] at h'
  vectors _ _ := rfl
  rings _ _ := rfl
  part := rfl
  others _ _ := rfl
  rest := rfl

theorem askVec_of_fenced {s : State} {p : Nat} (v : Nat) (h : fenced s p = true) : askVec p v s = s := if_pos h

theorem askVec_of_masked {s : State} {p v : Nat} (h : fenced s p = false) (hmask : (vecAt (partAt s p) v).mask = true) :
    askVec p v s = modPart p (modVec v (fun y => { y with pend := true })) s := by
  have hstep := (fenced_eq_false_iff s p).1 h
  simp [askVec, hstep, hmask, modPart]

theorem askVec_of_held {s : State} {p v : Nat} (h : fenced s p = false) (hmask : (vecAt (partAt s p) v).mask = false)
    (hsend : ¬(fnActive (partAt s p) = true ∧ gapOver s (partAt s p) v = true)) :
    askVec p v s = modPart p (modVec v (fun y => { y with held := true })) s := by
  have hstep := (fenced_eq_false_iff s p).1 h
  have hor : (!fnActive (partAt s p) || !gapOver s (partAt s p) v) = true := by simpa [imp_iff_not_or] using hsend
  simp only [askVec, hstep, hmask, hor, modPart]
  rfl

theorem askVec_of_open {s : State} {p v : Nat} (h : fenced s p = false) (hmask : (vecAt (partAt s p) v).mask = false)
    (hactive : fnActive (partAt s p) = true) (hgap : gapOver s (partAt s p) v = true) : askVec p v s = sendVec p v s := by
  have hstep := (fenced_eq_false_iff s p).1 h
  simp [askVec, hstep, hmask, hactive, hgap]

/-- A vector that asks does nothing, changes itself, or sends. -/
theorem askVec_cases (p v : Nat) (s : State) : askVec p v s = s ∨ (∃ g, askVec p v s = modPart p (modVec v g) s)
    ∨ askVec p v s = sendVec p v s := by
  unfold askVec
  dsimp only
  split
  · exact .inl rfl
  split
  · exact .inr (.inl ⟨_, rfl⟩)
  split
  · exact .inr (.inl ⟨_, rfl⟩)
  · exact .inr (.inr rfl)

theorem asked_askVec (p v : Nat) (s : State) : Asked s (askVec p v s) p v := by
  cases hfence : fenced s p with
  | true => rw [askVec_of_fenced v hfence]; exact asked_self_of_fenced v hfence
  | false =>
    cases hmask : (vecAt (partAt s p) v).mask with
    | true =>
      rw [askVec_of_masked hfence hmask]
      exact asked_of_modVec hfence (fun _ => rfl) (fun h => by simp [hmask] at h)
    | false =>
      by_cases hsend : fnActive (partAt s p) = true ∧ gapOver s (partAt s p) v = true
      · rw [askVec_of_open hfence hmask hsend.1 hsend.2]
        exact asked_sendVec hfence hmask hsend.1 hsend.2
      · rw [askVec_of_held hfence hmask hsend]
        exact asked_of_modVec hfence (fun h => by simp [hmask] at h) (fun _ => ⟨rfl, hsend⟩)

/-! ### The work of one ring (R430) -/

/-- `t` is `s` after work on ring `r` of partition `p`: the other rings, the partition but for its rings, its vectors and ring_new, the
other partitions and the device are as before. -/
structure RingWork (p r : Nat) (s t : State) : Prop where
  rings : ∀ k, k ≠ r → ringAt (partAt t p) k = ringAt (partAt s p) k
  part : partAt t p =
    { partAt s p with rings := (partAt t p).rings, vecs := (partAt t p).vecs, ringNew := (partAt t p).ringNew }
  others : ∀ q, q ≠ p → partAt t q = partAt s q
  rest : t = { s with parts := t.parts, out := t.out }

/-- Work on a ring that writes `n` of its records: `n` entries and `n` times prod go to the host, and the driver's registers of the ring are
as before. -/
structure RingFed (p r n : Nat) (s t : State) : Prop extends RingWork p r s t where
  writes : t.out.writes.length = s.out.writes.length + 2 * n
  prod : (ringAt (partAt t p) r).prod = (ringAt (partAt s p) r).prod + BitVec.ofNat 32 n
  regs : ringAt (partAt t p) r = { ringAt (partAt s p) r with
    prod := (ringAt (partAt t p) r).prod, waiting := (ringAt (partAt t p) r).waiting,
    since := (ringAt (partAt t p) r).since, oldestNs := (ringAt (partAt t p) r).oldestNs }

theorem RingWork.trans {p r : Nat} {s t u : State} (h : RingWork p r s t) (h' : RingWork p r t u) : RingWork p r s u where
  rings k hk := (h'.rings k hk).trans (h.rings k hk)
  part := by
    have e := h'.part
    rw [h.part] at e
    exact e
  others q hq := (h'.others q hq).trans (h.others q hq)
  rest := by
    have e := h'.rest
    rw [h.rest] at e
    exact e

theorem RingFed.trans {p r n m : Nat} {s t u : State} (h : RingFed p r n s t) (h' : RingFed p r m t u) :
    RingFed p r (n + m) s u where
  toRingWork := h.toRingWork.trans h'.toRingWork
  writes := by
    have := h.writes
    have := h'.writes
    omega
  prod := by rw [h'.prod, h.prod, BitVec.ofNat_add, BitVec.add_assoc]
  regs := by
    have e := h'.regs
    rw [h.regs] at e
    exact e

theorem RingFed.refl (p r : Nat) (s : State) : RingFed p r 0 s s where
  rings _ _ := rfl
  part := rfl
  others _ _ := rfl
  rest := rfl
  writes := rfl
  prod := by simp
  regs := rfl

/-- The state with a ring put back. -/
def withRing (p r : Nat) (y : RingSt) (s : State) : State := putPart p (putRing r y (partAt s p)) s

theorem modPart_modRing (p r : Nat) (f : RingSt → RingSt) (s : State) :
    modPart p (modRing r f) s = withRing p r (f (ringAt (partAt s p) r)) s := rfl

@[simp] theorem partAt_withRing_same (p r : Nat) (y : RingSt) (s : State) :
    partAt (withRing p r y s) p = putRing r y (partAt s p) := partAt_putPart_same p _ s

@[simp] theorem withRing_out (p r : Nat) (y : RingSt) (s : State) : (withRing p r y s).out = s.out := rfl

@[simp] theorem fenced_withRing (p r : Nat) (y : RingSt) (s : State) : fenced (withRing p r y s) p = fenced s p := by
  simp [fenced, putRing]

theorem ringWork_withRing (p r : Nat) (y : RingSt) (s : State) : RingWork p r s (withRing p r y s) where
  rings k hk := by rw [partAt_withRing_same, ringAt_putRing_other hk]
  part := by rw [partAt_withRing_same]; rfl
  others q hq := partAt_putPart_other hq _ s
  rest := rfl

theorem ringFed_withRing_waiting (p r : Nat) (rest : List (List Byte × Nat)) (s : State) :
    RingFed p r 0 s (withRing p r { ringAt (partAt s p) r with waiting := rest } s) where
  toRingWork := ringWork_withRing p r _ s
  writes := rfl
  prod := by simp
  regs := by simp

/-! ### A vector that asks for its own ring -/

theorem vecRing_ringVec {r : Nat} (h : r < 6) : vecRing (ringVec r) = some r := by
  unfold vecRing ringVec
  split <;> split <;> simp <;> omega

/-- However a ring's vector answers, no entry is written, and of the ring only the count since its last message can change. -/
theorem askVec_ringVec_eq {p r : Nat} (hr : r < 6) (s : State) :
    (askVec p (ringVec r) s).out.writes = s.out.writes ∧
    ringAt (partAt (askVec p (ringVec r) s) p) r =
      { ringAt (partAt s p) r with since := (ringAt (partAt (askVec p (ringVec r) s) p) r).since } := by
  rcases askVec_cases p (ringVec r) s with h | ⟨g, h⟩ | h
  · rw [h]; exact ⟨rfl, rfl⟩
  · rw [h]; exact ⟨rfl, by simp⟩
  · rw [h]; exact ⟨rfl, by simp [ringAt_sentPart, vecRing_ringVec hr]⟩

theorem ringFed_askVec {p r : Nat} (hr : r < 6) (s : State) : RingFed p r 0 s (askVec p (ringVec r) s) := by
  have hask := asked_askVec p (ringVec r) s
  obtain ⟨hwrites, hring⟩ := askVec_ringVec_eq (p := p) hr s
  exact {
    rings := fun k hk => hask.rings k (by rw [vecRing_ringVec hr]; simpa using hk.symm)
    part := by rw [hask.part]
    others := hask.others
    rest := hask.rest
    writes := by rw [hwrites]; rfl
    prod := by rw [hring]; simp
    regs := by rw [hring] }

/-! ### One record written (R430, R435) -/

/-- A ring with one more entry written. -/
def ringWithEntry (now : Nat) (y : RingSt) : RingSt :=
  { y with prod := y.prod + 1, since := y.since + 1, oldestNs := if y.since = 0 then now else y.oldestNs }

/-- What the host sees of a record: the entry, then prod. -/
def entryWrites (r : Nat) (y : RingSt) (rec : List Byte) : List (Nat × List Byte) :=
  [(y.base.toNat + y.prod.toNat % 2 ^ y.size * entryBytes r, rec), (y.wb.toNat, leBytes 8 (y.prod + 1).toNat)]

/-- The state after a record and prod are written, before the ring asks. -/
def ringWritten (p r : Nat) (rec : List Byte) (s : State) : State :=
  let x := partAt s p
  let y := ringAt x r
  { putPart p (putRing r (ringWithEntry (nowNs s) y) { x with ringNew := x.ringNew ||| (1#8 <<< r) }) s with
    out := { s.out with writes := s.out.writes ++ entryWrites r y rec } }

theorem ringPut_eq (p r : Nat) (rec : List Byte) (s : State) : ringPut p r rec s =
    if (ringAt (partAt s p) r).count ≤ (ringAt (partAt s p) r).since + 1 then askVec p (ringVec r) (ringWritten p r rec s)
    else ringWritten p r rec s := rfl

theorem ringAt_ringWritten_same (p r : Nat) (rec : List Byte) (s : State) :
    ringAt (partAt (ringWritten p r rec s) p) r = ringWithEntry (nowNs s) (ringAt (partAt s p) r) := by
  have e : partAt (ringWritten p r rec s) p = _ := partAt_putPart_same p _ s
  rw [e, ringAt_putRing_same]

theorem ringFed_ringWritten (p r : Nat) (rec : List Byte) (s : State) : RingFed p r 1 s (ringWritten p r rec s) where
  rings k hk := by
    have e : partAt (ringWritten p r rec s) p = _ := partAt_putPart_same p _ s
    rw [e, ringAt_putRing_other hk]
    rfl
  part := by
    have e : partAt (ringWritten p r rec s) p = _ := partAt_putPart_same p _ s
    rw [e]
    rfl
  others q hq := partAt_putPart_other hq _ s
  rest := rfl
  writes := List.length_append
  prod := by rw [ringAt_ringWritten_same]; rfl
  regs := by rw [ringAt_ringWritten_same]; rfl

theorem ringFed_ringPut {p r : Nat} (hr : r < 6) (rec : List Byte) (s : State) : RingFed p r 1 s (ringPut p r rec s) := by
  rw [ringPut_eq]
  split
  · exact (ringFed_ringWritten p r rec s).trans (ringFed_askVec hr _)
  · exact ringFed_ringWritten p r rec s

/-- What one record writes, and that it leaves what waits. -/
theorem ringPut_writes {p r : Nat} (hr : r < 6) (rec : List Byte) (s : State) :
    (ringPut p r rec s).out.writes = s.out.writes ++ entryWrites r (ringAt (partAt s p) r) rec ∧
    (ringAt (partAt (ringPut p r rec s) p) r).waiting = (ringAt (partAt s p) r).waiting := by
  obtain ⟨hwrites, hring⟩ := askVec_ringVec_eq (p := p) hr (ringWritten p r rec s)
  rw [ringPut_eq]
  split
  · rw [hwrites, hring, ringAt_ringWritten_same]
    exact ⟨rfl, rfl⟩
  · rw [ringAt_ringWritten_same]
    exact ⟨rfl, rfl⟩

/-! ### The records that wait (R431) -/

theorem ringDrain_of_idle {p r : Nat} {s : State} (n : Nat)
    (h : (ringAt (partAt s p) r).waiting = [] ∨ ringFull (ringAt (partAt s p) r) = true) : ringDrain p r n s = s := by
  cases n with
  | zero => rfl
  | succ n =>
    unfold ringDrain
    dsimp only
    split
    · rfl
    · next hgo =>
      have hempty : (ringAt (partAt s p) r).waiting = [] := h.resolve_right fun hfull => hgo (by simp [hfull])
      simp [hempty]

theorem ringDrain_cons {p r : Nat} {s : State} {w : List Byte × Nat} {rest : List (List Byte × Nat)} (n : Nat)
    (hfence : fenced s p = false) (hfull : ringFull (ringAt (partAt s p) r) = false)
    (hwait : (ringAt (partAt s p) r).waiting = w :: rest) : ringDrain p r (n + 1) s =
      ringDrain p r n (ringPut p r w.1 (withRing p r { ringAt (partAt s p) r with waiting := rest } s)) := by
  have hstep := (fenced_eq_false_iff s p).1 hfence
  rw [ringDrain]
  simp [hstep, hfull, hwait, modPart_modRing]

theorem ringFed_ringDrain {p r : Nat} (hr : r < 6) (n : Nat) (s : State) : ∃ m, RingFed p r m s (ringDrain p r n s) := by
  induction n generalizing s with
  | zero => exact ⟨0, .refl p r s⟩
  | succ n ih =>
    unfold ringDrain
    dsimp only
    split
    · exact ⟨0, .refl p r s⟩
    · split
      · exact ⟨0, .refl p r s⟩
      · next w rest _ =>
        obtain ⟨m, hm⟩ := ih (ringPut p r w.1 (modPart p (modRing r (fun z => { z with waiting := rest })) s))
        exact ⟨_, ((ringFed_withRing_waiting p r rest s).trans (ringFed_ringPut hr w.1 _)).trans hm⟩

/-- The records that wait for a ring, dropped and counted at `k` if there are any. -/
theorem dropWaiting_spec (p r k : Nat) (s : State) : let t := dropWaiting p r k s
    let y := ringAt (partAt s p) r
    ringAt (partAt t p) r = { y with waiting := [] } ∧ (∀ j, j ≠ r → ringAt (partAt t p) j = ringAt (partAt s p) j)
    ∧ mapGet 0 (partAt t p).cnt k = mapGet 0 (partAt s p).cnt k + BitVec.ofNat 48 y.waiting.length
    ∧ partAt t p = { partAt s p with rings := (partAt t p).rings, cnt := (partAt t p).cnt }
    ∧ (∀ q, q ≠ p → partAt t q = partAt s q) ∧ t = { s with parts := t.parts } := by
  intro t y
  by_cases h : y.waiting.length = 0
  · have ht : t = s := if_pos h
    have hnil : y.waiting = [] := List.length_eq_zero_iff.1 h
    rw [ht, h, ← hnil]
    exact ⟨rfl, fun _ _ => rfl, by simp, rfl, fun _ _ => rfl, rfl⟩
  · have ht : t = cntPart p k y.waiting.length (withRing p r { y with waiting := [] } s) := if_neg h
    have hpart : partAt t p = { putRing r { y with waiting := [] } (partAt s p) with
        cnt := cntAdd k y.waiting.length (partAt s p).cnt } := by
      rw [ht, cntPart, partAt_modPart_same, partAt_withRing_same]
      rfl
    refine ⟨?_, fun j hj => ?_, ?_, ?_, fun q hq => ?_, ?_⟩
    · rw [hpart]; exact ringAt_putRing_same r _ _
    · rw [hpart]; exact ringAt_putRing_other hj _ _
    · rw [hpart]; simp [cntAdd, mapMod, mapGet_mapSet]
    · rw [hpart]; rfl
    · rw [ht, cntPart, partAt_modPart, if_neg hq]; exact partAt_putPart_other hq _ s
    · rw [ht]; rfl

end Sys2Proof.Machine
end

section
/-!
PROOF. What each command of a ring or a vector does (R426, R430 to R432, R434, R435, R441).
-/

namespace Sys2Proof.Machine

open Sys2Proof

/-! ### The spill (R431) -/

/-- The oldest record that waits has waited past its time, or nothing happens. -/
theorem exec_ringSpill_of_waiting {s : State} {part : Part} {ring : Fin 8} {w : List Byte × Nat} {rest : List (List Byte × Nat)}
    (hwait : (ringAt (partAt s part.val) ring.val).waiting = w :: rest) : exec (.ringSpill part ring) s =
      .next (if w.2 + (ringAt (partAt s part.val) ring.val).spillUs * 1000 ≤ nowNs s ∧ fenced s part.val = false then
        dropWaiting part.val ring.val 8 (modPart part.val (modRing ring.val (fun z => { z with spilling := true })) s)
      else s) := by
  change execRingSpill part ring s = _
  simp only [execRingSpill, hwait]

theorem exec_ringSpill_of_nil {s : State} {part : Part} {ring : Fin 8}
    (hwait : (ringAt (partAt s part.val) ring.val).waiting = []) : exec (.ringSpill part ring) s = .next s := by
  change execRingSpill part ring s = _
  simp only [execRingSpill, hwait]

/-- A ring whose waiting records go, with another of its fields set first. -/
theorem dropWaiting_withRing (p r k : Nat) (z : RingSt) (s : State)
    (hz : z.waiting = (ringAt (partAt s p) r).waiting) : let t := dropWaiting p r k (withRing p r z s)
    let x := partAt s p
    ringAt (partAt t p) r = { z with waiting := [] } ∧ (∀ j, j ≠ r → ringAt (partAt t p) j = ringAt x j)
    ∧ mapGet 0 (partAt t p).cnt k = mapGet 0 x.cnt k + BitVec.ofNat 48 (ringAt x r).waiting.length
    ∧ partAt t p = { x with rings := (partAt t p).rings, cnt := (partAt t p).cnt }
    ∧ (∀ q, q ≠ p → partAt t q = partAt s q) ∧ t = { s with parts := t.parts } := by
  intro t x
  obtain ⟨hring, hrings, hcnt, hpart, hothers, hrest⟩ := dropWaiting_spec p r k (withRing p r z s)
  have hwork := ringWork_withRing p r z s
  refine ⟨?_, fun j hj => (hrings j hj).trans (hwork.rings j hj), ?_, ?_, fun q hq => (hothers q hq).trans (hwork.others q hq), ?_⟩
  · simpa using hring
  · simpa [hz] using hcnt
  · simpa [putRing] using hpart
  · exact hrest

/-! ### The doorbell (R432, R441) -/

/-- A ring with a new cons: an entry free ends the discarding. -/
def rung (cons : Word) (y : RingSt) : RingSt :=
  let z := { y with cons }
  if ringFull z then z else { z with spilling := false }

theorem rung_eq (cons : Word) (y : RingSt) : rung cons y = { y with cons, spilling := (rung cons y).spilling } := by
  unfold rung
  dsimp only
  split <;> rfl

@[simp] theorem rung_waiting (cons : Word) (y : RingSt) : (rung cons y).waiting = y.waiting := by rw [rung_eq]

/-- A fenced partition and a ring that is none of the six take no write. -/
theorem exec_ring_write_ignored {s : State} {part : Part} {ring : Fin 8} (h : fenced s part.val = true ∨ 6 ≤ ring.val) (v : Word) :
    exec (.ringDoorbell part ring v) s = .next s ∧ exec (.ringEnable part ring v) s = .next s := by
  have hguard : (fenced s part.val || decide (6 ≤ ring.val)) = true := by simpa using h
  exact ⟨congrArg _ (if_pos hguard), congrArg _ (if_pos hguard)⟩

section Writable

variable {s : State} {part : Part} {ring : Fin 8} (hfence : fenced s part.val = false) (hring : ring.val < 6)
include hfence hring

theorem ring_write_guard : ¬(fenced s part.val || decide (6 ≤ ring.val)) = true := by
  simp [hfence, hring]

theorem exec_ringDoorbell_accepted {cons : Word} (hle : ((ringAt (partAt s part.val) ring.val).prod - cons).toNat ≤
      ((ringAt (partAt s part.val) ring.val).prod - (ringAt (partAt s part.val) ring.val).cons).toNat) :
    exec (.ringDoorbell part ring cons) s =
      .next (ringDrain part.val ring.val (ringAt (partAt s part.val) ring.val).waiting.length
        (withRing part.val ring.val (rung cons (ringAt (partAt s part.val) ring.val)) s)) := by
  change execRingDoorbell part ring cons s = _
  unfold execRingDoorbell
  dsimp only
  rw [if_neg (ring_write_guard hfence hring), if_pos hle]
  exact congrArg (fun l : List _ => Host.Outcome.next (ringDrain _ _ l.length _)) (rung_waiting cons _)

theorem exec_ringDoorbell_refused {cons : Word}
    (hlt : ((ringAt (partAt s part.val) ring.val).prod - (ringAt (partAt s part.val) ring.val).cons).toNat <
      ((ringAt (partAt s part.val) ring.val).prod - cons).toNat) :
    let u := putPart part.val { partAt s part.val with badDoorbell := true } s
    exec (.ringDoorbell part ring cons) s = .next (if (partAt s part.val).badDoorbell then u else askVec part.val 6 u) := by
  change execRingDoorbell part ring cons s = _
  unfold execRingDoorbell
  dsimp only
  rw [if_neg (ring_write_guard hfence hring), if_neg (Nat.not_le.2 hlt)]

theorem exec_ringEnable_open (v : Word) : exec (.ringEnable part ring v) s = .next (writeRingCtl part.val ring.val v s) :=
  congrArg _ (if_neg (ring_write_guard hfence hring))

end Writable

/-- A ring with room and one record waiting writes that record and prod. -/
theorem ringDrain_single {p r : Nat} {s : State} {w : List Byte × Nat} (hr : r < 6) (hfence : fenced s p = false)
    (hfull : ringFull (ringAt (partAt s p) r) = false) (hwait : (ringAt (partAt s p) r).waiting = [w]) :
    let t := ringDrain p r 1 s
    (ringAt (partAt t p) r).waiting = [] ∧ (ringAt (partAt t p) r).prod = (ringAt (partAt s p) r).prod + 1
    ∧ t.out.writes = s.out.writes ++ entryWrites r (ringAt (partAt s p) r) w.1 := by
  intro t
  let u := withRing p r { ringAt (partAt s p) r with waiting := [] } s
  have ht : t = ringPut p r w.1 u := ringDrain_cons 0 hfence hfull hwait
  have hu : ringAt (partAt u p) r = { ringAt (partAt s p) r with waiting := [] } := by simp [u]
  obtain ⟨hwrites, hwaiting⟩ := ringPut_writes (p := p) hr w.1 u
  have hprod := (ringFed_ringPut (p := p) hr w.1 u).prod
  rw [hu] at hwrites hwaiting hprod
  rw [ht]
  exact ⟨hwaiting, hprod, hwrites⟩

/-! ### The control register (R431, R432) -/

/-- The spill time and the size that a write of the control register gives a ring: the size only while it is disabled. -/
def ringSettings (v : Word) (y : RingSt) : RingSt :=
  { y with spillUs := max 2 (min 50 (bits 15 8 v.toNat)), size := if y.enable then y.size else max 8 (min 20 (bits 4 0 v.toNat)) }

theorem writeRingCtl_enable {v : Word} (hv : v.getLsbD 31 = true) (p r : Nat) (s : State) : writeRingCtl p r v s =
    ringDrain p r (ringAt (partAt s p) r).waiting.length (withRing p r
      { ringSettings v (ringAt (partAt s p) r) with enable := true, prod := 0, cons := 0, spilling := false } s) := by
  have hbit : bit 31 v.toNat = true := hv
  simp only [writeRingCtl, hbit, if_true, modPart_modRing, partAt_withRing_same, ringAt_putRing_same]
  rfl

theorem writeRingCtl_disable {v : Word} (hv : v.getLsbD 31 = false) (p r : Nat) (s : State) : writeRingCtl p r v s =
    dropWaiting p r 9 (withRing p r { ringSettings v (ringAt (partAt s p) r) with enable := false } s) := by
  have hbit : bit 31 v.toNat = false := hv
  simp only [writeRingCtl, hbit, modPart_modRing]
  rfl

/-! ### Base and writeback address while enabled (R432) -/

theorem regAt_ring_address (s : State) (p : Nat) {r o : Nat} (hr : r < 6) (ho : o = 0x100 + 0x40 * r ∨ o = 0x108 + 0x40 * r) :
    ∃ cur, regAt s (p + 1) o = some ⟨8, cur⟩ := by
  have hne : o ≠ 0 := by omega
  have hin : 0x100 ≤ o ∧ o < 0x280 := by omega
  unfold regAt winReg
  rw [if_neg (Nat.succ_ne_zero p)]
  dsimp only
  rw [if_neg hne, if_pos hin]
  rcases ho with rfl | rfl
  · have hreg : (0x100 + 0x40 * r - 0x100) % 0x40 = 0x00 := by omega
    rw [hreg]
    exact ⟨_, rfl⟩
  · have hreg : (0x108 + 0x40 * r - 0x100) % 0x40 = 0x08 := by omega
    rw [hreg]
    exact ⟨_, rfl⟩

/-- A write of 8 bytes to a register of 8 bytes of a partition's window is that register's write. -/
theorem exec_registerWrite_window {s : State} {fn : Fn} {p o cur : Nat} (v : DWord) (hspace : spaceOf s fn = some (p + 1))
    (hsize : o + 8 ≤ 0x10000) (halign : o % 8 = 0) (hreg : regAt s (p + 1) o = some ⟨8, cur⟩) :
    exec (.registerWrite fn o .b8 v) s = .next (writeWin p o v.toNat (dropHeld (blockOf (p + 1) o) s)) := by
  have hv : v.toNat % 18446744073709551616 = v.toNat := Nat.mod_eq_of_lt v.isLt
  have hfit : ¬(spaceSize (p + 1) < o + 8) := by simp [spaceSize]; omega
  change execRegisterWrite fn o .b8 v s = _
  simp [execRegisterWrite, hspace, sizeOf_, hfit, halign, writeWithin, hreg, writeReg, hv]

theorem writeWin_ring {p o : Nat} (h : 0x100 ≤ o) (h' : o < 0x280) (v : Nat) (s : State) : writeWin p o v s =
    if fenced s p then s else writeRing p ((o - 0x100) / 0x40) ((o - 0x100) % 0x40) v s := by
  have hvec : ¬(0x8000 ≤ o ∧ o < 0x8080) := by omega
  simp [writeWin, hvec, h, h']

/-- A change that leaves one ring as it was leaves all of them as they were. -/
theorem ringAt_modRing_of_fixed {r : Nat} {f : RingSt → RingSt} {x : PartSt} (h : f (ringAt x r) = ringAt x r) (k : Nat) :
    ringAt (modRing r f x) k = ringAt x k := by
  rw [modRing, ringAt_putRing, h]
  split
  · next hk => rw [hk]
  · rfl

theorem partAt_dropHeld (b p : Nat) (s : State) : partAt (dropHeld b s) p = partAt s p := rfl

theorem ringAt_writeRing_address {p r : Nat} {s : State} (hen : (ringAt (partAt s p) r).enable = true) {o : Nat}
    (ho : o = 0x00 ∨ o = 0x08) (v k : Nat) : ringAt (partAt (writeRing p r o v s) p) k = ringAt (partAt s p) k := by
  rcases ho with rfl | rfl
  all_goals
    simp only [writeRing, partAt_modPart_same]
    refine ringAt_modRing_of_fixed ?_ k
    exact if_pos hen

theorem registerWrite_ring_address_ignored {s : State} {fn : Fn} {p r o : Nat} (hr : r < 6)
    (hen : (ringAt (partAt s p) r).enable = true) (hspace : spaceOf s fn = some (p + 1))
    (ho : o = 0x100 + 0x40 * r ∨ o = 0x108 + 0x40 * r) (v : DWord) :
    ∃ t, exec (.registerWrite fn o .b8 v) s = .next t ∧ ∀ k, ringAt (partAt t p) k = ringAt (partAt s p) k := by
  obtain ⟨cur, hreg⟩ := regAt_ring_address s p hr ho
  have hring : (o - 0x100) / 0x40 = r := by omega
  have hoff : (o - 0x100) % 0x40 = 0x00 ∨ (o - 0x100) % 0x40 = 0x08 := by omega
  refine ⟨_, exec_registerWrite_window v hspace (by omega) (by omega) hreg, fun k => ?_⟩
  rw [writeWin_ring (by omega) (by omega), hring]
  split
  · rfl
  · rw [ringAt_writeRing_address (by rwa [partAt_dropHeld]) hoff, partAt_dropHeld]

/-! ### Moderation and vectors (R434, R435) -/

theorem exec_moderationDelay (part : Part) (ring : Fin 8) (s : State) : exec (.moderationDelay part ring) s =
    .next (if 0 < (ringAt (partAt s part.val) ring.val).since ∧
        (ringAt (partAt s part.val) ring.val).oldestNs + (ringAt (partAt s part.val) ring.val).delayUs * 1000 ≤ nowNs s then
      askVec part.val (ringVec ring.val) s else s) := by
  change execModerationDelay part ring s = _
  rw [execModerationDelay]

theorem exec_vectorGapExpire (part : Part) (vec : Fin 8) (s : State) : exec (.vectorGapExpire part vec) s =
    .next (if (vecAt (partAt s part.val) vec.val).held && gapOver s (partAt s part.val) vec.val && !(vecAt (partAt s part.val) vec.val).mask
        && fnActive (partAt s part.val) && !fenced s part.val then
      sendVec part.val vec.val s else s) := rfl

theorem exec_msixUnmask (part : Part) (vec : Fin 8) (s : State) : let x := partAt s part.val
    let y := vecAt x vec.val
    let u := putPart part.val { x with vecs := mapSet vec.val { y with mask := false } x.vecs } s
    exec (.msixUnmask part vec) s = .next (if y.mask && y.pend then askVec part.val vec.val u else u) := rfl

end Sys2Proof.Machine
end

section
/-!
PROOF. The clauses of a ring's and a vector's commands, and O48 from them (R426, R430 to R432, R434, R435, R441).
-/

namespace Sys2Proof.Machine

open Sys2Proof

/-- `t` differs from `s` in partition `p` and in what has been sent, and nowhere else. -/
def OnlyPart (p : Nat) (s t : State) : Prop :=
  (∀ q, q ≠ p → partAt t q = partAt s q) ∧ t = { s with parts := t.parts, out := t.out }

theorem RingWork.onlyPart {p r : Nat} {s t : State} (h : RingWork p r s t) : OnlyPart p s t := ⟨h.others, h.rest⟩

/-- What a drain leaves of a ring put back just before: its work on the state, and of the ring all but the records and their counts. -/
theorem ringWork_ringDrain_withRing {p r : Nat} (hr : r < 6) (n : Nat) (z : RingSt) (s : State) :
    let t := ringDrain p r n (withRing p r z s)
    ∃ m, RingWork p r s t ∧ t.out.writes.length = s.out.writes.length + 2 * m
      ∧ (ringAt (partAt t p) r).prod = z.prod + BitVec.ofNat 32 m
      ∧ ringAt (partAt t p) r = { z with
        prod := (ringAt (partAt t p) r).prod, waiting := (ringAt (partAt t p) r).waiting,
        since := (ringAt (partAt t p) r).since, oldestNs := (ringAt (partAt t p) r).oldestNs } := by
  intro t
  obtain ⟨m, hfed⟩ := ringFed_ringDrain (p := p) hr n (withRing p r z s)
  have hwork := (ringWork_withRing p r z s).trans hfed.toRingWork
  have hprod := hfed.prod
  have hregs := hfed.regs
  simp only [partAt_withRing_same, ringAt_putRing_same] at hprod hregs
  exact ⟨m, hwork, hfed.writes, hprod, hregs⟩

section Commands

variable {s : State} {part : Part} {ring : Fin 8}

theorem ringSpill_drops {w : List Byte × Nat} {rest : List (List Byte × Nat)}
    (hwait : (ringAt (partAt s part.val) ring.val).waiting = w :: rest)
    (hdue : w.2 + (ringAt (partAt s part.val) ring.val).spillUs * 1000 ≤ nowNs s) (hfence : fenced s part.val = false) :
    let p := part.val
    let x := partAt s p
    let y := ringAt x ring.val
    ∃ t, exec (.ringSpill part ring) s = .next t
      ∧ ringAt (partAt t p) ring.val = { y with waiting := [], spilling := true } ∧ (∀ k, k ≠ ring.val → ringAt (partAt t p) k = ringAt x k)
      ∧ mapGet 0 (partAt t p).cnt 8 = mapGet 0 x.cnt 8 + BitVec.ofNat 48 y.waiting.length
      ∧ partAt t p = { x with rings := (partAt t p).rings, cnt := (partAt t p).cnt } ∧ OnlyPart p s t ∧ t.out = s.out := by
  intro p x y
  obtain ⟨hring, hrings, hcnt, hpart, hothers, hrest⟩ :=
    dropWaiting_withRing p ring.val 8 { y with spilling := true } s rfl
  refine ⟨_, exec_ringSpill_of_waiting hwait, ?_⟩
  rw [if_pos ⟨hdue, hfence⟩, modPart_modRing]
  exact ⟨hring, hrings, hcnt, hpart, ⟨hothers, by rw [hrest]⟩, by rw [hrest]⟩

theorem ringSpill_waits {w : List Byte × Nat} {rest : List (List Byte × Nat)}
    (hwait : (ringAt (partAt s part.val) ring.val).waiting = w :: rest)
    (h : nowNs s < w.2 + (ringAt (partAt s part.val) ring.val).spillUs * 1000 ∨ fenced s part.val = true) :
    exec (.ringSpill part ring) s = .next s := by
  rw [exec_ringSpill_of_waiting hwait, if_neg]
  rintro ⟨hdue, hfence⟩
  rcases h with hearly | hfenced
  · exact absurd hdue (Nat.not_le.2 hearly)
  · simp [hfenced] at hfence

section Writable

variable (hfence : fenced s part.val = false) (hring : ring.val < 6)
include hfence hring

theorem ringDoorbell_takes {cons : Word} (hle : ((ringAt (partAt s part.val) ring.val).prod - cons).toNat ≤
      ((ringAt (partAt s part.val) ring.val).prod - (ringAt (partAt s part.val) ring.val).cons).toNat) :
    let p := part.val
    let r := ring.val
    let x := partAt s p
    let y := ringAt x r
    let z := rung cons y
    ∃ t, exec (.ringDoorbell part ring cons) s = .next t
      ∧ (ringAt (partAt t p) r).cons = cons ∧ (partAt t p).badDoorbell = x.badDoorbell ∧ (partAt t p).cnt = x.cnt
      ∧ (y.waiting = [] ∨ ringFull z = true → ringAt (partAt t p) r = z ∧ t.out = s.out)
      ∧ (∀ w, y.waiting = [w] → ringFull z = false → (ringAt (partAt t p) r).waiting = [] ∧ (ringAt (partAt t p) r).prod = y.prod + 1
          ∧ t.out.writes = s.out.writes ++ entryWrites r y w.1)
      ∧ (∀ k, k ≠ r → ringAt (partAt t p) k = ringAt x k) ∧ OnlyPart p s t := by
  intro p r x y z
  obtain ⟨m, hwork, -, -, hregs⟩ := ringWork_ringDrain_withRing (p := p) hring y.waiting.length z s
  have hz : ringAt (partAt (withRing p r z s) p) r = z := by simp
  refine ⟨_, exec_ringDoorbell_accepted hfence hring hle, ?_, ?_, ?_, fun hidle => ?_, fun w hwait hroom => ?_, hwork.rings,
    hwork.onlyPart⟩
  · rw [hregs]
    exact congrArg RingSt.cons (rung_eq cons y)
  · rw [hwork.part]
  · rw [hwork.part]
  · have hstay := ringDrain_of_idle (p := p) (r := r) (s := withRing p r z s) y.waiting.length
      (by rw [hz, rung_waiting]; exact hidle)
    rw [hstay]
    exact ⟨hz, rfl⟩
  · have hone := ringDrain_single (p := p) (w := w) hring (s := withRing p r z s) (by rwa [fenced_withRing])
      (by rwa [hz]) (by rw [hz, rung_waiting]; exact hwait)
    have hentry : entryWrites r z w.1 = entryWrites r y w.1 ∧ z.prod = y.prod := by
      rw [show z = _ from rung_eq cons y]
      exact ⟨rfl, rfl⟩
    rw [hz, hentry.1, hentry.2] at hone
    rw [hwait]
    exact hone

theorem ringDoorbell_ignores {cons : Word}
    (hlt : ((ringAt (partAt s part.val) ring.val).prod - (ringAt (partAt s part.val) ring.val).cons).toNat <
      ((ringAt (partAt s part.val) ring.val).prod - cons).toNat) :
    let x := partAt s part.val
    let u := putPart part.val { x with badDoorbell := true } s
    ∃ t, exec (.ringDoorbell part ring cons) s = .next t
      ∧ (x.badDoorbell = true → t = u) ∧ (x.badDoorbell = false → Asked u t part.val 6) := by
  intro x u
  refine ⟨_, exec_ringDoorbell_refused hfence hring hlt, fun hset => if_pos hset, fun hclear => ?_⟩
  rw [if_neg (by rw [hclear]; exact Bool.false_ne_true)]
  exact asked_askVec part.val 6 u

theorem ringEnable_starts {v : Word} (hv : v.getLsbD 31 = true) :
    let p := part.val
    let r := ring.val
    let x := partAt s p
    let y := ringAt x r
    ∃ t, exec (.ringEnable part ring v) s = .next t
      ∧ (ringAt (partAt t p) r).enable = true ∧ (ringAt (partAt t p) r).cons = 0
      ∧ (ringAt (partAt t p) r).size = (ringSettings v y).size ∧ (ringAt (partAt t p) r).spillUs = (ringSettings v y).spillUs
      ∧ (ringAt (partAt t p) r).base = y.base ∧ (ringAt (partAt t p) r).wb = y.wb
      ∧ (y.waiting = [] → (ringAt (partAt t p) r).prod = 0 ∧ t.out = s.out)
      ∧ (ringAt (partAt t p) r).prod = BitVec.ofNat 32 ((t.out.writes.length - s.out.writes.length) / 2)
      ∧ (partAt t p).cnt = x.cnt ∧ (∀ k, k ≠ r → ringAt (partAt t p) k = ringAt x k) ∧ OnlyPart p s t := by
  intro p r x y
  let z : RingSt := { ringSettings v y with enable := true, prod := 0, cons := 0, spilling := false }
  obtain ⟨m, hwork, hwrites, hprod, hregs⟩ := ringWork_ringDrain_withRing (p := p) hring y.waiting.length z s
  have hz : ringAt (partAt (withRing p r z s) p) r = z := by simp
  refine ⟨_, exec_ringEnable_open hfence hring v, ?_⟩
  rw [writeRingCtl_enable hv]
  refine ⟨(congrArg RingSt.enable hregs :), (congrArg RingSt.cons hregs :), (congrArg RingSt.size hregs :), (congrArg RingSt.spillUs hregs :),
    (congrArg RingSt.base hregs :), (congrArg RingSt.wb hregs :), fun hnil => ?_, ?_, by rw [hwork.part], hwork.rings, hwork.onlyPart⟩
  · rw [ringDrain_of_idle _ (.inl (by rw [hz]; exact hnil)), hz]
    exact ⟨rfl, rfl⟩
  · rw [hwrites, Nat.add_sub_cancel_left, Nat.mul_div_cancel_left m two_pos, hprod]
    exact BitVec.zero_add _

theorem ringEnable_stops {v : Word} (hv : v.getLsbD 31 = false) :
    let p := part.val
    let r := ring.val
    let x := partAt s p
    let y := ringAt x r
    ∃ t, exec (.ringEnable part ring v) s = .next t
      ∧ ringAt (partAt t p) r = { ringSettings v y with enable := false, waiting := [] }
      ∧ mapGet 0 (partAt t p).cnt 9 = mapGet 0 x.cnt 9 + BitVec.ofNat 48 y.waiting.length
      ∧ (∀ k, k ≠ r → ringAt (partAt t p) k = ringAt x k)
      ∧ partAt t p = { x with rings := (partAt t p).rings, cnt := (partAt t p).cnt } ∧ OnlyPart p s t ∧ t.out = s.out := by
  intro p r x y
  obtain ⟨hdropped, hrings, hcnt, hpart, hothers, hrest⟩ :=
    dropWaiting_withRing p r 9 { ringSettings v y with enable := false } s rfl
  refine ⟨_, exec_ringEnable_open hfence hring v, ?_⟩
  rw [writeRingCtl_disable hv]
  exact ⟨hdropped, hcnt, hrings, hpart, ⟨hothers, by rw [hrest]⟩, by rw [hrest]⟩

end Writable

theorem moderationDelay_asks (hsince : 0 < (ringAt (partAt s part.val) ring.val).since)
    (hdue : (ringAt (partAt s part.val) ring.val).oldestNs + (ringAt (partAt s part.val) ring.val).delayUs * 1000 ≤ nowNs s) :
    ∃ t, exec (.moderationDelay part ring) s = .next t ∧ Asked s t part.val (ringVec ring.val) := by
  refine ⟨_, exec_moderationDelay part ring s, ?_⟩
  rw [if_pos ⟨hsince, hdue⟩]
  exact asked_askVec part.val (ringVec ring.val) s

theorem moderationDelay_waits (h : (ringAt (partAt s part.val) ring.val).since = 0 ∨
      nowNs s < (ringAt (partAt s part.val) ring.val).oldestNs + (ringAt (partAt s part.val) ring.val).delayUs * 1000) :
    exec (.moderationDelay part ring) s = .next s := by
  rw [exec_moderationDelay, if_neg]
  omega

theorem vectorGapExpire_sends {vec : Fin 8} (hheld : (vecAt (partAt s part.val) vec.val).held = true)
    (hgap : gapOver s (partAt s part.val) vec.val = true) (hmask : (vecAt (partAt s part.val) vec.val).mask = false)
    (hactive : fnActive (partAt s part.val) = true) (hfence : fenced s part.val = false) :
    ∃ t, exec (.vectorGapExpire part vec) s = .next t ∧ Asked s t part.val vec.val := by
  refine ⟨_, exec_vectorGapExpire part vec s, ?_⟩
  rw [if_pos (by simp [hheld, hgap, hmask, hactive, hfence])]
  exact asked_sendVec hfence hmask hactive hgap

theorem vectorGapExpire_waits {vec : Fin 8} (h : (vecAt (partAt s part.val) vec.val).held = false
      ∨ gapOver s (partAt s part.val) vec.val = false ∨ (vecAt (partAt s part.val) vec.val).mask = true
      ∨ fnActive (partAt s part.val) = false ∨ fenced s part.val = true) :
    exec (.vectorGapExpire part vec) s = .next s := by
  rw [exec_vectorGapExpire, if_neg]
  rcases h with h | h | h | h | h <;> simp [h]

theorem msixUnmask_asks (vec : Fin 8) : let x := partAt s part.val
    let y := vecAt x vec.val
    let u := putPart part.val { x with vecs := mapSet vec.val { y with mask := false } x.vecs } s
    ∃ t, exec (.msixUnmask part vec) s = .next t ∧ (y.mask = false ∨ y.pend = false → t = u)
      ∧ (y.mask = true → y.pend = true → Asked u t part.val vec.val) := by
  intro x y u
  refine ⟨_, exec_msixUnmask part vec s, fun h => if_neg ?_, fun hmask hpend => ?_⟩
  · have hquiet : (y.mask && y.pend) = false := by rcases h with h | h <;> simp [h]
    exact Bool.eq_false_iff.1 hquiet
  · have hpends : (y.mask && y.pend) = true := by simp [hmask, hpend]
    rw [if_pos hpends]
    exact asked_askVec part.val vec.val u

end Commands

end Sys2Proof.Machine

namespace Sys2Proof

open Machine

/-- Settles O48: a ring's commands are a drop, a drain or nothing, and a vector's a vector that asks, one that sends, or nothing. -/
theorem ringsAndVectors : Obligations.RingsAndVectors := by
  unfold Obligations.RingsAndVectors
  intro s part p x only
  exact ⟨fun ring => ⟨fun w rest hwait => ⟨ringSpill_waits hwait, ringSpill_drops hwait⟩,
      exec_ringSpill_of_nil,
      exec_ring_write_ignored,
      fun hfence hr => ⟨fun cons => ⟨ringDoorbell_takes hfence hr, ringDoorbell_ignores hfence hr⟩,
        fun v => ⟨ringEnable_starts hfence hr, ringEnable_stops hfence hr⟩⟩,
      fun hr hen fn v o hspace ho => registerWrite_ring_address_ignored hr hen hspace ho v,
      moderationDelay_asks, moderationDelay_waits⟩,
    fun vec => ⟨vectorGapExpire_sends, vectorGapExpire_waits, msixUnmask_asks vec⟩⟩

end Sys2Proof
end

section
/-!
PROOF. Keys and sessions: what an audit record says, what it leaves alone, and what a privileged command that may run, or may not, comes to
(R505, R507, R511 to R513).
-/

namespace Sys2Proof.Machine

open Sys2Proof

/-! ### The audit record (R511, R513) -/

/-- A record writes the log alone. -/
theorem auditRaw_frame (role path action : Nat) (keyId : DWord) (target result : Nat) (detail : List Byte) (s : State) :
    let u := auditRaw role path action keyId target result detail s
    u = { s with auth := { s.auth with tail := u.auth.tail, waiting := u.auth.waiting, head := u.auth.head, chain := u.auth.chain } } := by
  simp only [auditRaw]
  split <;> rfl

/-- The session of a path gives its record a role and a key, and nothing more. -/
theorem audit_eq_auditRaw (p : Path) (action target result : Nat) (detail : List Byte) (s : State) :
    ∃ role keyId, audit p action target result detail s = auditRaw role (pathNum p) action keyId target result detail s := by
  unfold audit
  split <;> exact ⟨_, _, rfl⟩

theorem audit_frame (p : Path) (action target result : Nat) (detail : List Byte) (s : State) :
    let u := audit p action target result detail s
    u = { s with auth := { s.auth with tail := u.auth.tail, waiting := u.auth.waiting, head := u.auth.head, chain := u.auth.chain } } := by
  obtain ⟨role, keyId, h⟩ := audit_eq_auditRaw p action target result detail s
  simp only [h]
  exact auditRaw_frame ..

section AuditKeeps

variable (p : Path) (action target result : Nat) (detail : List Byte) (s : State)

@[simp] theorem audit_keys : (audit p action target result detail s).auth.keys = s.auth.keys := by rw [audit_frame]
@[simp] theorem audit_sessions : (audit p action target result detail s).auth.sessions = s.auth.sessions := by rw [audit_frame]
@[simp] theorem audit_challenges : (audit p action target result detail s).auth.challenges = s.auth.challenges := by rw [audit_frame]
@[simp] theorem audit_fails : (audit p action target result detail s).auth.fails = s.auth.fails := by rw [audit_frame]
@[simp] theorem audit_locked : (audit p action target result detail s).auth.locked = s.auth.locked := by rw [audit_frame]
@[simp] theorem audit_count : (audit p action target result detail s).auth.count = s.auth.count := by rw [audit_frame]
@[simp] theorem audit_ring : (audit p action target result detail s).auth.ring = s.auth.ring := by rw [audit_frame]
@[simp] theorem audit_time : (audit p action target result detail s).time = s.time := by rw [audit_frame]
@[simp] theorem audit_nowNs : nowNs (audit p action target result detail s) = nowNs s := congrArg (·.now) (audit_time ..)

end AuditKeeps

/-- What a record of 64 bytes says at the places of its action, its target and its result (R511). -/
structure Says (r : List Byte) (action target result : Nat) : Prop where
  length : 48 ≤ r.length
  action : (r.drop 14).take 2 = leBytes 2 action
  target : (r.drop 24).take 4 = leBytes 4 target
  result : r.getD 28 0 = BitVec.ofNat 8 result

/-- `u` is `s` with one record in the log, which had room for it. -/
structure Logged (s u : State) (action target result : Nat) : Prop where
  record : ∃ r, u.auth.tail = s.auth.tail ++ [r] ∧ Says r action target result
  head : u.auth.head = s.auth.head + 1
  waiting : u.auth.waiting = s.auth.waiting

theorem auditRaw_logged (role path action : Nat) (keyId : DWord) (target result : Nat) (detail : List Byte) {s : State}
    (room : s.auth.tail.length < 256) : Logged s (auditRaw role path action keyId target result detail s) action target result := by
  simp only [auditRaw, if_neg (Nat.not_le.2 room)]
  refine ⟨⟨_, rfl, ⟨?_, rfl, rfl, rfl⟩⟩, rfl, rfl⟩
  simp [leBytes]

theorem audit_logged (p : Path) (action target result : Nat) (detail : List Byte) {s : State} (room : s.auth.tail.length < 256) :
    Logged s (audit p action target result detail s) action target result := by
  obtain ⟨role, keyId, h⟩ := audit_eq_auditRaw p action target result detail s
  rw [h]
  exact auditRaw_logged _ _ _ _ _ _ _ room

theorem auditFull_eq_false {s : State} (room : s.auth.tail.length < 256) : auditFull s = false :=
  decide_eq_false (Nat.not_le.2 room)

/-! ### The session of a path -/

/-- A command's session renewed and its record written (R505, R511): what the command's effect starts from. -/
def noted (p : Path) (action target result : Nat) (detail : List Byte) (s : State) : State :=
  audit p action target result detail (touchSession p s)

section OfPath

variable {p : Path} (hp : ∀ v, p ≠ .vf v)
include hp

theorem sessionOf_eq (s : State) : sessionOf s p = mapFind (pathNum p) s.auth.sessions := by
  cases p with
  | pf => rfl
  | mctp => rfl
  | vf v => exact absurd rfl (hp v)

theorem onPath_eq (f : State → State) (s : State) : onPath p f s = f s := by
  cases p with
  | pf => rfl
  | mctp => rfl
  | vf v => exact absurd rfl (hp v)

theorem commandWith_eq (rights action target : Nat) (ok : State → Bool) (detail : List Byte) (refused effect : State → State) (s : State) :
    commandWith p rights action target ok detail refused effect s =
      if auditFull s then audit p action target 3 detail s
      else if allowed s p rights then effect (noted p action target (if ok (touchSession p s) then 0 else 3) detail s)
      else refused (auditRefused p action target s) := by
  cases p with
  | pf => rfl
  | mctp => rfl
  | vf v => exact absurd rfl (hp v)

end OfPath

/-- Tables that agree on a path's number give the path one session. -/
theorem sessionOf_congr {s t : State} {q : Path} (h : mapFind (pathNum q) t.auth.sessions = mapFind (pathNum q) s.auth.sessions) :
    sessionOf t q = sessionOf s q := by
  cases q with
  | pf => exact h
  | mctp => exact h
  | vf v => rfl

theorem sessionOf_congr_sessions {s t : State} (h : t.auth.sessions = s.auth.sessions) (q : Path) : sessionOf t q = sessionOf s q :=
  sessionOf_congr (by rw [h])

/-! ### A command that may run, and one that may not (R507, R511) -/

theorem touchSession_frame (p : Path) (s : State) :
    touchSession p s = { s with auth := { s.auth with sessions := (touchSession p s).auth.sessions } } := by
  unfold touchSession
  split <;> rfl

@[simp] theorem touchSession_tail (p : Path) (s : State) : (touchSession p s).auth.tail = s.auth.tail := by rw [touchSession_frame]

@[simp] theorem touchSession_keys (p : Path) (s : State) : (touchSession p s).auth.keys = s.auth.keys := by rw [touchSession_frame]

@[simp] theorem noted_keys (p : Path) (action target result : Nat) (detail : List Byte) (s : State) :
    (noted p action target result detail s).auth.keys = s.auth.keys := by
  rw [noted, audit_keys, touchSession_keys]

theorem mapFind_touchSession {p : Path} (hp : ∀ v, p ≠ .vf v) (s : State) (k : Nat) : mapFind k (touchSession p s).auth.sessions =
    (mapFind k s.auth.sessions).map (fun x => if k = pathNum p then { x with lastNs := nowNs s } else x) := by
  unfold touchSession
  rw [sessionOf_eq hp]
  split
  next x hx => by_cases h : k = pathNum p <;> simp [mapFind_mapSet, h, hx]
  next hx => by_cases h : k = pathNum p <;> simp [h, hx]

theorem recorded_noted {s : State} {p : Path} (hp : ∀ v, p ≠ .vf v) (room : s.auth.tail.length < 256) (action target result : Nat)
    (detail : List Byte) : Recorded s (noted p action target result detail s) p action target result := by
  unfold noted
  have hroom : (touchSession p s).auth.tail.length < 256 := by rwa [touchSession_tail]
  have hlog := audit_logged p action target result detail hroom
  obtain ⟨r, htail, hsays⟩ := hlog.record
  constructor
  case record => exact ⟨r, by rw [htail, touchSession_tail], hsays.length, hsays.action, hsays.target, hsays.result⟩
  case head => rw [hlog.head, touchSession_frame]
  case renewed =>
    intro k
    rw [audit_sessions, mapFind_touchSession hp]
  case rest =>
    rw [audit_frame, hlog.waiting, touchSession_frame]

section MayRun

variable {s : State} {p : Path} {rights action target : Nat} {ok : State → Bool} {detail : List Byte} {refused effect : State → State}

theorem commandWith_of_mayRun (h : MayRun s p rights) : commandWith p rights action target ok detail refused effect s =
    effect (noted p action target (if ok (touchSession p s) then 0 else 3) detail s) := by
  rw [commandWith_eq h.notVf, auditFull_eq_false h.room, if_neg Bool.false_ne_true, if_pos h.role]

theorem commandWith_of_mayNotRun (h : MayNotRun s p rights) :
    commandWith p rights action target ok detail refused effect s = refused (auditRefused p action target s) := by
  simp [commandWith_eq h.notVf, auditFull_eq_false h.room, h.role]

end MayRun

/-- Of the device only the warden differs, and of the warden neither its keys nor its audit ring. -/
def KeepsKeys (s t : State) : Prop := t = { s with auth := t.auth } ∧ t.auth.keys = s.auth.keys ∧ t.auth.ring = s.auth.ring

theorem keepsKeys_audit (p : Path) (action target result : Nat) (detail : List Byte) (s : State) :
    KeepsKeys s (audit p action target result detail s) := ⟨by rw [audit_frame], audit_keys .., audit_ring ..⟩

theorem KeepsKeys.trans {s t u : State} (h : KeepsKeys s t) (h' : KeepsKeys t u) : KeepsKeys s u := by
  obtain ⟨hrest, hkeys, hring⟩ := h
  obtain ⟨hrest', hkeys', hring'⟩ := h'
  exact ⟨by rw [hrest', hrest], hkeys'.trans hkeys, hring'.trans hring⟩

theorem keepsKeys_auditRefused (p : Path) (action target : Nat) (s : State) : KeepsKeys s (auditRefused p action target s) := by
  have hrec : KeepsKeys s (auditRefused.rec_ p action target s) := (keepsKeys_audit p action target 2 [] s).trans ⟨rfl, rfl, rfl⟩
  unfold auditRefused
  split
  · split
    · exact ⟨rfl, rfl, rfl⟩
    · exact hrec
  · exact hrec

/-! ### A session ends (R503, R505) -/

theorem endSession_of_none {s : State} {p : Path} (h : sessionOf s p = none) : endSession p s = s := by
  simp [endSession, h]

theorem endSession_of_some {s : State} {p : Path} {x : Session} (h : sessionOf s p = some x) :
    let u := audit p 0x0003 x.slot 1 [] s
    endSession p s = { u with auth := { u.auth with sessions := mapDel (pathNum p) s.auth.sessions } } := by
  simp [endSession, h]

/-- The end of a session leaves all of the warden but its log and its sessions. -/
theorem endSession_frame (p : Path) (s : State) : let u := endSession p s
    u = { s with auth := { s.auth with
      sessions := u.auth.sessions, tail := u.auth.tail, waiting := u.auth.waiting, head := u.auth.head, chain := u.auth.chain } } := by
  cases h : sessionOf s p with
  | none => rw [endSession_of_none h]
  | some x =>
    rw [endSession_of_some h]
    dsimp only
    rw [audit_frame]

section EndSessionKeeps

variable (p : Path) (s : State)

@[simp] theorem endSession_keys : (endSession p s).auth.keys = s.auth.keys := by rw [endSession_frame]
@[simp] theorem endSession_ring : (endSession p s).auth.ring = s.auth.ring := by rw [endSession_frame]
@[simp] theorem endSession_locked : (endSession p s).auth.locked = s.auth.locked := by rw [endSession_frame]
@[simp] theorem endSession_time : (endSession p s).time = s.time := by rw [endSession_frame]

theorem keepsKeys_endSession : KeepsKeys s (endSession p s) := ⟨by rw [endSession_frame], endSession_keys p s, endSession_ring p s⟩

end EndSessionKeeps

theorem mapFind_endSession {p : Path} (hp : ∀ v, p ≠ .vf v) (s : State) (k : Nat) :
    mapFind k (endSession p s).auth.sessions = if k = pathNum p then none else mapFind k s.auth.sessions := by
  cases h : sessionOf s p with
  | none =>
    rw [endSession_of_none h]
    rw [sessionOf_eq hp] at h
    split
    next hk => rw [hk, h]
    next => rfl
  | some x =>
    rw [endSession_of_some h]
    exact mapFind_mapDel ..

/-- In `t` the session of `path` has ended, with a record that names its slot; the other path's session is as before. -/
def Closed (s t : State) (path : Path) : Prop := sessionOf t path = none
  ∧ (∀ q, pathNum q ≠ pathNum path → sessionOf t q = sessionOf s q)
  ∧ (∀ x, sessionOf s path = some x → s.auth.tail.length < 256 →
      ∃ r, t.auth.tail = s.auth.tail ++ [r] ∧ (r.drop 14).take 2 = [3, 0] ∧ (r.drop 24).take 4 = leBytes 4 x.slot)

/-- Whatever else `t` differs in, its sessions and its tail being those that the end of the session leaves makes it closed. -/
theorem closed_of_endSession {s t : State} {path : Path} (hp : ∀ v, path ≠ .vf v)
    (hsessions : t.auth.sessions = (endSession path s).auth.sessions) (htail : t.auth.tail = (endSession path s).auth.tail) :
    Closed s t path := by
  refine ⟨?_, fun q hq => sessionOf_congr ?_, fun x hx room => ?_⟩
  · rw [sessionOf_eq hp, hsessions, mapFind_endSession hp, if_pos rfl]
  · rw [hsessions, mapFind_endSession hp, if_neg hq]
  · obtain ⟨r, hr, hsays⟩ := (audit_logged path 0x0003 x.slot 1 [] room).record
    rw [endSession_of_some hx] at htail
    exact ⟨r, htail.trans hr, hsays.action, hsays.target⟩

theorem closed_endSession {path : Path} (hp : ∀ v, path ≠ .vf v) (s : State) : Closed s (endSession path s) path :=
  closed_of_endSession hp rfl rfl

/-! ### Locks of slots (R505) -/

theorem slotLocked_congr {s t : State} (hlocked : t.auth.locked = s.auth.locked) (htime : t.time = s.time) (slot : Nat) :
    slotLocked t slot = slotLocked s slot := by
  unfold slotLocked nowNs
  rw [hlocked, htime]

end Sys2Proof.Machine
end

section
/-!
PROOF. Sessions and keys: OPEN, VERIFY, CLOSE and the time-outs, then CLAIM, ENROL and REMOVE (R501 to R505, R508, R513, R514).
-/

namespace Sys2Proof.Machine

open Sys2Proof

/-! ### OPEN (R504, R505) -/

/-- A path's session ended and its challenge withdrawn. -/
def unopened (path : Path) (s : State) : State :=
  let u := endSession path s
  { u with auth := { u.auth with challenges := mapDel (pathNum path) u.auth.challenges } }

theorem slotLocked_unopened (path : Path) (s : State) (slot : Nat) : slotLocked (unopened path s) slot = slotLocked s slot :=
  slotLocked_congr (endSession_locked path s) (endSession_time path s) slot

theorem keepsKeys_unopened (path : Path) (s : State) : KeepsKeys s (unopened path s) :=
  (keepsKeys_endSession path s).trans ⟨rfl, rfl, rfl⟩

section OfPath

variable {s : State} {path : Path} (hp : ∀ v, path ≠ .vf v)
include hp

theorem exec_openSession (room : s.auth.tail.length < 256) (slot : BitVec 8) (nonce : BitVec 384) : let u := unopened path s
    exec (.openSession path slot nonce) s = .next (if 10 < slot.toNat ∨ slotLocked s slot.toNat = true then u
      else reply (pathNum path) (beBytes 48 nonce.toNat)
        { u with auth := { u.auth with challenges := mapSet (pathNum path) (slot.toNat, nonce) u.auth.challenges } }) := by
  intro u
  change execOpenSession path slot nonce s = _
  have hlocked : slotLocked u slot.toNat = slotLocked s slot.toNat := slotLocked_unopened ..
  simp only [execOpenSession, onPath_eq hp, auditFull_eq_false room, if_neg Bool.false_ne_true, Bool.or_eq_true, decide_eq_true_eq,
    ← hlocked]
  rfl

theorem openSession_challenges (room : s.auth.tail.length < 256) {slot : BitVec 8} (nonce : BitVec 384) (hslot : slot.toNat ≤ 10)
    (hfree : slotLocked s slot.toNat = false) : ∃ t, exec (.openSession path slot nonce) s = .next t ∧ Closed s t path
      ∧ mapFind (pathNum path) t.auth.challenges = some (slot.toNat, nonce)
      ∧ t.out = { s.out with replies := s.out.replies ++ [(pathNum path, beBytes 48 nonce.toNat)] }
      ∧ t = { s with auth := t.auth, out := t.out } := by
  refine ⟨_, exec_openSession hp room slot nonce, ?_⟩
  rw [if_neg (by simp [hfree]; omega)]
  have hrest := (keepsKeys_unopened path s).1
  refine ⟨closed_of_endSession hp rfl rfl, ?_, ?_, ?_⟩
  · exact (mapFind_mapSet ..).trans (if_pos rfl)
  · dsimp only [reply]
    rw [hrest]
  · dsimp only [reply]
    rw [hrest]

theorem openSession_refuses (room : s.auth.tail.length < 256) {slot : BitVec 8} (nonce : BitVec 384)
    (h : 10 < slot.toNat ∨ slotLocked s slot.toNat = true) : ∃ t, exec (.openSession path slot nonce) s = .next t ∧ Closed s t path
      ∧ mapFind (pathNum path) t.auth.challenges = none ∧ KeepsKeys s t := by
  refine ⟨_, exec_openSession hp room slot nonce, ?_⟩
  rw [if_pos h]
  exact ⟨closed_of_endSession hp rfl rfl, (mapFind_mapDel ..).trans (if_pos rfl), keepsKeys_unopened path s⟩

end OfPath

/-! ### VERIFY (R504, R505, R513) -/

/-- A path's challenge spent. -/
def spent (path : Path) (s : State) : State :=
  { s with auth := { s.auth with challenges := mapDel (pathNum path) s.auth.challenges } }

theorem mapFind_challenges_spent (path : Path) (s : State) : mapFind (pathNum path) (spent path s).auth.challenges = none :=
  (mapFind_mapDel ..).trans (if_pos rfl)

/-- The failures of a slot within the last minute. -/
def recentFails (s : State) (slot : Nat) : List Nat := (mapGet [] s.auth.fails slot).filter (fun t => decide (nowNs s < t + 60000000000))

/-- A failure is recorded; the third within a minute locks its slot, and one before it is counted. -/
theorem failVerify_eq (p : Path) (slot : Nat) (s : State) : let u := audit p 0x0002 slot 4 [] s
    failVerify p slot s = if 2 ≤ (recentFails s slot).length then
        audit p 0x0004 slot 1 [] { u with auth := { u.auth with
          fails := mapDel slot s.auth.fails, locked := mapSet slot (nowNs s + 60000000000) s.auth.locked } }
      else { u with auth := { u.auth with fails := mapSet slot (recentFails s slot ++ [nowNs s]) s.auth.fails } } := by
  simp [failVerify, recentFails]

theorem keepsKeys_failVerify (p : Path) (slot : Nat) (s : State) : KeepsKeys s (failVerify p slot s) := by
  have haudit := keepsKeys_audit p 0x0002 slot 4 [] s
  rw [failVerify_eq]
  split
  · exact (haudit.trans ⟨rfl, rfl, rfl⟩).trans (keepsKeys_audit ..)
  · exact haudit.trans ⟨rfl, rfl, rfl⟩

theorem failVerify_keeps (p : Path) (slot : Nat) (s : State) : (failVerify p slot s).auth.challenges = s.auth.challenges
    ∧ (failVerify p slot s).auth.count = s.auth.count ∧ (failVerify p slot s).auth.sessions = s.auth.sessions := by
  rw [failVerify_eq]
  split <;> simp

theorem failVerify_counts {slot : Nat} {s : State} (h : (recentFails s slot).length < 2) (p : Path) :
    mapFind slot (failVerify p slot s).auth.fails = some (recentFails s slot ++ [nowNs s])
    ∧ (failVerify p slot s).auth.locked = s.auth.locked := by
  rw [failVerify_eq, if_neg (Nat.not_le.2 h)]
  exact ⟨(mapFind_mapSet ..).trans (if_pos rfl), audit_locked ..⟩

theorem failVerify_locks {slot : Nat} {s : State} (h : 2 ≤ (recentFails s slot).length) (p : Path) :
    mapFind slot (failVerify p slot s).auth.fails = none
    ∧ mapFind slot (failVerify p slot s).auth.locked = some (nowNs s + 60000000000) := by
  rw [failVerify_eq, if_pos h, audit_fails, audit_locked]
  exact ⟨(mapFind_mapDel ..).trans (if_pos rfl), (mapFind_mapSet ..).trans (if_pos rfl)⟩

/-- A session opened with the key of a slot: the challenge is spent, the sessions are counted and the slot's failures forgotten. -/
def opened (path : Path) (slot : Nat) (pt : List Byte) (s : State) : State :=
  { s with auth := { (spent path s).auth with
    sessions := mapSet (pathNum path) { role := slotRole slot, slot, keyId := keyIdOf pt, lastNs := nowNs s } s.auth.sessions,
    count := s.auth.count + 1, fails := mapDel slot s.auth.fails } }

section OfPath

variable {s : State} {path : Path} (hp : ∀ v, path ≠ .vf v)
include hp

theorem verifySession_unchallenged (room : s.auth.tail.length < 256) (sig : BitVec 768)
    (h : mapFind (pathNum path) s.auth.challenges = none) : exec (.verifySession path sig) s = .next s := by
  change execVerifySession path sig s = _
  simp [execVerifySession, onPath_eq hp, auditFull_eq_false room, h]

section Challenged

variable (room : s.auth.tail.length < 256) (sig : BitVec 768) {slot : Nat} {nonce : BitVec 384}
  (hchallenge : mapFind (pathNum path) s.auth.challenges = some (slot, nonce))
include room hchallenge

theorem exec_verifySession : exec (.verifySession path sig) s = .next (if slotLocked s slot then spent path s
    else match mapFind slot s.auth.keys with
      | none => failVerify path slot (spent path s)
      | some pt =>
        if verifies pt (challengeDigest s slot (pathNum path) nonce) sig then audit path 0x0001 slot 1 [] (opened path slot pt s)
        else failVerify path slot (spent path s)) := by
  change execVerifySession path sig s = _
  simp only [execVerifySession, onPath_eq hp, auditFull_eq_false room, hchallenge]
  rfl

theorem verifySession_locked (hlocked : slotLocked s slot = true) : exec (.verifySession path sig) s = .next (spent path s) := by
  rw [exec_verifySession hp room sig hchallenge, if_pos hlocked]

theorem verifySession_opens (pt : List Byte) (hfree : slotLocked s slot = false) (hkey : mapFind slot s.auth.keys = some pt)
    (hsig : verifies pt (challengeDigest s slot (pathNum path) nonce) sig = true) :
    ∃ t, exec (.verifySession path sig) s = .next t ∧ mapFind (pathNum path) t.auth.challenges = none ∧ t.auth.count = s.auth.count + 1
      ∧ sessionOf t path = some { role := slotRole slot, slot, keyId := keyIdOf pt, lastNs := nowNs s } ∧ KeepsKeys s t := by
  have hrun : exec (.verifySession path sig) s = .next (audit path 0x0001 slot 1 [] (opened path slot pt s)) := by
    simp [exec_verifySession hp room sig hchallenge, hfree, hkey, hsig]
  have hopened : KeepsKeys s (opened path slot pt s) := ⟨rfl, rfl, rfl⟩
  refine ⟨_, hrun, ?_, audit_count .., ?_, hopened.trans (keepsKeys_audit ..)⟩
  · rw [audit_challenges]
    exact mapFind_challenges_spent path s
  · rw [sessionOf_eq hp, audit_sessions]
    exact (mapFind_mapSet ..).trans (if_pos rfl)

theorem verifySession_fails (hfree : slotLocked s slot = false) (hbad : mapFind slot s.auth.keys = none
      ∨ ∃ pt, mapFind slot s.auth.keys = some pt ∧ verifies pt (challengeDigest s slot (pathNum path) nonce) sig = false) :
    ∃ t, exec (.verifySession path sig) s = .next t ∧ mapFind (pathNum path) t.auth.challenges = none ∧ t.auth.count = s.auth.count
      ∧ t.auth.sessions = s.auth.sessions ∧ KeepsKeys s t
      ∧ ((recentFails s slot).length < 2 →
          mapFind slot t.auth.fails = some (recentFails s slot ++ [nowNs s]) ∧ t.auth.locked = s.auth.locked)
      ∧ (2 ≤ (recentFails s slot).length →
          mapFind slot t.auth.fails = none ∧ mapFind slot t.auth.locked = some (nowNs s + 60000000000)) := by
  have hrun : exec (.verifySession path sig) s = .next (failVerify path slot (spent path s)) := by
    rcases hbad with hnone | ⟨pt, hkey, hsig⟩
    · simp [exec_verifySession hp room sig hchallenge, hfree, hnone]
    · simp [exec_verifySession hp room sig hchallenge, hfree, hkey, hsig]
  have hspent : KeepsKeys s (spent path s) := ⟨rfl, rfl, rfl⟩
  obtain ⟨hchallenges, hcount, hsessions⟩ := failVerify_keeps path slot (spent path s)
  refine ⟨_, hrun, ?_, hcount, hsessions, hspent.trans (keepsKeys_failVerify ..),
    fun h => failVerify_counts (s := spent path s) h path, fun h => failVerify_locks (s := spent path s) h path⟩
  rw [hchallenges]
  exact mapFind_challenges_spent path s

end Challenged

/-! ### CLOSE and the time-outs (R505) -/

theorem exec_closeSession (room : s.auth.tail.length < 256) : exec (.closeSession path) s = .next (endSession path s) := by
  change execCloseSession path s = _
  simp [execCloseSession, onPath_eq hp, auditFull_eq_false room]

theorem closeSession_ends (room : s.auth.tail.length < 256) :
    ∃ t, exec (.closeSession path) s = .next t ∧ Closed s t path ∧ KeepsKeys s t :=
  ⟨_, exec_closeSession hp room, closed_endSession hp s, keepsKeys_endSession path s⟩

theorem closeSession_of_none (h : sessionOf s path = none) : exec (.closeSession path) s = .next s := by
  change execCloseSession path s = _
  simp [execCloseSession, onPath_eq hp, endSession_of_none h]

theorem sessionTimeout_ends {x : Session} (hx : sessionOf s path = some x) (hdue : x.lastNs + 600000000000 ≤ nowNs s) :
    ∃ t, exec (.sessionTimeout path) s = .next t ∧ Closed s t path ∧ KeepsKeys s t := by
  have hrun : exec (.sessionTimeout path) s = .next (endSession path s) := by
    change execSessionTimeout path s = _
    simp [execSessionTimeout, hx, hdue]
  exact ⟨_, hrun, closed_endSession hp s, keepsKeys_endSession path s⟩

end OfPath

theorem sessionTimeout_of_none {s : State} {path : Path} (h : sessionOf s path = none) : exec (.sessionTimeout path) s = .next s := by
  change execSessionTimeout path s = _
  simp [execSessionTimeout, h]

theorem sessionTimeout_waits {s : State} {path : Path} {x : Session} (hx : sessionOf s path = some x)
    (hearly : nowNs s < x.lastNs + 600000000000) : exec (.sessionTimeout path) s = .next s := by
  change execSessionTimeout path s = _
  simp [execSessionTimeout, hx, Nat.not_le.2 hearly]

theorem exec_slotUnlock {s : State} {slot : Fin 11} {due : Nat} (h : mapFind slot.val s.auth.locked = some due) :
    exec (.slotUnlock slot) s =
      .next (if due ≤ nowNs s then { s with auth := { s.auth with locked := mapDel slot.val s.auth.locked } } else s) := by
  change execSlotUnlock slot s = _
  simp only [execSlotUnlock, h]

/-! ### The sessions of a key (R503) -/

/-- The step of `endKeySessions` for one path: its session ends if the slot's key opened it. -/
def endKeySession (slot : Nat) (s : State) (p : Path) : State :=
  match sessionOf s p with
  | some x => if x.slot = slot then endSession p s else s
  | none => s

theorem endKeySessions_eq (slot : Nat) (s : State) :
    endKeySessions slot s = endKeySession slot (endKeySession slot s .pf) .mctp := rfl

theorem endKeySession_cases (slot : Nat) (s : State) (p : Path) : endKeySession slot s p = s ∨ endKeySession slot s p = endSession p s := by
  unfold endKeySession
  split
  · split
    · exact .inr rfl
    · exact .inl rfl
  · exact .inl rfl

theorem keepsKeys_endKeySession (slot : Nat) (s : State) (p : Path) : KeepsKeys s (endKeySession slot s p) := by
  rcases endKeySession_cases slot s p with h | h <;> rw [h]
  · exact ⟨rfl, rfl, rfl⟩
  · exact keepsKeys_endSession p s

theorem keepsKeys_endKeySessions (slot : Nat) (s : State) : KeepsKeys s (endKeySessions slot s) :=
  (keepsKeys_endKeySession slot s .pf).trans (keepsKeys_endKeySession ..)

/-- The paths that can hold a session have numbers of their own. -/
theorem pathNum_inj {p q : Path} (hp : ∀ v, p ≠ .vf v) (hq : ∀ v, q ≠ .vf v) (h : pathNum q = pathNum p) : q = p := by
  cases p with
  | vf v => exact absurd rfl (hp v)
  | pf | mctp => cases q with
    | vf v => exact absurd rfl (hq v)
    | pf | mctp => simp_all [pathNum]

theorem sessionOf_endKeySession {p : Path} (hp : ∀ v, p ≠ .vf v) (slot : Nat) (s : State) {q : Path} (hq : ∀ v, q ≠ .vf v) :
    sessionOf (endKeySession slot s p) q = if q = p then (sessionOf s q).filter (fun x => x.slot != slot) else sessionOf s q := by
  have hended : sessionOf (endSession p s) q = if q = p then none else sessionOf s q := by
    rw [sessionOf_eq hq, mapFind_endSession hp, sessionOf_eq hq]
    exact if_congr ⟨pathNum_inj hp hq, congrArg _⟩ rfl rfl
  by_cases hqp : q = p
  · subst hqp
    unfold endKeySession
    cases hx : sessionOf s q with
    | none => simp [hx]
    | some x => by_cases h : x.slot = slot <;> simp [hx, h, hended, Option.filter_some]
  · rw [if_neg hqp]
    rcases endKeySession_cases slot s p with h | h
    · rw [h]
    · rw [h, hended, if_neg hqp]

/-- Of the sessions, those opened with the slot's key end, on whatever path. -/
theorem sessionOf_endKeySessions (slot : Nat) (s : State) (q : Path) :
    sessionOf (endKeySessions slot s) q = (sessionOf s q).filter (fun x => x.slot != slot) := by
  have hpf : ∀ v, Path.pf ≠ .vf v := fun v => Path.noConfusion
  have hmctp : ∀ v, Path.mctp ≠ .vf v := fun v => Path.noConfusion
  rw [endKeySessions_eq]
  cases q with
  | pf => simp [sessionOf_endKeySession hmctp _ _ hpf, sessionOf_endKeySession hpf _ _ hpf]
  | mctp => simp [sessionOf_endKeySession hmctp _ _ hmctp, sessionOf_endKeySession hpf _ _ hmctp]
  | vf v => rfl

/-! ### CLAIM (R502) -/

theorem claimOk_of_certificate {s : State} {b : KeyBlock} {root : List Byte} (h1 : mapFind 1 s.auth.keys = none) (h2 : mapFind 2 s.auth.keys = none)
    (hslot : b.slot = 1 ∨ b.slot = 2) (hblock : blockOk b = true) (hroot : mapFind 0 s.auth.keys = some root)
    (hcert : verifies root (sha384Word (leBytes 8 s.dev.deviceId.toNat ++ b.point)) b.cert = true) : claimOk b s = true := by
  simp [claimOk, unclaimed, h1, h2, hslot, hblock, hroot, hcert]

theorem claimOk_eq_false {s : State} {b : KeyBlock} (h : mapFind 1 s.auth.keys ≠ none ∨ mapFind 2 s.auth.keys ≠ none
    ∨ (b.slot ≠ 1 ∧ b.slot ≠ 2) ∨ blockOk b = false) : claimOk b s = false := by
  rw [Bool.eq_false_iff]
  intro hok
  simp only [claimOk, unclaimed, Bool.and_eq_true, Bool.or_eq_true, beq_iff_eq, Option.isNone_iff_eq_none] at hok
  obtain ⟨⟨⟨⟨h1, h2⟩, hslot⟩, hblock⟩, -⟩ := hok
  rcases h with h | h | ⟨h, h'⟩ | h
  · exact h h1
  · exact h h2
  · exact hslot.elim h h'
  · exact Bool.false_ne_true (h.symm.trans hblock)

section Claim

variable {s : State} {path : Path} (hp : ∀ v, path ≠ .vf v) (room : s.auth.tail.length < 256) {b : KeyBlock}
include hp room

theorem exec_claim : exec (.claim path b) s = .next (if claimOk b s then setKey b (audit path 0x0010 b.slot 0 (keyDetail b) s)
    else audit path 0x0010 b.slot 3 (keyDetail b) s) := by
  change execClaim path b s = _
  simp [execClaim, onPath_eq hp, auditFull_eq_false room]

theorem claim_takes (hok : claimOk b s = true) : ∃ t, exec (.claim path b) s = .next t ∧ mapFind b.slot t.auth.keys = some b.point
    ∧ (∀ j, j ≠ b.slot → mapFind j t.auth.keys = mapFind j s.auth.keys)
    ∧ (∃ r, t.auth.tail = s.auth.tail ++ [r] ∧ (r.drop 14).take 2 = [0x10, 0]) ∧ t = { s with auth := t.auth } := by
  obtain ⟨r, htail, hsays⟩ := (audit_logged path 0x0010 b.slot 0 (keyDetail b) room).record
  refine ⟨_, exec_claim hp room, ?_⟩
  rw [if_pos hok]
  refine ⟨(mapFind_mapSet ..).trans (if_pos rfl), fun j hj => ?_, ⟨r, htail, hsays.action⟩, ?_⟩
  · rw [setKey, mapFind_mapSet, if_neg hj, audit_keys]
  · rw [setKey, audit_frame]

theorem claim_refuses (hno : claimOk b s = false) : ∃ t, exec (.claim path b) s = .next t ∧ KeepsKeys s t
    ∧ (∃ r, t.auth.tail = s.auth.tail ++ [r] ∧ (r.drop 14).take 2 = [0x10, 0] ∧ r.getD 28 0 = 3) := by
  obtain ⟨r, htail, hsays⟩ := (audit_logged path 0x0010 b.slot 3 (keyDetail b) room).record
  refine ⟨_, exec_claim hp room, ?_⟩
  rw [if_neg (Bool.eq_false_iff.1 hno)]
  exact ⟨keepsKeys_audit .., r, htail, hsays.action, hsays.result⟩

end Claim

/-! ### ENROL and REMOVE (R502, R503, R507) -/

/-- A renewed session is still one of its slot, and so ends with the slot's key. -/
theorem sessionOf_endKeySessions_of_recorded {s u : State} {path : Path} {action target result : Nat}
    (h : Recorded s u path action target result) {slot : Nat} {q : Path} {x : Session} (hx : sessionOf s q = some x)
    (hslot : x.slot = slot) : sessionOf (endKeySessions slot u) q = none := by
  have hq : ∀ v, q ≠ .vf v := by
    rintro v rfl
    simp [sessionOf] at hx
  rw [sessionOf_eq hq] at hx
  rw [sessionOf_endKeySessions, sessionOf_eq hq, h.renewed, hx, Option.map_some, Option.filter_some]
  split <;> simp [hslot]

theorem removeOk_congr {s t : State} (h : t.auth.keys = s.auth.keys) (b : KeyBlock) : removeOk b t = removeOk b s := by
  simp only [removeOk, h]

theorem removeOk_eq_false {s : State} {b : KeyBlock} (h : b.slot = 1 ∧ mapFind 2 s.auth.keys = none
    ∨ b.slot = 2 ∧ mapFind 1 s.auth.keys = none ∨ mapFind b.slot s.auth.keys ≠ some b.point) : removeOk b s = false := by
  rcases h with ⟨hslot, hlast⟩ | ⟨hslot, hlast⟩ | hkey
  · simp [removeOk, hslot, hlast]
  · simp [removeOk, hslot, hlast]
  · simp [removeOk, hkey]

section MayRun

variable {s : State} {path : Path} (h : MayRun s path 4) {b : KeyBlock}
include h

theorem exec_enrol_accepted (hslot : keySlotOk b.slot = true) (hblock : blockOk b = true) :
    let u := noted path 0x0011 b.slot 0 (keyDetail b) s
    exec (.enrol path b) s =
      .next (setKey b (if mapFind b.slot s.auth.keys = some b.point then u else endKeySessions b.slot u)) := by
  intro u
  have hkeys : u.auth.keys = s.auth.keys := noted_keys ..
  change execEnrol path b s = _
  simp only [execEnrol, commandWith_of_mayRun (rights := installerRights) h, hslot, hblock, Bool.and_self, if_true, ← hkeys, beq_iff_eq]
  rfl

theorem exec_enrol_refused (hbad : keySlotOk b.slot = false ∨ blockOk b = false) :
    exec (.enrol path b) s = .next (noted path 0x0011 b.slot 3 (keyDetail b) s) := by
  have hno : (keySlotOk b.slot && blockOk b) = false := Bool.and_eq_false_iff.2 hbad
  change execEnrol path b s = _
  simp only [execEnrol, commandWith_of_mayRun (rights := installerRights) h, hno, Bool.false_eq_true, if_false]

theorem enrol_sets (hslot : keySlotOk b.slot = true) (hblock : blockOk b = true) :
    ∃ u t, exec (.enrol path b) s = .next t ∧ Recorded s u path 0x11 b.slot 0
      ∧ mapFind b.slot t.auth.keys = some b.point ∧ (∀ j, j ≠ b.slot → mapFind j t.auth.keys = mapFind j s.auth.keys)
      ∧ (mapFind b.slot s.auth.keys = some b.point → t.auth.sessions = u.auth.sessions)
      ∧ (mapFind b.slot s.auth.keys ≠ some b.point → ∀ q x, sessionOf s q = some x → x.slot = b.slot → sessionOf t q = none)
      ∧ t = { u with auth := t.auth } := by
  let u := noted path 0x0011 b.slot 0 (keyDetail b) s
  have hrec : Recorded s u path 0x11 b.slot 0 := recorded_noted h.notVf h.room ..
  have hu : u.auth.keys = s.auth.keys := noted_keys ..
  refine ⟨u, _, exec_enrol_accepted h hslot hblock, hrec, (mapFind_mapSet ..).trans (if_pos rfl), ?_⟩
  split
  next hsame =>
    refine ⟨fun j hj => ?_, fun _ => rfl, fun hnot => absurd hsame hnot, rfl⟩
    rw [setKey, mapFind_mapSet, if_neg hj, hu]
  next hnew =>
    obtain ⟨hrest, hkeys, -⟩ := keepsKeys_endKeySessions b.slot u
    refine ⟨fun j hj => ?_, fun hsame => absurd hsame hnew, fun _ q x hx hslot => ?_, ?_⟩
    · rw [setKey, mapFind_mapSet, if_neg hj, hkeys, hu]
    · exact (sessionOf_congr_sessions rfl q).trans (sessionOf_endKeySessions_of_recorded hrec hx hslot)
    · rw [setKey, hrest]

theorem enrol_refuses (hbad : keySlotOk b.slot = false ∨ blockOk b = false) :
    ∃ u, Recorded s u path 0x11 b.slot 3 ∧ exec (.enrol path b) s = .next u :=
  ⟨_, recorded_noted h.notVf h.room .., exec_enrol_refused h hbad⟩

theorem exec_remove_accepted (hok : removeOk b s = true) :
    let u := endKeySessions b.slot (noted path 0x0012 b.slot 0 (keyDetail b) s)
    exec (.remove path b) s = .next { u with auth := { u.auth with keys := mapDel b.slot u.auth.keys } } := by
  have htouched : removeOk b (touchSession path s) = true := by rwa [removeOk_congr (touchSession_keys path s)]
  have hnoted : removeOk b (noted path 0x0012 b.slot 0 (keyDetail b) s) = true := by rwa [removeOk_congr (noted_keys ..)]
  change execRemove path b s = _
  simp only [execRemove, commandWith_of_mayRun (rights := installerRights) h, htouched, if_true, hnoted]

theorem exec_remove_refused (hno : removeOk b s = false) :
    exec (.remove path b) s = .next (noted path 0x0012 b.slot 3 (keyDetail b) s) := by
  have htouched : removeOk b (touchSession path s) = false := by rwa [removeOk_congr (touchSession_keys path s)]
  have hnoted : removeOk b (noted path 0x0012 b.slot 3 (keyDetail b) s) = false := by rwa [removeOk_congr (noted_keys ..)]
  change execRemove path b s = _
  simp only [execRemove, commandWith_of_mayRun (rights := installerRights) h, htouched, Bool.false_eq_true, if_false, hnoted]

theorem remove_takes (hok : removeOk b s = true) : ∃ u t, exec (.remove path b) s = .next t ∧ Recorded s u path 0x12 b.slot 0
    ∧ mapFind b.slot t.auth.keys = none ∧ (∀ j, j ≠ b.slot → mapFind j t.auth.keys = mapFind j s.auth.keys)
    ∧ (∀ q x, sessionOf s q = some x → x.slot = b.slot → sessionOf t q = none) ∧ t = { u with auth := t.auth } := by
  let u := noted path 0x0012 b.slot 0 (keyDetail b) s
  have hrec : Recorded s u path 0x12 b.slot 0 := recorded_noted h.notVf h.room ..
  have hu : u.auth.keys = s.auth.keys := noted_keys ..
  obtain ⟨hrest, hkeys, -⟩ := keepsKeys_endKeySessions b.slot u
  refine ⟨u, _, exec_remove_accepted h hok, hrec, (mapFind_mapDel ..).trans (if_pos rfl), fun j hj => ?_, fun q x hx hslot => ?_, ?_⟩
  · rw [mapFind_mapDel, if_neg hj, hkeys, hu]
  · exact (sessionOf_congr_sessions rfl q).trans (sessionOf_endKeySessions_of_recorded hrec hx hslot)
  · rw [hrest]

theorem remove_refuses (hno : removeOk b s = false) :
    ∃ u, Recorded s u path 0x12 b.slot 3 ∧ exec (.remove path b) s = .next u :=
  ⟨_, recorded_noted h.notVf h.room .., exec_remove_refused h hno⟩

end MayRun

section MayNotRun

variable {s : State} {path : Path} (h : MayNotRun s path 4) (b : KeyBlock)
include h

theorem enrol_denied : ∃ t, exec (.enrol path b) s = .next t ∧ KeepsKeys s t :=
  ⟨_, congrArg Host.Outcome.next (commandWith_of_mayNotRun (rights := installerRights) h), keepsKeys_auditRefused ..⟩

theorem remove_denied : ∃ t, exec (.remove path b) s = .next t ∧ KeepsKeys s t :=
  ⟨_, congrArg Host.Outcome.next (commandWith_of_mayNotRun (rights := installerRights) h), keepsKeys_auditRefused ..⟩

end MayNotRun

end Sys2Proof.Machine

namespace Sys2Proof

open Machine

/-- Settles O52: a session ends in one way alone, a privileged command starts from its record, and the rest is each command's own case. -/
theorem sessionsAndKeys : Obligations.SessionsAndKeys := by
  unfold Obligations.SessionsAndKeys
  intro s path hp k a only closed
  refine ⟨fun room => ⟨fun slot nonce => ⟨openSession_challenges hp room nonce, openSession_refuses hp room nonce⟩,
      fun sig => ⟨verifySession_unchallenged hp room sig, fun slot nonce hc => ⟨verifySession_opens hp room sig hc, ?_,
        verifySession_locked hp room sig hc⟩⟩,
      fun _ => closeSession_ends hp room,
      fun b _ => ⟨fun root h1 h2 hslot hblock hroot hcert => claim_takes hp room (claimOk_of_certificate h1 h2 hslot hblock hroot hcert),
        fun h => claim_refuses hp room (claimOk_eq_false h)⟩⟩,
    fun h => ⟨closeSession_of_none hp h, sessionTimeout_of_none h⟩,
    fun x hx => ⟨sessionTimeout_waits hx, sessionTimeout_ends hp hx⟩,
    fun slot due hdue => ⟨fun h => ?_, fun h => ?_⟩,
    fun h b => ⟨enrol_sets h, enrol_refuses h, remove_takes h, fun hno => remove_refuses h (removeOk_eq_false hno)⟩,
    fun h b => ⟨enrol_denied h b, remove_denied h b⟩,
    fun v b => ⟨rfl, rfl, rfl⟩⟩
  · exact verifySession_fails hp room sig hc
  · rw [exec_slotUnlock hdue, if_pos h]
  · rw [exec_slotUnlock hdue, if_neg (Nat.not_le.2 h)]

end Sys2Proof
end
